-- ==== Sys2Proof/Word.lean ====
section
/-! DEFINITION. The plain word types of the model: bytes, frames of bytes, and the index types of the
numbered things of spec/00_scope.md, "Numbering and naming". -/

namespace Sys2Proof

/-- One byte of exchange memory or of a port frame. -/
abbrev Byte := BitVec 8

/-- The bytes of one port frame, first byte first (R198). -/
abbrev Frame := List Byte

/-- S0 to S15. -/
abbrev StationId := Fin 16

/-- W0 to W3. -/
abbrev ZoneId := Fin 4

/-- T0 and T1. -/
abbrev TableId := Fin 2

/-- G0 to G15. -/
abbrev StageId := Fin 16

/-- Request page 0 to request page 31. -/
abbrev PageId := Fin 32

/-- A timer of R18: stopped, or running with the milliseconds remaining. A timer that has run out
stands at `some 0` until its run-out event is taken. -/
abbrev Timer := Option Nat

/-- The two axes of a station, in the order in which the spec lists them. -/
inductive AxisId where
  | az
  | el
  deriving DecidableEq, Repr

/-- The two heater zones of a station, in the order in which the spec judges them. -/
inductive Area where
  | reflector
  | feed
  deriving DecidableEq, Repr

/-- The two books of a station. -/
inductive Letter where
  | a
  | b
  deriving DecidableEq, Repr

/-- The other book of the station. -/
def Letter.other : Letter → Letter
  | .a => .b
  | .b => .a

end Sys2Proof
end

