-- ==== Sys2Proof/Config.lean ====
section
/-! DEFINITION. What the spec leaves open, as constants without a body, and the fixed lengths that
spec/00_scope.md, "Fixed intervals", and the rules name. -/

namespace Sys2Proof

/-- FREE VALUE (notes/assumptions/4.md). The place that a run-out taken at one millisecond finds among
the others of that millisecond: the rules say that of two events that fall together either may be
taken first (R21, R24, R28, R37, R44, R45, R110, R119, R122, R129, R148, R154, R156, R174, R175). -/
opaque Config.tieOrder : Nat → Nat

/-- FREE VALUE (notes/assumptions/5.md). The greatest step of an axis of the given Vmax whose station
holds no grant: R60 gives the step at the SLEW level and at the TRACK level alone, and a station
whose slew or track allocations are 0 W can have moving axes at level NONE (R78). -/
opaque Config.stepWithoutGrant : Nat → Nat

/-- The drive interval, 20 ms (R25). -/
def Config.driveInterval : Nat := 20

/-- A site pulse that follows the previous taken pulse by less than this is disregarded (R22). -/
def Config.pulseSpacing : Nat := 500

/-- The pulse watch (R24). -/
def Config.pulseWatch : Nat := 2500

/-- One sensing pass at rate FULL and at rate QUIET (R127). -/
def Config.fullPass : Nat := 250

/-- See `Config.fullPass`. -/
def Config.quietPass : Nat := 2000

/-- The quiet passes after which the rate becomes QUIET (R142). -/
def Config.quietLimit : Nat := 240

/-- One slot of the panel line, 31.25 ms, in quarters of a millisecond (R191). -/
def Config.slotQuarters : Nat := 125

/-- The probe window (R170), the energize window (R173), the overload timer and the open-element timer
(R175), the cooldown (R176), the melt-off timer (R169) and the ON-run timer (R174). -/
def Config.probeWindow : Nat := 1000

/-- See `Config.probeWindow`. -/
def Config.energizeWindow : Nat := 2000

/-- See `Config.probeWindow`. -/
def Config.overloadTime : Nat := 500

/-- See `Config.probeWindow`. -/
def Config.openElementTime : Nat := 2000

/-- See `Config.probeWindow`. -/
def Config.cooldownTime : Nat := 60000

/-- See `Config.probeWindow`. -/
def Config.meltOffTime : Nat := 600000

/-- See `Config.probeWindow`. -/
def Config.onRunTime : Nat := 900000

/-- The releasing expiries after which a brake that is not reported released faults the axis (R72). -/
def Config.releaseLimit : Nat := 50

/-- The run of expiries with an error beyond the limit that faults an axis (R80). -/
def Config.errorRunLimit : Nat := 10

/-- How many changes that reach PB within one event the model settles in that event
(notes/assumptions/6.md). -/
def Config.settleFuel : Nat := 4096

end Sys2Proof
end

