-- ==== Sys2Proof/Syntax.lean ====
section
/-! DEFINITION. The commands of the part, one constructor for each row of spec/opcode_table.json. A
request kind carries the request page it stands on, its target index and its parameters as the bits
of the page (R197); a frame that arrives at a port is carried as its bytes. -/

namespace Sys2Proof

/-- The registers whose writes have no effect (R3). -/
inductive IgnoredRegister where
  | ident
  | summary
  | summaryView
  deriving DecidableEq, Repr

/-- A write that has no effect on the register it names (R3), with the host's writes into exchange memory
that reach the part before it, in order (notes/assumptions/7.md). -/
structure IgnoredWrite where
  stores : List (BitVec 18 × Byte)
  reg : IgnoredRegister
  deriving DecidableEq, Repr

/-- The parameters of CONFIGURE_STATION for one axis, as written on the page (R84, R197). -/
structure RawAxisConfig where
  lmin : BitVec 32
  lmax : BitVec 32
  vmax : BitVec 32
  amax : BitVec 32
  errorLimit : BitVec 32
  window : BitVec 32
  slewWatts : BitVec 32
  trackWatts : BitVec 32
  deriving DecidableEq, Repr

/-- The parameters of CONFIGURE_STATION, as written on the page (R84, R197). -/
structure RawStationConfig where
  zone : BitVec 8
  az : RawAxisConfig
  el : RawAxisConfig
  stowEl : BitVec 32
  shedEl : BitVec 32
  holdIdle : BitVec 32
  snow : BitVec 8
  surface : BitVec 8
  precip : BitVec 8
  deriving DecidableEq, Repr

/-- The parameters of CONFIGURE_ZONE, as written on the page (R146, R197). -/
structure RawZoneConfig where
  count : BitVec 8
  stage0 : BitVec 8
  stage1 : BitVec 8
  stage2 : BitVec 8
  stage3 : BitVec 8
  watch : BitVec 16
  stow : BitVec 16
  release : BitVec 16
  gustStow : BitVec 16
  returnHold : BitVec 32
  deadline : BitVec 32
  blindTimeout : BitVec 32
  floor : BitVec 32
  deriving DecidableEq, Repr

/-- The commands. The comment of each gives its row and its rule. -/
inductive Instr where
  /-- POST_WRITE (R4). `stores` are the host's writes into exchange memory that reach the part before
  its write of `value` to POST, in order (notes/assumptions/7.md). -/
  | postWrite (stores : List (BitVec 18 × Byte)) (value : BitVec 32)
  /-- SUMMARY_READ (R13). -/
  | summaryRead
  /-- MASK_WRITE (R14). -/
  | maskWrite (value : BitVec 32)
  /-- INT_ENABLE (R14): a write to CONTROL with EXCHANGE_RESET as 0. -/
  | intEnable (enable : Bool)
  /-- EXCHANGE_RESET (R15): a write to CONTROL with EXCHANGE_RESET as 1, and the INT_ENABLE it carries. -/
  | exchangeReset (enable : Bool)
  /-- REGISTER_WRITE_IGNORED (R3): `reg` holds the register and the host's writes into exchange memory that
  reach the part before it. As nothing follows from the register write itself, the row with its writes is
  also a bare write of the host (R1; notes/assumptions/7.md). -/
  | registerWriteIgnored (reg : IgnoredWrite) (value : BitVec 32)
  /-- REQUEST_TAKE (R5). -/
  | requestTake
  /-- SET_TIME (R20). -/
  | setTime (page : PageId) (value : BitVec 48) (mode : BitVec 8)
  /-- ARM_BOOK (R33). -/
  | armBook (page : PageId) (target : BitVec 16) (letter : BitVec 8) (number : BitVec 16)
  /-- DISARM_BOOK (R44). -/
  | disarmBook (page : PageId) (target : BitVec 16)
  /-- STOP_BOOK (R45). -/
  | stopBook (page : PageId) (target : BitVec 16)
  /-- CONFIGURE_STATION (R84). -/
  | configureStation (page : PageId) (target : BitVec 16) (cfg : RawStationConfig)
  /-- RECOVER_AXIS (R83). -/
  | recoverAxis (page : PageId) (target : BitVec 16) (axis : BitVec 8)
  /-- SET_BUDGET (R88). -/
  | setBudget (page : PageId) (normal : BitVec 32) (emergency : BitVec 32)
  /-- LAUNCH_SWEEP (R107). -/
  | launchSweep (page : PageId) (target : BitVec 16) (source : BitVec 8) (start : BitVec 48)
      (timeout : BitVec 32)
  /-- CANCEL_SWEEP (R122). -/
  | cancelSweep (page : PageId) (target : BitVec 16)
  /-- CONFIGURE_SENSING (R139). -/
  | configureSensing (page : PageId) (count : BitVec 8)
  /-- RECALIBRATE (R138). -/
  | recalibrate (page : PageId)
  /-- CONFIGURE_ZONE (R146). -/
  | configureZone (page : PageId) (target : BitVec 16) (cfg : RawZoneConfig)
  /-- STOW_ZONE (R160). -/
  | stowZone (page : PageId) (target : BitVec 16)
  /-- RELEASE_ZONE (R160). -/
  | releaseZone (page : PageId) (target : BitVec 16)
  /-- SET_HEAT_MODE (R166). -/
  | setHeatMode (page : PageId) (target : BitVec 16) (mode : BitVec 8)
  /-- HEAT_ON (R167). -/
  | heatOn (page : PageId) (target : BitVec 16)
  /-- HEAT_OFF (R167). -/
  | heatOff (page : PageId) (target : BitVec 16)
  /-- PROBE_HEATER (R170). -/
  | probeHeater (page : PageId) (target : BitVec 16)
  /-- PLACE_TAG (R185). -/
  | placeTag (page : PageId) (target : BitVec 16) (kind : BitVec 8) (scope : BitVec 8)
      (id : BitVec 16)
  /-- CLEAR_RETURN (R188). -/
  | clearReturn (page : PageId) (target : BitVec 16)
  /-- CLEAR_SITE (R189). -/
  | clearSite (page : PageId) (target : BitVec 16)
  /-- RETIRE_STATION (R194). -/
  | retireStation (page : PageId) (target : BitVec 16)
  /-- VALIDATION_COMPLETION (R34). -/
  | validationCompletion
  /-- FULL_RESET (R16), with the levels of the three level lines at the end of the reset. -/
  | fullReset (siteStow : Bool) (siteStop : Bool) (feederAlarm : Bool)
  /-- SITE_PULSE (R22): a rising edge. -/
  | sitePulse
  /-- PULSE_WATCH_EXPIRY (R24). -/
  | pulseWatchExpiry
  /-- SWEEP_STROBE (R109): a rising edge. -/
  | sweepStrobe
  /-- SITE_STOW_CHANGE (R159), with the new level. -/
  | siteStowChange (level : Bool)
  /-- SITE_STOP_CHANGE (R190), with the new level. -/
  | siteStopChange (level : Bool)
  /-- FEEDER_ALARM_CHANGE (R87), with the new level. -/
  | feederAlarmChange (level : Bool)
  /-- DRIVE_INTERVAL_EXPIRY (R55). -/
  | driveIntervalExpiry
  /-- LINK_LOSS (R30). -/
  | linkLoss (st : StationId)
  /-- REPORT_FRAME (R29): the bytes that arrive at the drive port of a station. -/
  | reportFrame (st : StationId) (frame : Frame)
  /-- BRAKE_TIMEOUT (R72). -/
  | brakeTimeout (st : StationId) (ax : AxisId)
  /-- TRACKING_FAULT (R80). -/
  | trackingFault (st : StationId) (ax : AxisId)
  /-- HOLD_IDLE_EXPIRY (R76). -/
  | holdIdleExpiry (st : StationId) (ax : AxisId)
  /-- STROBE_TIMEOUT (R110). -/
  | strobeTimeout (t : TableId)
  /-- SETTLE_TIMEOUT (R119). -/
  | settleTimeout (st : StationId)
  /-- PASS_BOUNDARY (R127). -/
  | passBoundary
  /-- QUIET_RATE_ENTRY (R142). -/
  | quietRateEntry
  /-- STAGE_MISSES (R131). -/
  | stageMisses (g : StageId)
  /-- BASELINE_STEP (R136). -/
  | baselineStep (g : StageId)
  /-- FORCED_RECALIBRATION (R137). -/
  | forcedRecalibration (g : StageId)
  /-- SAMPLE_REPLY (R129): the bytes that arrive at the sensor port. -/
  | sampleReply (frame : Frame)
  /-- BLIND_TIMER_EXPIRY (R148). -/
  | blindTimerExpiry (z : ZoneId)
  /-- STOW_DEADLINE_EXPIRY (R154). -/
  | stowDeadlineExpiry (z : ZoneId)
  /-- RETURN_HOLD_EXPIRY (R157). -/
  | returnHoldExpiry (z : ZoneId)
  /-- PROBE_WINDOW_EXPIRY (R172). -/
  | probeWindowExpiry (st : StationId) (area : Area)
  /-- ENERGIZE_WINDOW_EXPIRY (R174). -/
  | energizeWindowExpiry (st : StationId) (area : Area)
  /-- OVERLOAD_EXPIRY (R175). -/
  | overloadExpiry (st : StationId) (area : Area)
  /-- OPEN_ELEMENT_EXPIRY (R175). -/
  | openElementExpiry (st : StationId) (area : Area)
  /-- COOLDOWN_EXPIRY (R177). -/
  | cooldownExpiry (st : StationId) (area : Area)
  /-- MELT_OFF_EXPIRY (R169). -/
  | meltOffExpiry (st : StationId) (area : Area)
  /-- ON_RUN_EXPIRY (R181): the REFLECTOR zone of the station. -/
  | onRunExpiry (st : StationId)
  /-- PANEL_POLL (R191). -/
  | panelPoll
  /-- PANEL_SLOT_END (R193). -/
  | panelSlotEnd
  /-- PANEL_LOST (R193). -/
  | panelLost (st : StationId)
  /-- PANEL_NONE (R192): the bytes that arrive on the panel line. -/
  | panelNone (frame : Frame)
  /-- PANEL_LOCK (R192). -/
  | panelLock (frame : Frame)
  /-- PANEL_RELEASE (R192). -/
  | panelRelease (frame : Frame)
  /-- RETIRE_CONFIRM (R194). -/
  | retireConfirm (frame : Frame)
  /-- UNLISTED_PANEL_ANSWER (R197). -/
  | unlistedPanelAnswer (frame : Frame)
  deriving DecidableEq, Repr

end Sys2Proof
end

