-- ==== Sys2Proof/Machine/Memory.lean ====
section
/-! DEFINITION. The exchange memory: 256 KiB of bytes (spec/01_exchange_memory_and_requests.md) as a
list of cells in one canonical form, its byte order (R197: little-endian), and the places of the
areas in it. -/

namespace Sys2Proof.Machine

/-- Exchange memory: address and byte of every byte that does not read as 0. -/
abbrev Mem := List Host.Cell

/-- The size of exchange memory, 256 KiB. -/
def Memory.size : Nat := 262144

/-- What a byte that nothing has written reads as: 0 (DESIGN CHOICE, unsafe; notes/assumptions/2.md:
"After power-on its contents are undefined"). -/
def Memory.unwritten : Byte := 0

/-- The byte at an address. -/
def Memory.read : Mem → Nat → Byte
  | [], _ => Memory.unwritten
  | (k, v) :: rest, a => if k = a then v else Memory.read rest a

/-- The cells that a run of bytes from `base` needs: those that do not read as unwritten memory. -/
def Memory.cells : Nat → List Byte → Mem
  | _, [] => []
  | base, x :: xs =>
    if x = Memory.unwritten then Memory.cells (base + 1) xs
    else (base, x) :: Memory.cells (base + 1) xs

/-- Exchange memory with the given bytes at `base` and after it. -/
def Memory.store (m : Mem) (base : Nat) (bytes : List Byte) : Mem :=
  m.filter (fun c => decide (c.1 < base)) ++ Memory.cells base bytes ++
    m.filter (fun c => decide (base + bytes.length ≤ c.1))

/-- The canonical form: addresses inside exchange memory and strictly rising, and no cell equal to
what an unlisted address reads as. -/
abbrev Memory.wf (m : Mem) : Prop :=
  m.Pairwise (fun c d => c.1 < d.1) ∧
    ∀ c ∈ m, c.1 < Memory.size ∧ c.2 ≠ Memory.unwritten

/-- The `n` bytes from an address on. -/
def Memory.bytes (m : Mem) (a : Nat) : Nat → List Byte
  | 0 => []
  | n + 1 => Memory.read m a :: Memory.bytes m (a + 1) n

/-- The number that bytes spell, the least significant first (R197). -/
def Bytes.toNat : List Byte → Nat
  | [] => 0
  | b :: rest => b.toNat + 256 * Bytes.toNat rest

/-- The `n` bytes that spell a number modulo 256^n, the least significant first (R197). -/
def Bytes.ofNat : Nat → Nat → List Byte
  | 0, _ => []
  | n + 1, x => BitVec.ofNat 8 x :: Bytes.ofNat n (x / 256)

/-- A number of `n` bytes read as two's complement. -/
def Bytes.signed (n x : Nat) : Int :=
  if x < 2 ^ (8 * n - 1) then (x : Int) else (x : Int) - (2 ^ (8 * n) : Nat)

/-- The `n` bytes of a number in two's complement, cut to `n` bytes. -/
def Bytes.ofInt (n : Nat) (x : Int) : List Byte :=
  Bytes.ofNat n (x.emod ((256 ^ n : Nat) : Int)).toNat

/-- The unsigned number in the `n` bytes at an address. -/
def Memory.nat (m : Mem) (a n : Nat) : Nat := Bytes.toNat (Memory.bytes m a n)

/-- The signed number in the `n` bytes at an address. -/
def Memory.int (m : Mem) (a n : Nat) : Int := Bytes.signed n (Memory.nat m a n)

/-- Book x of station Sn (R197). -/
def Layout.book (st : StationId) (l : Letter) : Nat :=
  2048 * (2 * st.val + (match l with | .a => 0 | .b => 1))

/-- Point slot i of a book (R197). -/
def Layout.point (st : StationId) (l : Letter) (i : Nat) : Nat := Layout.book st l + 16 * i

/-- Request page n. -/
def Layout.page (p : PageId) : Nat := 0x10000 + 256 * p.val

/-- Entry j of a sweep table (R197). -/
def Layout.sweepEntry (t : TableId) (j : Nat) : Nat := 0x12000 + 0x400 * t.val + 32 * j

/-- Stage record i of the sensing stage list (R197). -/
def Layout.stage (i : Nat) : Nat := 0x12800 + 32 * i

/-- The status block of a station (R197). -/
def Layout.stationStatus (n : Nat) : Nat := 0x13000 + 512 * n

/-- The first tally, and the length of the tally area (R197). -/
def Layout.tallies : Nat := 0x15400

/-- See `Layout.tallies`. -/
def Layout.tallyArea : Nat := 0x400

/-- The status of stage Gi (R197). -/
def Layout.stageStatus (i : Nat) : Nat := 0x15800 + 64 * i

end Sys2Proof.Machine
end

