-- ==== Sys2Proof/Machine/Records.lean ====
section
/-! DEFINITION. The records that the ten blocks own (spec/00_scope.md, "Block overview"), as plain
data, each with the value a full reset gives it. Angles, rates and errors are whole numbers in µdeg,
µdeg/s; powers are in W; array times and lengths of time are in ms. -/

namespace Sys2Proof.Machine

/-! ### TE: axes, claim, target (R48, R68) -/

/-- The axis states, in the order of R68. -/
inductive AxisState where
  | retired
  | braked
  | awaitingPower
  | releasing
  | slewing
  | catchingUp
  | tracking
  | holding
  | stowing
  | stowed
  | faulted
  deriving DecidableEq, Repr

/-- The reasons of FAULTED, in the order of R68. -/
inductive AxisFault where
  | tracking
  | link
  | amplifier
  | limitSwitch
  | brake
  | outside
  deriving DecidableEq, Repr

/-- SLEW, TRACK or NONE: a need (R77), a level wanted and a granted level (R78). -/
inductive Level where
  | slew
  | track
  | none
  deriving DecidableEq, Repr

/-- The target sources (R48). -/
inductive Source where
  | book
  | stow
  | sweep
  | shed
  | none
  deriving DecidableEq, Repr

/-- The axis record of R68 with the results of the latest computation (R62). -/
structure Axis where
  state : AxisState
  reason : Option AxisFault
  c : Int
  s : Int
  hold : Option Int
  errorRun : Nat
  releaseCount : Option Nat
  releaseSeen : Option Bool
  /-- MODEL: the source at the moment of the latest release report, kept while RELEASING (R75). -/
  releaseSource : Option Source
  holdIdle : Timer
  need : Level
  rate : Int
  limitedDemand : Option Int
  error : Option Int
  onSource : Option Bool
  limited : Bool
  windFloor : Bool
  /-- MODEL: whether the latest expiry computed the axis (R118). -/
  computed : Bool
  deriving DecidableEq, Repr

/-- R67, R85. -/
def Axis.reset (retired : Bool) : Axis :=
  { state := if retired then .retired else .braked, reason := none, c := 0, s := 0, hold := none,
    errorRun := 0, releaseCount := none, releaseSeen := none, releaseSource := none, holdIdle := none,
    need := .none, rate := 0, limitedDemand := none, error := none, onSource := none, limited := false,
    windFloor := false, computed := false }

/-- The classes of claims, in rank order (R91). -/
inductive ClaimClass where
  | stow
  | move
  | heat
  deriving DecidableEq, Repr

/-- The claim record of R68. -/
structure ClaimRecord where
  cls : ClaimClass
  level : Level
  wanted : Nat
  track : Nat
  granted : Nat
  grantedLevel : Level
  deriving DecidableEq, Repr

/-- R85: "Each station's claim is withdrawn, with granted watts 0 and granted level NONE". -/
def ClaimRecord.reset (cls : ClaimClass) : ClaimRecord :=
  { cls := cls, level := .none, wanted := 0, track := 0, granted := 0, grantedLevel := .none }

/-- The target record of R48; a target is an AZ and an EL position. -/
structure Target where
  source : Source
  row : Nat
  stow : Option (Int × Int)
  shed : Option (Int × Int)
  deriving DecidableEq, Repr

/-! ### TE: books (R32, R46) -/

/-- The book states, in the order of R32. -/
inductive BookState where
  | idle
  | pending
  | running
  | spent
  | faulted
  deriving DecidableEq, Repr

/-- The armed values of R32. -/
structure Armed where
  number : Nat
  count : Nat
  first : Nat
  last : Nat
  deriving DecidableEq, Repr

/-- The reasons for which a book fails a check, in the order of R34 and R41. -/
inductive BookReason where
  | count
  | number
  | spacing
  | azRange
  | elRange
  | anchor
  | order
  deriving DecidableEq, Repr

/-- A fault place: a point index, or HEADER (R32). -/
inductive Place where
  | header
  | point (i : Nat)
  deriving DecidableEq, Repr

/-- The book record of R32. The cursor is a point index and a time. -/
structure Book where
  state : BookState
  armed : Option Armed
  cursor : Option (Nat × Nat)
  fault : Option (Place × BookReason)
  deriving DecidableEq, Repr

/-- R47. -/
def Book.reset : Book := { state := .idle, armed := none, cursor := none, fault := none }

/-- The validation record of R33 with what R34 keeps between completion events: the header as read at
the take, the time of point 0, the time of the last point checked, and the timer of the next event. -/
structure Validation where
  letter : Letter
  number : Nat
  checked : Nat
  headerNumber : Nat
  headerCount : Nat
  first : Nat
  previous : Nat
  timer : Timer
  deriving DecidableEq, Repr

/-- The book events of R46. -/
inductive BookEventKind where
  | superseded
  | started
  | spent
  | faulted
  deriving DecidableEq, Repr

/-- The last event of R46. -/
structure BookEvent where
  kind : BookEventKind
  letter : Letter
  time : Nat
  deriving DecidableEq, Repr

/-! ### DL (R25 to R31) -/

/-- The contents of a good report (R29). -/
structure Report where
  azEncoder : Int
  elEncoder : Int
  azReady : Bool
  elReady : Bool
  azReleased : Bool
  elReleased : Bool
  azCcw : Bool
  azCw : Bool
  elLow : Bool
  elHigh : Bool
  reflectorCurrent : Nat
  feedCurrent : Nat
  probe : Option (Area × Nat)
  deriving DecidableEq, Repr

/-- What DL holds for a station. -/
structure Link where
  up : Bool
  seq : Option (BitVec 8)
  answered : Bool
  missed : Nat
  report : Option Report
  deriving DecidableEq, Repr

/-- R31. -/
def Link.reset : Link :=
  { up := false, seq := none, answered := false, missed := 0, report := none }

/-! ### HC (R163) -/

/-- The modes of a heater zone. -/
inductive HeatMode where
  | off
  | manual
  | auto
  deriving DecidableEq, Repr

/-- The states of a heater zone, in the order of R163. -/
inductive HeatState where
  | off
  | idle
  | probing
  | ready
  | waitingPower
  | energizing
  | on
  | shed
  | cooldown
  | latched
  deriving DecidableEq, Repr

/-- The element classes of R171. -/
inductive HeatClass where
  | a
  | b
  | c
  deriving DecidableEq, Repr

/-- The verdicts on a resistance (R163, R171). -/
inductive Verdict where
  | good (cls : HeatClass)
  | short
  | open
  | invalid
  deriving DecidableEq, Repr

/-- The reasons of a heater fault, in the order of R176. -/
inductive HeatFault where
  | short
  | open
  | invalid
  | noResult
  | startFault
  | currentLimit
  | overload
  | openElement
  deriving DecidableEq, Repr

/-- The zone record of R163. A standing probe request is an entry of the station's `probeQueue`. -/
structure Heater where
  mode : HeatMode
  state : HeatState
  cls : Option HeatClass
  lastProbe : Option (Nat × Verdict)
  probeNamed : Bool
  faultCount : Nat
  lastFault : Option (HeatFault × Nat)
  manual : Bool
  auto : Bool
  sensorMissing : Bool
  current : Nat
  probeWindow : Timer
  energize : Timer
  overload : Timer
  openElement : Timer
  cooldown : Timer
  meltOff : Timer
  onRun : Timer
  /-- Whether the ON-run timer has run out since the zone last entered ON (R181, condition 1). -/
  onRunOut : Bool
  tiltUsed : Bool
  deriving DecidableEq, Repr

/-- R182. -/
def Heater.reset : Heater :=
  { mode := .off, state := .off, cls := none, lastProbe := none, probeNamed := false,
    faultCount := 0, lastFault := none, manual := false, auto := false, sensorMissing := false,
    current := 0, probeWindow := none, energize := none, overload := none, openElement := none,
    cooldown := none, meltOff := none, onRun := none, onRunOut := false, tiltUsed := false }

/-- The last heat event of R163: `value` is the resistance or the current concerned. -/
structure HeatEvent where
  reason : HeatFault
  area : Area
  value : Nat
  time : Nat
  deriving DecidableEq, Repr

/-! ### LU (R183, R191, R194) -/

/-- The kinds of tags (R183). -/
inductive TagKind where
  | personnel
  | electrical
  | ret
  | site
  deriving DecidableEq, Repr

/-- The scopes of tags (R183). -/
inductive Scope where
  | motion
  | heat
  | both
  | service
  deriving DecidableEq, Repr

/-- The parties of tags and lockout events (R183). -/
inductive Party where
  | panel
  | request
  | part
  deriving DecidableEq, Repr

/-- A tag of R183. -/
structure Tag where
  id : Nat
  kind : TagKind
  scope : Scope
  party : Party
  time : Nat
  deriving DecidableEq, Repr

/-- The kinds of lockout events (R183). -/
inductive LockoutKind where
  | placed
  | removed
  | fuseWritten
  deriving DecidableEq, Repr

/-- The last lockout event of R183: `what` is the tag ID or the fuse word concerned. -/
structure LockoutEvent where
  kind : LockoutKind
  what : Nat
  party : Party
  time : Nat
  deriving DecidableEq, Repr

/-- The acknowledgements of a panel answer, in the order of their codes (R192, R197). -/
inductive Ack where
  | accepted
  | retired
  | value
  | duplicate
  | full
  | notPermitted
  | absent
  | written
  deriving DecidableEq, Repr

/-- The panel record of R191. -/
structure Panel where
  lost : Bool
  unanswered : Nat
  ack : Option Ack
  deriving DecidableEq, Repr

/-- R196. -/
def Panel.reset : Panel := { lost := true, unanswered := 0, ack := none }

/-! ### JS (R105, R113) -/

/-- The sweep actions (R197). -/
inductive Action where
  | engageA
  | engageB
  | goto
  | hold
  | release
  deriving DecidableEq, Repr

/-- An entry of a snapshot; the settle limit is in seconds. -/
structure SweepEntry where
  offset : Nat
  stations : BitVec 16
  action : Action
  az : Int
  el : Int
  settle : Bool
  limit : Nat
  deriving DecidableEq, Repr

/-- The table states of R105. -/
inductive TableState where
  | idle
  | armed
  | running
  | settling
  | done
  | cancelled
  | expired
  deriving DecidableEq, Repr

/-- The start sources of R105. -/
inductive StartSource where
  | atTime
  | nextPulse
  | strobe
  deriving DecidableEq, Repr

/-- The end kinds of R105. -/
inductive EndKind where
  | done
  | cancelled
  | expired
  deriving DecidableEq, Repr

/-- The start of a table as launched: source, start time and strobe timeout in seconds (R108). -/
structure Launch where
  source : StartSource
  time : Nat
  timeout : Nat
  deriving DecidableEq, Repr

/-- The table record of R105. -/
structure SweepTable where
  state : TableState
  snapshot : Option (List SweepEntry)
  launch : Option Launch
  strobe : Timer
  startDue : Bool
  late : Bool
  sweepStart : Option Nat
  next : Nat
  issues : Nat
  skips : Nat
  abandons : Nat
  timeouts : Nat
  ended : Option (EndKind × Nat)
  deriving DecidableEq, Repr

/-- R105. -/
def SweepTable.reset : SweepTable :=
  { state := .idle, snapshot := none, launch := none, strobe := none, startDue := false,
    late := false, sweepStart := none, next := 0, issues := 0, skips := 0, abandons := 0,
    timeouts := 0, ended := none }

/-- The record states of R113. -/
inductive RecordState where
  | notNamed
  | waiting
  | moving
  | settled
  | skipped
  | abandoned
  deriving DecidableEq, Repr

/-- The reasons of SKIPPED and ABANDONED (R113). -/
inductive SweepReason where
  | retired
  | locked
  | wind
  | fault
  | book
  | noTarget
  deriving DecidableEq, Repr

/-- The progress record of R113. -/
structure Progress where
  table : Option TableId
  state : RecordState
  reason : Option SweepReason
  entry : Nat
  action : Option Action
  settle : Bool
  timer : Timer
  mark : Bool
  deriving DecidableEq, Repr

/-- R105, and R112 for a run of the given table. A NOT_NAMED record shows no entry: entry 0, no action and
a clear settle flag, and at a full reset no table (DESIGN CHOICE; notes/assumptions/45.md). -/
def Progress.reset (t : Option TableId) : Progress :=
  { table := t, state := .notNamed, reason := none, entry := 0, action := none, settle := false,
    timer := none, mark := false }

/-- A sweep hold of R105: the table and the fixed target. -/
structure SweepHold where
  table : TableId
  az : Int
  el : Int
  deriving DecidableEq, Repr

/-! ### Station configuration (R84) -/

/-- The configuration of one axis. -/
structure AxisConfig where
  lmin : Int
  lmax : Int
  vmax : Nat
  amax : Nat
  errorLimit : Nat
  window : Nat
  slewWatts : Nat
  trackWatts : Nat
  deriving DecidableEq, Repr

/-- The configuration of a station; the hold-idle time is in seconds. -/
structure StationConfig where
  zone : ZoneId
  az : AxisConfig
  el : AxisConfig
  stowEl : Int
  shedEl : Int
  holdIdle : Nat
  snow : Option Nat
  surface : Option Nat
  precip : Option Nat
  deriving DecidableEq, Repr

/-- The defaults of R85. -/
def StationConfig.reset : StationConfig :=
  { zone := 0,
    az := { lmin := -270000000, lmax := 270000000, vmax := 2000000, amax := 500000,
            errorLimit := 20000, window := 300, slewWatts := 3500, trackWatts := 400 },
    el := { lmin := 2000000, lmax := 90000000, vmax := 1000000, amax := 500000,
            errorLimit := 20000, window := 300, slewWatts := 2500, trackWatts := 400 },
    stowEl := 90000000, shedEl := 20000000, holdIdle := 60, snow := none, surface := none,
    precip := none }

/-! ### A station: what the blocks hold for it -/

/-- Everything the part holds for one station. -/
structure Station where
  cfg : StationConfig
  link : Link
  /-- The latest demand frame sent on the station's port; none sent yet is the empty list. -/
  demand : Frame
  bookA : Book
  bookB : Book
  validation : Option Validation
  lastBook : Option BookEvent
  target : Target
  claim : ClaimRecord
  az : Axis
  el : Axis
  reflector : Heater
  feed : Heater
  /-- The zones whose probe requests stand, in the order in which HC made them (R27). -/
  probeQueue : List Area
  shedOrder : Bool
  lastHeat : Option HeatEvent
  tags : List Tag
  sitePending : Bool
  lastLockout : Option LockoutEvent
  panel : Panel
  fuse1 : Bool
  fuse2 : Bool
  retired : Bool
  hold : Option SweepHold
  progress : Progress
  deriving DecidableEq, Repr

/-- The RETURN tag and the SITE tag that the part places (R184). -/
def Tag.returnTag (time : Nat) : Tag :=
  { id := 65534, kind := .ret, scope := .service, party := .part, time := time }

/-- See `Tag.returnTag`. -/
def Tag.siteTag (time : Nat) : Tag :=
  { id := 65535, kind := .site, scope := .both, party := .part, time := time }

/-- The tag list at the end of a full reset (R196). -/
def Station.resetTags (retired siteStop : Bool) : List Tag :=
  if retired then []
  else if siteStop then [Tag.returnTag 0, Tag.siteTag 0]
  else [Tag.returnTag 0]

/-- The target record at the end of a full reset (R48). -/
def Station.resetTarget (retired siteStow siteStop : Bool) : Target :=
  if retired || siteStop then { source := .none, row := 1, stow := none, shed := none }
  else if siteStow then
    { source := .stow, row := 2, stow := some (0, StationConfig.reset.stowEl), shed := none }
  else { source := .none, row := 3, stow := none, shed := none }

/-- A station at the end of a full reset: its fuse words stand (R194) and decide whether it is
retired (R195); the levels of SITE_STOW and SITE_STOP decide its tags and its source (R48, R196). -/
def Station.afterReset (fuse1 fuse2 siteStow siteStop : Bool) : Station :=
  let retired := fuse1 && fuse2
  let target := Station.resetTarget retired siteStow siteStop
  { cfg := StationConfig.reset, link := Link.reset, demand := [], bookA := Book.reset,
    bookB := Book.reset, validation := none, lastBook := none, target := target,
    claim := ClaimRecord.reset (if target.source = .stow then .stow else .move),
    az := Axis.reset retired, el := Axis.reset retired, reflector := Heater.reset,
    feed := Heater.reset, probeQueue := [], shedOrder := false, lastHeat := none,
    tags := Station.resetTags retired siteStop, sitePending := false, lastLockout := none,
    panel := Panel.reset, fuse1 := fuse1, fuse2 := fuse2, retired := retired, hold := none,
    progress := Progress.reset none }

/-! ### WP (R144) -/

/-- The zone states, in the order of R144. -/
inductive ZoneState where
  | unwatched
  | calm
  | watch
  | stowing
  | stowed
  | returnHold
  deriving DecidableEq, Repr

/-- The configuration of a wind zone; the return hold, the deadline and the blind timeout are in
seconds. -/
structure ZoneConfig where
  stages : List Nat
  watch : Nat
  stow : Nat
  release : Nat
  gustStow : Nat
  returnHold : Nat
  deadline : Nat
  blindTimeout : Nat
  floor : Int
  deriving DecidableEq, Repr

/-- The defaults of R144. -/
def ZoneConfig.reset : ZoneConfig :=
  { stages := [], watch := 120, stow := 180, release := 100, gustStow := 100, returnHold := 1200,
    deadline := 180, blindTimeout := 10, floor := 30000000 }

/-- The stow causes of R149. -/
structure Causes where
  speed : Bool
  gustStow : Bool
  blind : Bool
  site : Bool
  order : Bool
  deriving DecidableEq, Repr

/-- The empty set of causes. -/
def Causes.none : Causes :=
  { speed := false, gustStow := false, blind := false, site := false, order := false }

/-- Whether a cause is present. -/
def Causes.any (c : Causes) : Bool := c.speed || c.gustStow || c.blind || c.site || c.order

/-- The reasons of the exposed set (R144). -/
inductive ExposeReason where
  | locked
  | fault
  | deadline
  deriving DecidableEq, Repr

/-- The last zone event (R144, R161): a change of state, or a deadline run-out, which changes none. -/
structure ZoneEvent where
  deadline : Bool
  left : ZoneState
  entered : ZoneState
  causes : Causes
  time : Nat
  deriving DecidableEq, Repr

/-- The zone record of R144. The member set is kept in order of station number. -/
structure Zone where
  cfg : ZoneConfig
  state : ZoneState
  speed : Option Int
  gust : Bool
  gustStow : Bool
  blind : Bool
  causes : Causes
  order : Bool
  blindTimer : Timer
  holdTimer : Timer
  deadline : Timer
  members : List StationId
  exposed : List (StationId × ExposeReason)
  last : Option ZoneEvent
  deriving DecidableEq, Repr

/-- R145, R162: a zone at the end of a full reset, with the given members. -/
def Zone.afterReset (members : List StationId) (siteStow : Bool) : Zone :=
  { cfg := ZoneConfig.reset, state := if siteStow then .stowing else .unwatched, speed := none,
    gust := false, gustStow := false, blind := false, causes := Causes.none, order := false,
    blindTimer := none, holdTimer := none,
    deadline := if siteStow then some (1000 * ZoneConfig.reset.deadline) else none,
    members := members, exposed := [], last := none }

/-! ### WS (R125) -/

/-- The kinds of stages (R125, R197). -/
inductive StageKind where
  | windSpeed
  | snowLoad
  | surfaceTemp
  | airTemp
  | precip
  deriving DecidableEq, Repr

/-- The configuration of a stage. -/
structure StageConfig where
  channel : Nat
  kind : StageKind
  kf : Nat
  ks : Nat
  skip : Nat
  freezeLimit : Nat
  hysteresis : Nat
  high : Option Int
  low : Option Int
  gust : Option Int
  deriving DecidableEq, Repr

/-- The states of a stage. -/
inductive StageState where
  | unseeded
  | live
  | fault
  deriving DecidableEq, Repr

/-- The reasons of a stage's FAULT. -/
inductive StageFault where
  | misses
  | faultCode
  deriving DecidableEq, Repr

/-- The stage record of R125. -/
structure Stage where
  cfg : StageConfig
  state : StageState
  f : Option Int
  b : Option Int
  x : Option Int
  high : Bool
  low : Bool
  gust : Bool
  answered : Bool
  missed : Nat
  skip : Nat
  freeze : Nat
  /-- How many good samples of a FAULT stage have come in a row; present in FAULT alone (R125). -/
  reseed : Option Nat
  reason : Option StageFault
  deriving DecidableEq, Repr

/-- A new stage of a loaded list (R141). -/
def Stage.fresh (cfg : StageConfig) : Stage :=
  { cfg := cfg, state := .unseeded, f := none, b := none, x := none, high := false, low := false,
    gust := false, answered := false, missed := 0, skip := 0, freeze := 0, reseed := none,
    reason := none }

/-- The pass rates. -/
inductive PassRate where
  | full
  | quiet
  deriving DecidableEq, Repr

/-- The kinds of the last sensing event (R132, R137). -/
inductive SensingKind where
  | misses
  | faultCode
  | recalibration
  deriving DecidableEq, Repr

/-- The last sensing event of R125. -/
structure SensingEvent where
  kind : SensingKind
  stage : Nat
  time : Nat
  deriving DecidableEq, Repr

/-- What WS holds (R125). The pending configuration is a count and the mark of a clamped count. -/
structure Sensing where
  stages : List Stage
  rate : PassRate
  quietCount : Nat
  pass : BitVec 8
  timer : Nat
  pendingCount : Option (Nat × Bool)
  last : Option SensingEvent
  /-- The sample requests sent at the latest pass start, in list order (R128). -/
  requests : List Frame
  deriving DecidableEq, Repr

/-- R126. -/
def Sensing.reset : Sensing :=
  { stages := [], rate := .full, quietCount := 0, pass := 0, timer := Config.fullPass,
    pendingCount := none, last := none, requests := [] }

/-! ### PB (R86) -/

/-- The 48 claimants. -/
inductive Claimant where
  | station (st : StationId)
  | heater (st : StationId) (area : Area)
  deriving DecidableEq, Repr

/-- A grant entry of R90. -/
structure Grant where
  claimant : Claimant
  cls : ClaimClass
  watts : Nat
  deriving DecidableEq, Repr

/-- A waiting entry of R91. -/
structure Waiting where
  claimant : Claimant
  cls : ClaimClass
  addition : Nat
  deriving DecidableEq, Repr

/-- The kinds of power events (R101). -/
inductive PowerKind where
  | shedForStow
  | shedForBudget
  | slewPart
  | wholeMove
  | wholeStow
  deriving DecidableEq, Repr

/-- The last power event of R101. -/
structure PowerEvent where
  kind : PowerKind
  claimant : Claimant
  watts : Nat
  time : Nat
  deriving DecidableEq, Repr

/-- A drive claim as PB last took it (R89). -/
structure DriveClaim where
  cls : ClaimClass
  wanted : Nat
  track : Nat
  deriving DecidableEq, Repr

/-- No claim. -/
def DriveClaim.none : DriveClaim := { cls := .move, wanted := 0, track := 0 }

/-- What PB holds (R86), with the drive claims it last took (R92: "The new track figure is recorded
with the claim"). The granted total and the budget in force are `Power.total` and `Power.inForce`. -/
structure Power where
  normal : Nat
  emergency : Nat
  alarm : Bool
  grants : List Grant
  waiting : List Waiting
  last : Option PowerEvent
  claims : Vector DriveClaim 16
  deriving DecidableEq, Repr

/-- R86. -/
def Power.afterReset (feederAlarm : Bool) : Power :=
  { normal := 40000, emergency := 12000, alarm := feederAlarm, grants := [], waiting := [],
    last := none, claims := Vector.replicate 16 DriveClaim.none }

/-- A change that reaches PB, or the judgement of R71 when an axis enters AWAITING_POWER: the work
that one event leaves to be settled (R100). -/
inductive Work where
  | drive (st : StationId) (claim : DriveClaim)
  | heat (st : StationId) (area : Area) (watts : Nat)
  | heatWithdraw (st : StationId) (area : Area)
  | budget
  | awaiting (st : StationId)
  deriving DecidableEq, Repr

/-! ### TU (R17) -/

/-- The time states. -/
inductive TimeState where
  | unset
  | free
  | locked
  deriving DecidableEq, Repr

/-- What TU holds. The time of the previous taken pulse is held as the milliseconds counted since
it (R22), and `shown` is array time as the time status shows it (R17). -/
structure TimeUnit where
  time : Nat
  state : TimeState
  pendingSet : Option Nat
  sincePulse : Option Nat
  watch : Timer
  lastSnap : Option Int
  drive : Nat
  shown : Nat
  deriving DecidableEq, Repr

/-- R17, R25. -/
def TimeUnit.reset : TimeUnit :=
  { time := 0, state := .unset, pendingSet := none, sincePulse := none, watch := none,
    lastSnap := none, drive := Config.driveInterval, shown := 0 }

/-- Array time is 48 bits wide (R17). -/
def TimeUnit.wrap : Nat := 2 ^ 48

/-! ### XI -/

/-- The two requests that stay in flight after their take (R9). -/
inductive Deferred where
  | armBook (st : StationId)
  | configureSensing
  deriving DecidableEq, Repr

/-- The request in flight. -/
structure InFlight where
  page : PageId
  request : Deferred
  deriving DecidableEq, Repr

/-- What XI holds. `readData` is what the latest SUMMARY_READ returned. -/
structure Exchange where
  queue : List PageId
  inFlight : Option InFlight
  summary : BitVec 12
  mask : BitVec 12
  intEnable : Bool
  readData : BitVec 32
  deriving DecidableEq, Repr

/-- R16. -/
def Exchange.reset : Exchange :=
  { queue := [], inFlight := none, summary := 0, mask := 0, intEnable := false, readData := 0 }

/-- The summary classes, in the order of their bits (R197). -/
inductive SummaryClass where
  | answer
  | exchange
  | time
  | axis
  | link
  | book
  | power
  | sweep
  | weather
  | wind
  | heat
  | lockout
  deriving DecidableEq, Repr

/-- The tallies. -/
inductive Tally where
  | answers
  | strayPosts
  | timeSteps
  | pulseLosses
  | sheds
  | revocations
  | sweepEnds
  | recalibrations
  | stageFaults
  | zoneChanges (z : ZoneId)
  | exposures (z : ZoneId)
  | axisFaults (st : StationId)
  | linkLosses (st : StationId)
  | bookEvents (st : StationId)
  | heatFaults (st : StationId)
  | tagChanges (st : StationId)
  | panelLosses (st : StationId)
  deriving DecidableEq, Repr

/-! ### Lines and the panel line -/

/-- The levels of the site input lines that have a level (spec/00_scope.md, "Site lines"). The level
of FEEDER_ALARM is `Power.alarm`. -/
structure Lines where
  siteStow : Bool
  siteStop : Bool
  deriving DecidableEq, Repr

/-- The panel line (R191): the slot, whether it is still open, whether a good answer arrived in it,
the quarters of a millisecond counted since it began, and the latest poll sent. -/
structure PanelLine where
  slot : StationId
  isOpen : Bool
  answered : Bool
  elapsed : Nat
  poll : Frame
  deriving DecidableEq, Repr

end Sys2Proof.Machine
end

