-- ==== Sys2Proof/Machine/Operands.lean ====
section
/-! DEFINITION. How the part reads what comes from outside: the codes of enumerated fields (R197), the
clamping of configuration numbers (R7), the frames of the ports and their check words (R197, R198). -/

namespace Sys2Proof.Machine

/-! ### Codes (R197) -/

/-- The modes of SET_TIME. -/
inductive TimeMode where
  | immediate
  | atPulse
  deriving DecidableEq, Repr

/-- R197, time mode. -/
def Code.timeMode (x : Nat) : Option TimeMode :=
  match x with
  | 0 => some .immediate
  | 1 => some .atPulse
  | _ => none

/-- R197, book letter. -/
def Code.letter (x : Nat) : Option Letter :=
  match x with
  | 0 => some .a
  | 1 => some .b
  | _ => none

/-- R197, axis. -/
def Code.axis (x : Nat) : Option AxisId :=
  match x with
  | 0 => some .az
  | 1 => some .el
  | _ => none

/-- R197, start source. -/
def Code.startSource (x : Nat) : Option StartSource :=
  match x with
  | 0 => some .atTime
  | 1 => some .nextPulse
  | 2 => some .strobe
  | _ => none

/-- R197, sweep action. -/
def Code.action (x : Nat) : Option Action :=
  match x with
  | 1 => some .engageA
  | 2 => some .engageB
  | 3 => some .goto
  | 4 => some .hold
  | 5 => some .release
  | _ => none

/-- R197, stage kind. -/
def Code.stageKind (x : Nat) : Option StageKind :=
  match x with
  | 1 => some .windSpeed
  | 2 => some .snowLoad
  | 3 => some .surfaceTemp
  | 4 => some .airTemp
  | 5 => some .precip
  | _ => none

/-- The code of a stage kind (R197), as a sample request carries it. -/
def Code.ofStageKind : StageKind → Nat
  | .windSpeed => 1
  | .snowLoad => 2
  | .surfaceTemp => 3
  | .airTemp => 4
  | .precip => 5

/-- R197, heat mode. -/
def Code.heatMode (x : Nat) : Option HeatMode :=
  match x with
  | 0 => some .off
  | 1 => some .manual
  | 2 => some .auto
  | _ => none

/-- R197, tag kind. -/
def Code.tagKind (x : Nat) : Option TagKind :=
  match x with
  | 1 => some .personnel
  | 2 => some .electrical
  | 3 => some .ret
  | 4 => some .site
  | _ => none

/-- R197, tag scope. -/
def Code.scope (x : Nat) : Option Scope :=
  match x with
  | 1 => some .motion
  | 2 => some .heat
  | 3 => some .both
  | 4 => some .service
  | _ => none

/-- R197, the acknowledgement byte of a panel poll. -/
def Code.ofAck : Option Ack → Nat
  | none => 0
  | some .accepted => 1
  | some .retired => 2
  | some .value => 3
  | some .duplicate => 4
  | some .full => 5
  | some .notPermitted => 6
  | some .absent => 7
  | some .written => 8

/-- R197, result codes. -/
inductive Result where
  | done
  | doneClamped
  | unknownKind
  | badTarget
  | badValue
  | timeUnset
  | bookInvalid
  | bookStale
  | bookBusy
  | notNow
  | tagFull
  | tagDuplicate
  | notPermitted
  | tableInvalid
  | sweepBusy
  | fuseWritten
  | retired
  deriving DecidableEq, Repr

/-- R197, the code of a result. -/
def Code.ofResult : Result → Nat
  | .done => 0
  | .doneClamped => 1
  | .unknownKind => 2
  | .badTarget => 3
  | .badValue => 4
  | .timeUnset => 5
  | .bookInvalid => 6
  | .bookStale => 7
  | .bookBusy => 8
  | .notNow => 9
  | .tagFull => 10
  | .tagDuplicate => 11
  | .notPermitted => 12
  | .tableInvalid => 13
  | .sweepBusy => 14
  | .fuseWritten => 15
  | .retired => 16

/-- DONE, or DONE_CLAMPED where a number was clamped (R7). -/
def Result.ofClamped (clamped : Bool) : Result := if clamped then .doneClamped else .done

/-! ### Clamping (R7) -/

/-- A number brought to the nearer end of a closed range. -/
def clampNat (lo hi x : Nat) : Nat := if x < lo then lo else if hi < x then hi else x

/-- An angle or a rate brought to the nearer end of a closed range. -/
def clampInt (lo hi x : Int) : Int := if x < lo then lo else if hi < x then hi else x

/-- One axis of CONFIGURE_STATION with its numbers clamped to the ranges of R84, AZ or EL. Angles
and rates are signed (R197). -/
def RawAxis.config (ax : AxisId) (r : RawAxisConfig) : AxisConfig :=
  let lo : Int := match ax with | .az => -270000000 | .el => 0
  let hi : Int := match ax with | .az => 270000000 | .el => 92000000
  { lmin := clampInt lo hi r.lmin.toInt, lmax := clampInt lo hi r.lmax.toInt,
    vmax := (clampInt 0 3000000 r.vmax.toInt).toNat, amax := clampNat 0 2000000 r.amax.toNat,
    errorLimit := (clampInt 1000 1000000 r.errorLimit.toInt).toNat,
    window := (clampInt 0 100000 r.window.toInt).toNat,
    slewWatts := clampNat 0 20000 r.slewWatts.toNat,
    trackWatts := clampNat 0 20000 r.trackWatts.toNat }

/-- Whether a number of the axis lay outside its range. -/
def RawAxis.clamped (ax : AxisId) (r : RawAxisConfig) : Bool :=
  let c := RawAxis.config ax r
  c.lmin != r.lmin.toInt || c.lmax != r.lmax.toInt || (c.vmax : Int) != r.vmax.toInt ||
    c.amax != r.amax.toNat || (c.errorLimit : Int) != r.errorLimit.toInt ||
    (c.window : Int) != r.window.toInt || c.slewWatts != r.slewWatts.toNat ||
    c.trackWatts != r.trackWatts.toNat

/-- A stage reference: a stage number 0–15, or absent as 0xFF (R197). -/
def RawStation.stageRef (x : BitVec 8) : Option Nat := if x = 0xFF then none else some x.toNat

/-- Whether a stage reference names a stage number above 15 (R84, check 2; R197, note 2). -/
def RawStation.badRef (x : BitVec 8) : Bool := x != 0xFF && decide (15 < x.toNat)

/-- The configuration that CONFIGURE_STATION carries, clamped (R84, check 3). -/
def RawStation.config (r : RawStationConfig) : StationConfig :=
  { zone := Fin.ofNat 4 r.zone.toNat, az := RawAxis.config .az r.az, el := RawAxis.config .el r.el,
    stowEl := clampInt 0 92000000 r.stowEl.toInt, shedEl := clampInt 0 92000000 r.shedEl.toInt,
    holdIdle := clampNat 1 3600 r.holdIdle.toNat, snow := RawStation.stageRef r.snow,
    surface := RawStation.stageRef r.surface, precip := RawStation.stageRef r.precip }

/-- Whether a number of the request lay outside its range (R84). -/
def RawStation.clamped (r : RawStationConfig) : Bool :=
  let c := RawStation.config r
  RawAxis.clamped .az r.az || RawAxis.clamped .el r.el || c.stowEl != r.stowEl.toInt ||
    c.shedEl != r.shedEl.toInt || c.holdIdle != r.holdIdle.toNat

/-- Check 2 of R84. -/
def RawStation.badValue (r : RawStationConfig) : Bool :=
  decide (3 < r.zone.toNat) || RawStation.badRef r.snow || RawStation.badRef r.surface ||
    RawStation.badRef r.precip

/-- Check 4 of R84: an Lmin above its Lmax, or a track allocation above its slew allocation. -/
def StationConfig.inconsistent (c : StationConfig) : Bool :=
  decide (c.az.lmax < c.az.lmin) || decide (c.el.lmax < c.el.lmin) ||
    decide (c.az.slewWatts < c.az.trackWatts) || decide (c.el.slewWatts < c.el.trackWatts)

/-- The stage numbers that a CONFIGURE_ZONE lists: the first stage-count of its four (R197). -/
def RawZone.stages (r : RawZoneConfig) : List Nat :=
  [r.stage0.toNat, r.stage1.toNat, r.stage2.toNat, r.stage3.toNat].take r.count.toNat

/-- Check 1 of R146. -/
def RawZone.badValue (r : RawZoneConfig) : Bool :=
  decide (4 < r.count.toNat) || (RawZone.stages r).any (fun n => decide (15 < n))

/-- A list with each of its members kept once (R146), at its first place (DESIGN CHOICE;
notes/assumptions/52.md). -/
def keepOnce : List Nat → List Nat
  | [] => []
  | x :: xs => x :: (keepOnce xs).filter (fun y => y != x)

/-- The configuration that CONFIGURE_ZONE carries, clamped (R146, check 2). -/
def RawZone.config (r : RawZoneConfig) : ZoneConfig :=
  { stages := keepOnce (RawZone.stages r), watch := clampNat 0 32767 r.watch.toNat,
    stow := clampNat 0 32767 r.stow.toNat, release := clampNat 0 32767 r.release.toNat,
    gustStow := clampNat 1 32767 r.gustStow.toNat,
    returnHold := clampNat 60 7200 r.returnHold.toNat,
    deadline := clampNat 30 1800 r.deadline.toNat,
    blindTimeout := clampNat 1 600 r.blindTimeout.toNat,
    floor := clampInt 0 92000000 r.floor.toInt }

/-- Whether a number of the request lay outside its range (R146). -/
def RawZone.clamped (r : RawZoneConfig) : Bool :=
  let c := RawZone.config r
  c.watch != r.watch.toNat || c.stow != r.stow.toNat || c.release != r.release.toNat ||
    c.gustStow != r.gustStow.toNat || c.returnHold != r.returnHold.toNat ||
    c.deadline != r.deadline.toNat || c.blindTimeout != r.blindTimeout.toNat ||
    c.floor != r.floor.toInt

/-! ### Check words (R198) -/

/-- One of the eight shifts of R198. -/
def CheckWord.shift (r : BitVec 16) : BitVec 16 :=
  if r.msb then (r <<< 1) ^^^ 0x1021 else r <<< 1

/-- One byte of R198. -/
def CheckWord.byte (r : BitVec 16) (b : Byte) : BitVec 16 :=
  CheckWord.shift (CheckWord.shift (CheckWord.shift (CheckWord.shift (CheckWord.shift
    (CheckWord.shift (CheckWord.shift (CheckWord.shift
      (r ^^^ (b.setWidth 16 <<< 8)))))))))

/-- The check word over the bytes of a frame before it (R198). -/
def CheckWord.of (body : List Byte) : BitVec 16 := body.foldl CheckWord.byte 0xFFFF

/-- A frame with its check word, low byte first (R198). -/
def Frame.seal (body : List Byte) : Frame :=
  body ++ [(CheckWord.of body).setWidth 8, (CheckWord.of body >>> 8).setWidth 8]

/-- A received frame of a kind of `n` bytes has a correct check word when it has that length and its
last two bytes are the word computed over the rest (R198). -/
def Frame.correct (n : Nat) (f : Frame) : Bool :=
  f.length == n && f == Frame.seal (f.take (n - 2))

/-- The byte at a place of a frame. -/
def Frame.at (f : Frame) (i : Nat) : Byte := f.getD i 0

/-- The number of `n` bytes at a place of a frame. -/
def Frame.nat (f : Frame) (i n : Nat) : Nat := Bytes.toNat ((f.drop i).take n)

/-! ### The frames (R197) -/

/-- A demand frame: sequence number, command bits, AZ and EL rate demand. -/
def Frame.demand (seq : BitVec 8) (azRelease elRelease reflector feed : Bool)
    (probe : Option Area) (azRate elRate : Int) : Frame :=
  let bit (b : Bool) (n : Nat) : Nat := if b then 2 ^ n else 0
  let bits := bit azRelease 0 + bit elRelease 1 + bit reflector 2 + bit feed 3 +
    bit probe.isSome 4 + bit (probe == some .feed) 5
  Frame.seal (seq :: BitVec.ofNat 8 bits :: (Bytes.ofInt 4 azRate ++ Bytes.ofInt 4 elRate))

/-- The contents of a report frame; the probe resistance is read only when bit 8 is set. -/
def Frame.report (f : Frame) : Report :=
  let bits := BitVec.ofNat 16 (Frame.nat f 1 2)
  { azReady := bits.getLsbD 0, elReady := bits.getLsbD 1, azReleased := bits.getLsbD 2,
    elReleased := bits.getLsbD 3, azCcw := bits.getLsbD 4, azCw := bits.getLsbD 5,
    elLow := bits.getLsbD 6, elHigh := bits.getLsbD 7,
    azEncoder := Bytes.signed 4 (Frame.nat f 3 4), elEncoder := Bytes.signed 4 (Frame.nat f 7 4),
    reflectorCurrent := Frame.nat f 11 2, feedCurrent := Frame.nat f 13 2,
    probe := if bits.getLsbD 8 then
        some (if bits.getLsbD 9 then .feed else .reflector, Frame.nat f 15 2)
      else none }

/-- The length of a report frame, a sample reply and a panel answer. -/
def Frame.reportLength : Nat := 19

/-- See `Frame.reportLength`. -/
def Frame.sampleLength : Nat := 6

/-- See `Frame.reportLength`. -/
def Frame.panelLength : Nat := 8

/-- A sample request: pass number, stage number, channel, kind. -/
def Frame.sampleRequest (pass : BitVec 8) (stage : Nat) (cfg : StageConfig) : Frame :=
  Frame.seal [pass, BitVec.ofNat 8 stage, BitVec.ofNat 8 cfg.channel,
    BitVec.ofNat 8 (Code.ofStageKind cfg.kind)]

/-- The value of a sample reply, signed. -/
def Frame.sampleValue (f : Frame) : Int := Bytes.signed 2 (Frame.nat f 2 2)

/-- The fault code of a sample reply (R130). -/
def Frame.faultCode : Int := -32768

/-- A panel poll: station number, acknowledgement. -/
def Frame.poll (st : StationId) (ack : Option Ack) : Frame :=
  Frame.seal [BitVec.ofNat 8 st.val, BitVec.ofNat 8 (Code.ofAck ack)]

/-- The station number, the answer, the kind, the scope and the ID of a panel answer. -/
def Frame.panelStation (f : Frame) : Nat := (Frame.at f 0).toNat

/-- See `Frame.panelStation`. -/
def Frame.panelCode (f : Frame) : Nat := (Frame.at f 1).toNat

/-- See `Frame.panelStation`. -/
def Frame.panelKind (f : Frame) : Nat := (Frame.at f 2).toNat

/-- See `Frame.panelStation`. -/
def Frame.panelScope (f : Frame) : Nat := (Frame.at f 3).toNat

/-- See `Frame.panelStation`. -/
def Frame.panelId (f : Frame) : Nat := Frame.nat f 4 2

end Sys2Proof.Machine
end

