-- ==== Sys2Proof/Machine/Flags.lean ====
section
/-! DEFINITION. The flag computations: HIGH, LOW and GUST of a sensing stage (R135) with its filters
(R134, R136), and the INT output (R14). -/

namespace Sys2Proof.Machine

/-- A flag of R135: set when clear and `sets`, cleared when set and `clears`, kept otherwise. -/
def Flag.judge (old sets clears : Bool) : Bool := if old then !clears else sets

/-- HIGH: set at f ≥ high, cleared at f < high − h; clear without a threshold (R135). -/
def Stage.judgeHigh (g : Stage) (f : Int) : Bool :=
  match g.cfg.high with
  | none => false
  | some t => Flag.judge g.high (decide (t ≤ f)) (decide (f < t - g.cfg.hysteresis))

/-- LOW: set at f ≤ low, cleared at f > low + h (R135). -/
def Stage.judgeLow (g : Stage) (f : Int) : Bool :=
  match g.cfg.low with
  | none => false
  | some t => Flag.judge g.low (decide (f ≤ t)) (decide (t + g.cfg.hysteresis < f))

/-- GUST: set at x − b ≥ gust, cleared at x − b < gust − h (R135). -/
def Stage.judgeGust (g : Stage) (x b : Int) : Bool :=
  match g.cfg.gust with
  | none => false
  | some t => Flag.judge g.gust (decide (t ≤ x - b)) (decide (x - b < t - g.cfg.hysteresis))

/-- All three flags judged on the stage's own f, x and b (R135); a value that is absent leaves the
flags that need it as they are. -/
def Stage.judgeFlags (g : Stage) : Stage :=
  match g.f, g.x, g.b with
  | some f, some x, some b =>
    { g with high := g.judgeHigh f, low := g.judgeLow f, gust := g.judgeGust x b }
  | _, _, _ => g

/-- GUST alone judged again (R137, R138). -/
def Stage.rejudgeGust (g : Stage) : Stage :=
  match g.x, g.b with
  | some x, some b => { g with gust := g.judgeGust x b }
  | _, _ => g

/-- A value moved towards another by floor(difference / 2^k), the floor towards minus infinity (R134,
R136). -/
def filterStep (from_ to_ : Int) (k : Nat) : Int := from_ + (to_ - from_) / (2 ^ k : Nat)

/-- Whether INT is asserted: INT_ENABLE is 1 and a class bit is set both in the latch and in MASK
(R14). The part holds no separate interrupt-pending state, so the pin is this function. -/
def Exchange.int (x : Exchange) : Bool := x.intEnable && (x.summary &&& x.mask) != 0

end Sys2Proof.Machine
end

