-- ==== Sys2Proof/Machine/Status.lean ====
section
/-! DEFINITION. The status areas that the part writes (R2; R197, "Status areas"): every record as the
bytes of its region. R197 gives the width of each kind of field, the order of the regions and that
the fields follow the order in which the owning chapter lists them; where one flag byte ends and the
next begins, and what a rule names without saying how it is shown, is the model's (DESIGN CHOICE;
notes/assumptions/8.md). -/

namespace Sys2Proof.Machine

/-! ### Field packing -/

/-- A number in one byte, two bytes, four bytes. -/
def Status.byte (n : Nat) : List Byte := Bytes.ofNat 1 n

/-- See `Status.byte`. -/
def Status.half (n : Nat) : List Byte := Bytes.ofNat 2 n

/-- See `Status.byte`. -/
def Status.word (n : Nat) : List Byte := Bytes.ofNat 4 n

/-- A position, a rate, an encoder reading or an error in four bytes. -/
def Status.angle (x : Int) : List Byte := Bytes.ofInt 4 x

/-- A stage value in two bytes. -/
def Status.stageValue (x : Int) : List Byte := Bytes.ofInt 2 x

/-- An array time as its low 32 bits. -/
def Status.time (t : Nat) : List Byte := Bytes.ofNat 4 t

/-- The number of a set of flags, one bit each, the first at bit 0. -/
def Status.bits : List Bool → Nat
  | [] => 0
  | b :: rest => (if b then 1 else 0) + 2 * Status.bits rest

/-- A set of flags, one bit each within a byte. -/
def Status.flags (l : List Bool) : List Byte := Status.byte (Status.bits l)

/-- A timer as the tenths of a second remaining, 0xFFFFFFFF for stopped. -/
def Status.timer : Timer → List Byte
  | none => Status.word 0xFFFFFFFF
  | some ms => Status.word (ms / 100)

/-- An optional value of `n` bytes behind a flag byte that holds its presence bit. -/
def Status.opt {α : Type} (n : Nat) (f : α → List Byte) : Option α → List Byte
  | none => List.replicate (n + 1) 0
  | some x => Status.byte 1 ++ f x

/-- A region of `n` bytes: the fields, then zeros. -/
def Status.region (n : Nat) (l : List Byte) : List Byte := (l ++ List.replicate n 0).take n

/-! ### Codes of the enumerations, from 0 in the order of their first listing (R197) -/

/-- See R197. -/
def Code.ofAxisState : AxisState → Nat
  | .retired => 0 | .braked => 1 | .awaitingPower => 2 | .releasing => 3 | .slewing => 4
  | .catchingUp => 5 | .tracking => 6 | .holding => 7 | .stowing => 8 | .stowed => 9
  | .faulted => 10

/-- See R197. -/
def Code.ofAxisFault : AxisFault → Nat
  | .tracking => 0 | .link => 1 | .amplifier => 2 | .limitSwitch => 3 | .brake => 4 | .outside => 5

/-- See R197. -/
def Code.ofLevel : Level → Nat
  | .slew => 0 | .track => 1 | .none => 2

/-- See R197. -/
def Code.ofClass : ClaimClass → Nat
  | .stow => 0 | .move => 1 | .heat => 2

/-- See R197. -/
def Code.ofSource : Source → Nat
  | .book => 0 | .stow => 1 | .sweep => 2 | .shed => 3 | .none => 4

/-- See R197. -/
def Code.ofBookState : BookState → Nat
  | .idle => 0 | .pending => 1 | .running => 2 | .spent => 3 | .faulted => 4

/-- The reasons of R34 and, after them, those of R41 that R34 does not list. -/
def Code.ofBookReason : BookReason → Nat
  | .count => 0 | .number => 1 | .spacing => 2 | .azRange => 3 | .elRange => 4 | .anchor => 5
  | .order => 6

/-- The reason of a BOOK_INVALID answer, from 1 in the same order (R197). -/
def Code.ofInvalid (r : BookReason) : Nat := Code.ofBookReason r + 1

/-- A point index, or 0xFF for HEADER (R197). -/
def Code.ofPlace : Place → Nat
  | .header => 0xFF
  | .point i => i

/-- See R197. -/
def Code.ofBookEvent : BookEventKind → Nat
  | .superseded => 0 | .started => 1 | .spent => 2 | .faulted => 3

/-- See R197. -/
def Code.ofLetter : Letter → Nat
  | .a => 0 | .b => 1

/-- See R197. -/
def Code.ofArea : Area → Nat
  | .reflector => 0 | .feed => 1

/-- See R197. -/
def Code.ofHeatMode : HeatMode → Nat
  | .off => 0 | .manual => 1 | .auto => 2

/-- See R197. -/
def Code.ofHeatState : HeatState → Nat
  | .off => 0 | .idle => 1 | .probing => 2 | .ready => 3 | .waitingPower => 4 | .energizing => 5
  | .on => 6 | .shed => 7 | .cooldown => 8 | .latched => 9

/-- See R197. -/
def Code.ofHeatClass : HeatClass → Nat
  | .a => 0 | .b => 1 | .c => 2

/-- See R197. -/
def Code.ofVerdict : Verdict → Nat
  | .good x => Code.ofHeatClass x | .short => 3 | .open => 4 | .invalid => 5

/-- See R197. -/
def Code.ofHeatFault : HeatFault → Nat
  | .short => 0 | .open => 1 | .invalid => 2 | .noResult => 3 | .startFault => 4
  | .currentLimit => 5 | .overload => 6 | .openElement => 7

/-- The codes of tag kinds and scopes are those of R197's table. -/
def Code.ofTagKind : TagKind → Nat
  | .personnel => 1 | .electrical => 2 | .ret => 3 | .site => 4

/-- See R197. -/
def Code.ofScope : Scope → Nat
  | .motion => 1 | .heat => 2 | .both => 3 | .service => 4

/-- See R197. -/
def Code.ofParty : Party → Nat
  | .panel => 0 | .request => 1 | .part => 2

/-- See R197. -/
def Code.ofLockout : LockoutKind → Nat
  | .placed => 0 | .removed => 1 | .fuseWritten => 2

/-- See R197. -/
def Code.ofAction : Action → Nat
  | .engageA => 1 | .engageB => 2 | .goto => 3 | .hold => 4 | .release => 5

/-- See R197. -/
def Code.ofTableState : TableState → Nat
  | .idle => 0 | .armed => 1 | .running => 2 | .settling => 3 | .done => 4 | .cancelled => 5
  | .expired => 6

/-- See R197. -/
def Code.ofStartSource : StartSource → Nat
  | .atTime => 0 | .nextPulse => 1 | .strobe => 2

/-- See R197. -/
def Code.ofEnd : EndKind → Nat
  | .done => 0 | .cancelled => 1 | .expired => 2

/-- See R197. -/
def Code.ofRecord : RecordState → Nat
  | .notNamed => 0 | .waiting => 1 | .moving => 2 | .settled => 3 | .skipped => 4 | .abandoned => 5

/-- See R197. -/
def Code.ofSweepReason : SweepReason → Nat
  | .retired => 0 | .locked => 1 | .wind => 2 | .fault => 3 | .book => 4 | .noTarget => 5

/-- See R197. -/
def Code.ofZoneState : ZoneState → Nat
  | .unwatched => 0 | .calm => 1 | .watch => 2 | .stowing => 3 | .stowed => 4 | .returnHold => 5

/-- See R197. -/
def Code.ofExpose : ExposeReason → Nat
  | .locked => 0 | .fault => 1 | .deadline => 2

/-- See R197. -/
def Code.ofStageState : StageState → Nat
  | .unseeded => 0 | .live => 1 | .fault => 2

/-- See R197. -/
def Code.ofStageFault : StageFault → Nat
  | .misses => 0 | .faultCode => 1

/-- See R197. -/
def Code.ofRate : PassRate → Nat
  | .full => 0 | .quiet => 1

/-- The last sensing event: a fault with its reason as one kind (R132), and the recalibration (R137; DESIGN
CHOICE, notes/assumptions/8.md). -/
def Code.ofSensing : SensingKind → Nat
  | .misses => 0 | .faultCode => 1 | .recalibration => 2

/-- See R197. -/
def Code.ofPower : PowerKind → Nat
  | .shedForStow => 0 | .shedForBudget => 1 | .slewPart => 2 | .wholeMove => 3 | .wholeStow => 4

/-- See R197. -/
def Code.ofTimeState : TimeState → Nat
  | .unset => 0 | .free => 1 | .locked => 2

/-- Heater zone index: 2n for the REFLECTOR of Sn and 2n + 1 for its FEED (R6). -/
def Code.heaterIndex (st : StationId) (area : Area) : Nat := 2 * st.val + Code.ofArea area

/-- A claimant in a list slot: 0–15 for a station, 16 + n for heater zone index n (R197). -/
def Code.ofClaimant : Claimant → Nat
  | .station st => st.val
  | .heater st area => 16 + Code.heaterIndex st area

/-! ### The station status block (R197) -/

/-- The link state, DOWN 0 and UP 1 (R197). -/
def Code.ofLink (up : Bool) : Nat := if up then 1 else 0

/-- Link and latest report (R26, R29). -/
def Status.link (l : Link) : List Byte :=
  Status.byte (Code.ofLink l.up) ++ Status.opt 1 (fun s => [s]) l.seq ++
    Status.flags [l.answered] ++ Status.byte l.missed ++
    Status.opt 17 (fun r => Status.angle r.azEncoder ++ Status.angle r.elEncoder ++
      Status.flags [r.azReady, r.elReady, r.azReleased, r.elReleased, r.azCcw, r.azCw, r.elLow,
        r.elHigh] ++ Status.half r.reflectorCurrent ++ Status.half r.feedCurrent ++
      Status.opt 3 (fun p => Status.byte (Code.ofArea p.1) ++ Status.half p.2) r.probe)
      l.report

/-- A book record (R32). -/
def Status.book (b : Book) : List Byte :=
  Status.byte (Code.ofBookState b.state) ++
    Status.opt 11 (fun a => Status.half a.number ++ Status.byte a.count ++ Status.time a.first ++
      Status.time a.last) b.armed ++
    Status.opt 5 (fun p => Status.byte p.1 ++ Status.time p.2) b.cursor ++
    Status.opt 2 (fun f => Status.byte (Code.ofPlace f.1) ++ Status.byte (Code.ofBookReason f.2))
      b.fault

/-- The validation record (R33) and the last book event (R46). -/
def Status.validation (v : Option Validation) (e : Option BookEvent) : List Byte :=
  Status.opt 4 (fun v => Status.byte (Code.ofLetter v.letter) ++ Status.half v.number ++
    Status.byte v.checked) v ++
    Status.opt 6 (fun e => Status.byte (Code.ofBookEvent e.kind) ++
      Status.byte (Code.ofLetter e.letter) ++ Status.time e.time) e

/-- The target record (R48). -/
def Status.target (t : Target) : List Byte :=
  Status.byte (Code.ofSource t.source) ++ Status.byte t.row ++
    Status.opt 8 (fun p => Status.angle p.1 ++ Status.angle p.2) t.stow ++
    Status.opt 8 (fun p => Status.angle p.1 ++ Status.angle p.2) t.shed

/-- The claim record (R68). -/
def Status.claim (c : ClaimRecord) : List Byte :=
  Status.byte (Code.ofClass c.cls) ++ Status.byte (Code.ofLevel c.level) ++ Status.half c.wanted ++
    Status.half c.track ++ Status.half c.granted ++ Status.byte (Code.ofLevel c.grantedLevel)

/-- An axis record (R68, R62). The width of the step s, which R197 does not name, is that of a position (DESIGN
CHOICE; notes/assumptions/8.md). -/
def Status.axis (a : Axis) : List Byte :=
  Status.byte (Code.ofAxisState a.state) ++
    Status.opt 1 (fun r => Status.byte (Code.ofAxisFault r)) a.reason ++ Status.angle a.c ++
    Status.angle a.s ++ Status.opt 4 Status.angle a.hold ++ Status.byte a.errorRun ++
    Status.opt 1 Status.byte a.releaseCount ++
    Status.flags [a.releaseSeen.isSome, a.releaseSeen == some true] ++ Status.timer a.holdIdle ++
    Status.byte (Code.ofLevel a.need) ++ Status.angle a.rate ++
    Status.opt 4 Status.angle a.limitedDemand ++ Status.opt 4 Status.angle a.error ++
    Status.flags [a.onSource.isSome, a.onSource == some true, a.limited, a.windFloor]

/-- What R163 gives the REFLECTOR zone alone: the ON-run timer and the tilt-used mark. -/
def Status.heaterRun (area : Area) (h : Heater) : List Byte :=
  match area with
  | .reflector => Status.timer h.onRun ++ Status.flags [h.tiltUsed]
  | .feed => []

/-- A heater zone record (R163) and whether its probe request stands. -/
def Status.heater (area : Area) (h : Heater) (standing : Bool) : List Byte :=
  Status.byte (Code.ofHeatMode h.mode) ++ Status.byte (Code.ofHeatState h.state) ++
    Status.opt 1 (fun x => Status.byte (Code.ofHeatClass x)) h.cls ++
    Status.opt 3 (fun p => Status.half p.1 ++ Status.byte (Code.ofVerdict p.2)) h.lastProbe ++
    Status.flags [standing, h.probeNamed] ++ Status.byte h.faultCount ++
    Status.opt 5 (fun p => Status.byte (Code.ofHeatFault p.1) ++ Status.time p.2) h.lastFault ++
    Status.flags [h.manual, h.auto, h.sensorMissing] ++ Status.half h.current ++
    Status.timer h.probeWindow ++ Status.timer h.energize ++ Status.timer h.overload ++
    Status.timer h.openElement ++ Status.timer h.cooldown ++ Status.timer h.meltOff ++
    Status.heaterRun area h

/-- The last heat event (R163). -/
def Status.heatEvent (e : Option HeatEvent) : List Byte :=
  Status.opt 8 (fun e => Status.byte (Code.ofHeatFault e.reason) ++
    Status.byte (Code.ofArea e.area) ++ Status.half e.value ++ Status.time e.time) e

/-- One entry of the tag list (R183). -/
def Status.tag (t : Tag) : List Byte :=
  Status.half t.id ++ Status.byte (Code.ofTagKind t.kind) ++ Status.byte (Code.ofScope t.scope) ++
    Status.byte (Code.ofParty t.party) ++ Status.time t.time

/-- The tag list entry by entry, site pending and the last lockout event (R183). A count in front of eight
places of nine bytes is the model's (notes/assumptions/8.md). -/
def Status.lockout (tags : List Tag) (pending : Bool) (e : Option LockoutEvent) : List Byte :=
  Status.byte tags.length ++ Status.region 72 (tags.flatMap Status.tag) ++ Status.flags [pending] ++
    Status.opt 8 (fun e => Status.byte (Code.ofLockout e.kind) ++ Status.half e.what ++
      Status.byte (Code.ofParty e.party) ++ Status.time e.time) e

/-- The panel record (R191), then the fuse words and retirement (R194). An acknowledgement due shows the
code that the poll gives it (notes/assumptions/8.md). -/
def Status.panel (p : Panel) (fuse1 fuse2 retired : Bool) : List Byte :=
  Status.flags [p.lost] ++ Status.byte p.unanswered ++
    Status.opt 1 (fun a => Status.byte (Code.ofAck (some a))) p.ack ++
    Status.flags [fuse1, fuse2, retired]

/-- The sweep hold and the progress record (R105, R113). -/
def Status.sweep (h : Option SweepHold) (p : Progress) : List Byte :=
  Status.opt 9 (fun h => Status.byte h.table.val ++ Status.angle h.az ++ Status.angle h.el) h ++
    Status.opt 1 (fun t : TableId => Status.byte t.val) p.table ++
    Status.byte (Code.ofRecord p.state) ++
    Status.opt 1 (fun r => Status.byte (Code.ofSweepReason r)) p.reason ++ Status.byte p.entry ++
    Status.opt 1 (fun a => Status.byte (Code.ofAction a)) p.action ++
    Status.flags [p.settle] ++ Status.timer p.timer ++ Status.flags [p.mark]

/-- The status block of a station, with the granted watts of its two heater zones, its zone's state
and whether it is exposed (R197). -/
def Status.station (s : Station) (reflectorWatts feedWatts : Nat) (zone : ZoneState)
    (exposed : Bool) : List Byte :=
  Status.region 512
    (Status.link s.link ++ Status.book s.bookA ++ Status.book s.bookB ++
      Status.validation s.validation s.lastBook ++ Status.target s.target ++
      Status.claim s.claim ++ Status.axis s.az ++ Status.axis s.el ++
      Status.heater .reflector s.reflector (s.probeQueue.contains .reflector) ++
      Status.heater .feed s.feed (s.probeQueue.contains .feed) ++ Status.half reflectorWatts ++
      Status.half feedWatts ++ Status.flags [s.shedOrder] ++ Status.heatEvent s.lastHeat ++
      Status.lockout s.tags s.sitePending s.lastLockout ++
      Status.panel s.panel s.fuse1 s.fuse2 s.retired ++ Status.byte (Code.ofZoneState zone) ++
      Status.flags [exposed] ++ Status.sweep s.hold s.progress)

/-! ### The zone, sweep, power and time status and the stage status (R197) -/

/-- The time status (R17). -/
def Status.timeUnit (t : TimeUnit) : List Byte :=
  Status.region 32
    (Status.time t.shown ++ Status.byte (Code.ofTimeState t.state) ++
      Status.opt 4 Status.time t.pendingSet ++ Status.opt 2 Status.stageValue t.lastSnap)

/-- The sensing status (R125). -/
def Status.sensing (w : Sensing) : List Byte :=
  Status.region 32
    (Status.byte (Code.ofRate w.rate) ++ Status.byte w.quietCount ++ [w.pass] ++
      Status.byte w.stages.length ++
      Status.opt 2 (fun p : Nat × Bool => Status.byte p.1 ++ Status.flags [p.2]) w.pendingCount ++
      Status.opt 6 (fun e => Status.byte (Code.ofSensing e.kind) ++ Status.byte e.stage ++
        Status.time e.time) w.last)

/-- The sum of the watts of grant entries (R86). -/
def Grants.total (l : List Grant) : Nat := (l.map Grant.watts).sum

/-- The granted total (R86). -/
def Power.total (p : Power) : Nat := Grants.total p.grants

/-- The budget in force (R86). -/
def Power.inForce (p : Power) : Nat := if p.alarm then p.emergency else p.normal

/-- The watts a claimant holds in the grant list, 0 without an entry (R92, R102). -/
def Power.granted (p : Power) (c : Claimant) : Nat :=
  match p.grants.find? (fun g => g.claimant == c) with
  | none => 0
  | some g => g.watts

/-- A list slot: claimant, class, watts or addition. -/
def Status.slot (c : Claimant) (cls : ClaimClass) (watts : Nat) : List Byte :=
  Status.byte (Code.ofClaimant c) ++ Status.byte (Code.ofClass cls) ++ Status.half watts

/-- The power status (R86). -/
def Status.power (p : Power) : List Byte :=
  Status.region 448
    (Status.word p.normal ++ Status.word p.emergency ++ Status.word p.inForce ++
      Status.flags [p.alarm] ++ Status.word p.total ++
      Status.opt 8 (fun e => Status.byte (Code.ofPower e.kind) ++
        Status.byte (Code.ofClaimant e.claimant) ++ Status.half e.watts ++ Status.time e.time)
        p.last ++
      Status.byte p.grants.length ++
      Status.region 192 (p.grants.flatMap (fun g => Status.slot g.claimant g.cls g.watts)) ++
      Status.byte p.waiting.length ++
      Status.region 192 (p.waiting.flatMap (fun w => Status.slot w.claimant w.cls w.addition)))

/-- The causes of R149 as flags. -/
def Status.causes (c : Causes) : List Byte :=
  Status.flags [c.speed, c.gustStow, c.blind, c.site, c.order]

/-- A set of stations, bit n for Sn. -/
def Status.stations (l : List StationId) : List Byte :=
  Status.half ((l.map (fun st => 2 ^ st.val)).sum)

/-- The reason with which a station stands in an exposed set. -/
def Zone.exposedReason (z : Zone) (st : StationId) : Option ExposeReason :=
  (z.exposed.find? (fun e => e.1 == st)).map Prod.snd

/-- A zone record (R144). The mark of a deadline ahead of the last zone event (R161), and the two bytes of a
configured length in seconds, for which R197 names no width, are the model's (DESIGN CHOICE;
notes/assumptions/8.md). -/
def Status.zone (z : Zone) : List Byte :=
  Status.region 80
    (Status.byte z.cfg.stages.length ++ Status.region 4 (z.cfg.stages.flatMap Status.byte) ++
      Status.half z.cfg.watch ++ Status.half z.cfg.stow ++ Status.half z.cfg.release ++
      Status.half z.cfg.gustStow ++ Status.half z.cfg.returnHold ++ Status.half z.cfg.deadline ++
      Status.half z.cfg.blindTimeout ++ Status.angle z.cfg.floor ++
      Status.byte (Code.ofZoneState z.state) ++ Status.opt 2 Status.stageValue z.speed ++
      Status.flags [z.gust, z.gustStow, z.blind] ++ Status.causes z.causes ++
      Status.flags [z.order] ++ Status.timer z.blindTimer ++ Status.timer z.holdTimer ++
      Status.timer z.deadline ++ Status.stations z.members ++
      Status.stations (z.exposed.map Prod.fst) ++
      Status.region 16 ((List.finRange 16).map (fun st =>
        match z.exposedReason st with
        | none => 0
        | some r => BitVec.ofNat 8 (Code.ofExpose r))) ++
      Status.opt 8 (fun e => Status.flags [e.deadline] ++ Status.byte (Code.ofZoneState e.left) ++
        Status.byte (Code.ofZoneState e.entered) ++ Status.causes e.causes ++ Status.time e.time)
        z.last)

/-- A table record, less the snapshot entries (R105). The number of those entries, and the stored strobe
timeout with the start source and time, are shown by the model's reading (notes/assumptions/8.md). -/
def Status.table (t : SweepTable) : List Byte :=
  Status.region 96
    (Status.byte (Code.ofTableState t.state) ++
      Status.opt 1 (fun l : List SweepEntry => Status.byte l.length) t.snapshot ++
      Status.opt 7 (fun l => Status.byte (Code.ofStartSource l.source) ++ Status.time l.time ++
        Status.half l.timeout) t.launch ++
      Status.timer t.strobe ++ Status.flags [t.startDue, t.late] ++
      Status.opt 4 Status.time t.sweepStart ++ Status.byte t.next ++ Status.half t.issues ++
      Status.half t.skips ++ Status.half t.abandons ++ Status.half t.timeouts ++
      Status.opt 5 (fun e : EndKind × Nat => Status.byte (Code.ofEnd e.1) ++ Status.time e.2)
        t.ended)

/-- The stage status of a number: in the list with its record, or not in the list (R125). The stage kind has
the codes of R197's table, 1 to 5 (DESIGN CHOICE; notes/assumptions/8.md). -/
def Status.stage (g : Option Stage) : List Byte :=
  Status.region 64 (match g with
    | none => []
    | some g =>
      Status.flags [true] ++ Status.byte g.cfg.channel ++
        Status.byte (Code.ofStageKind g.cfg.kind) ++ Status.byte g.cfg.kf ++
        Status.byte g.cfg.ks ++ Status.byte g.cfg.skip ++ Status.half g.cfg.freezeLimit ++
        Status.half g.cfg.hysteresis ++ Status.opt 2 Status.stageValue g.cfg.high ++
        Status.opt 2 Status.stageValue g.cfg.low ++ Status.opt 2 Status.stageValue g.cfg.gust ++
        Status.byte (Code.ofStageState g.state) ++ Status.opt 2 Status.stageValue g.f ++
        Status.opt 2 Status.stageValue g.b ++ Status.opt 2 Status.stageValue g.x ++
        Status.flags [g.high, g.low, g.gust, g.answered] ++ Status.byte g.missed ++
        Status.byte g.skip ++ Status.half g.freeze ++ Status.opt 1 Status.byte g.reseed ++
        Status.opt 1 (fun r => Status.byte (Code.ofStageFault r)) g.reason)

/-! ### All regions -/

/-- The region of a station. -/
def Status.stationRegion (stations : Vector Station 16) (zones : Vector Zone 4) (power : Power)
    (st : StationId) : Nat × List Byte :=
  let s := stations[st]
  let z := zones[s.cfg.zone]
  (Layout.stationStatus st.val,
    Status.station s (power.granted (.heater st .reflector)) (power.granted (.heater st .feed))
      z.state (z.exposedReason st).isSome)

/-- Every status region: its offset in exchange memory and its bytes. -/
def Status.regions (time : TimeUnit) (sensing : Sensing) (power : Power) (zones : Vector Zone 4)
    (tables : Vector SweepTable 2) (stations : Vector Station 16) : List (Nat × List Byte) :=
  [(0x15000, Status.timeUnit time), (0x15020, Status.sensing sensing),
    (0x15040, Status.power power)] ++
  (List.finRange 4).map (fun z => (0x15200 + 80 * z.val, Status.zone zones[z])) ++
  (List.finRange 2).map (fun t => (0x15340 + 96 * t.val, Status.table tables[t])) ++
  (List.finRange 16).map (Status.stationRegion stations zones power) ++
  (List.finRange 16).map (fun i => (Layout.stageStatus i.val, Status.stage sensing.stages[i.val]?))

/-- The part writes every region whole (R16). -/
def Status.writeAll (regions : List (Nat × List Byte)) (m : Mem) : Mem :=
  regions.foldl (fun m r => Memory.store m r.1 r.2) m

/-- The part rewrites each region whose shown bytes an event has changed (R2). So do the writes of a pass
end, which step 3 of R127 names without that condition (DESIGN CHOICE; notes/assumptions/47.md). -/
def Status.rewrite : List (Nat × List Byte) → List (Nat × List Byte) → Mem → Mem
  | old :: olds, new :: news, m =>
    Status.rewrite olds news (if old = new then m else Memory.store m new.1 new.2)
  | _, _, m => m

end Sys2Proof.Machine
end

