-- ==== Sys2Proof/Machine/State.lean ====
section
/-! DEFINITION. The state of the part: what its ten blocks own, the exchange memory, its lines and
ports, and the queue of the commands that wait; the ways a step can stop; the state after reset. -/

namespace Sys2Proof.Machine

/-- Why a step stops with a fault. No meaning of this model raises one: every address the part forms
lies inside exchange memory, and every command has an effect in every state. -/
inductive Fault where
  /-- Raised by no step: an access outside the 256 KiB of exchange memory (safe). -/
  | outsideExchangeMemory
  deriving DecidableEq, Repr

/-- Why a step refuses a command. -/
inductive Refusal where
  /-- Raised by the arm of a command that has no meaning yet; there is none (safe). -/
  | notModelled (mnemonic : String)
  deriving DecidableEq, Repr

/-- The state of the part. -/
structure State where
  /-- MODEL: the commands that wait, first in, first out. -/
  pending : List Instr
  /-- Exchange memory. -/
  mem : Mem
  /-- The 113 tallies, in the order of the tally block (R11, R197). -/
  tallies : Vector (BitVec 16) 113
  /-- XI: posting queue, request in flight, SUMMARY latch, MASK, INT_ENABLE. -/
  exchange : Exchange
  /-- TU. -/
  time : TimeUnit
  /-- PB. -/
  power : Power
  /-- WS. -/
  sensing : Sensing
  /-- JS: T0 and T1. -/
  tables : Vector SweepTable 2
  /-- WP: W0 to W3. -/
  zones : Vector Zone 4
  /-- S0 to S15: what DL, TE, HC, LU and JS hold for each. -/
  stations : Vector Station 16
  /-- The levels of SITE_STOW and SITE_STOP. -/
  lines : Lines
  /-- LU: the panel line. -/
  panelLine : PanelLine
  /-- MODEL: what the event under way has still to settle; empty between events
  (notes/assumptions/6.md). -/
  work : List Work
  /-- MODEL: the zone whose entry into STOWING is under way; none between events
  (notes/assumptions/20.md). -/
  entering : Option ZoneId
  /-- MODEL: how many free places have been used (notes/assumptions/4.md). -/
  freeCount : Nat
  deriving DecidableEq, Repr

/-- The stations that are not retired, in order of station number (R145). -/
def State.workingStations (stations : Vector Station 16) : List StationId :=
  (List.finRange 16).filter (fun st => !stations[st].retired)

/-- The part at the end of a full reset (R16, R17, R31, R47, R48, R67, R85, R86, R105, R126, R162, R182,
R196): what the fuse words (R194) and the levels of the lines decide is decided from them, exchange
memory keeps what it held but for the status areas and the tally area, which the part writes. -/
def State.afterReset (pending : List Instr) (mem : Mem) (fuses : StationId → Bool × Bool)
    (siteStow siteStop feederAlarm : Bool) (freeCount : Nat) : State :=
  let stations : Vector Station 16 := Vector.ofFn (fun st =>
    Station.afterReset (fuses st).1 (fuses st).2 siteStow siteStop)
  let zones : Vector Zone 4 := Vector.ofFn (fun z =>
    Zone.afterReset (if z.val = 0 then State.workingStations stations else []) siteStow)
  let tables : Vector SweepTable 2 := Vector.replicate 2 SweepTable.reset
  let power := Power.afterReset feederAlarm
  let regions :=
    Status.regions TimeUnit.reset Sensing.reset power zones tables stations
  { pending := pending,
    mem := Status.writeAll regions
      (Memory.store mem Layout.tallies (List.replicate Layout.tallyArea 0)),
    tallies := Vector.replicate 113 0, exchange := Exchange.reset, time := TimeUnit.reset,
    power := power, sensing := Sensing.reset, tables := tables, zones := zones,
    stations := stations, lines := { siteStow := siteStow, siteStop := siteStop },
    panelLine := { slot := 0, isOpen := true, answered := false, elapsed := 0,
                   poll := Frame.poll 0 none },
    work := [], entering := none, freeCount := freeCount }

/-- The part right after a power-on reset: nothing in exchange memory but what the reset writes
(R16), no fuse word written, the site lines inactive (notes/assumptions/3.md). -/
def State.reset : State := State.afterReset [] [] (fun _ => (false, false)) false false false 0

end Sys2Proof.Machine
end

