-- ==== Sys2Proof/Machine/Ops.lean ====
section
/-! DEFINITION. The shared operations: the named updates of State, exchange memory, tallies and the
SUMMARY latch (R11, R12), the status areas (R2), answers (R8), and what the blocks read of each
other. Every other file changes State through these. -/

namespace Sys2Proof.Machine

/-! ### Named reads and updates of State -/

/-- The sixteen stations, the four wind zones and the two heater zones of a station, in order. -/
def allStations : List StationId := List.finRange 16

/-- See `allStations`. -/
def allZones : List ZoneId := List.finRange 4

/-- See `allStations`. -/
def bothAreas : List Area := [.reflector, .feed]

/-- A change made for each member of a list in turn, each whole before the next. -/
def eachOf {α : Type} (l : List α) (f : α → State → State) (s : State) : State :=
  l.foldl (fun s x => f x s) s

/-- What the part holds for a station. -/
def State.station (s : State) (st : StationId) : Station := s.stations[st]

/-- The state with the record of one station changed. -/
def State.modStation (s : State) (st : StationId) (f : Station → Station) : State :=
  { s with stations := s.stations.set st (f s.stations[st]) }

/-- A wind zone. -/
def State.zone (s : State) (z : ZoneId) : Zone := s.zones[z]

/-- The state with the record of one wind zone changed. -/
def State.modZone (s : State) (z : ZoneId) (f : Zone → Zone) : State :=
  { s with zones := s.zones.set z (f s.zones[z]) }

/-- A sweep table. -/
def State.table (s : State) (t : TableId) : SweepTable := s.tables[t]

/-- The state with the record of one sweep table changed. -/
def State.modTable (s : State) (t : TableId) (f : SweepTable → SweepTable) : State :=
  { s with tables := s.tables.set t (f s.tables[t]) }

/-- The state with XI, TU, WS or the panel line changed. -/
def State.modExchange (s : State) (f : Exchange → Exchange) : State :=
  { s with exchange := f s.exchange }

/-- See `State.modExchange`. -/
def State.modTime (s : State) (f : TimeUnit → TimeUnit) : State := { s with time := f s.time }

/-- See `State.modExchange`. -/
def State.modSensing (s : State) (f : Sensing → Sensing) : State :=
  { s with sensing := f s.sensing }

/-- See `State.modExchange`. -/
def State.modPanelLine (s : State) (f : PanelLine → PanelLine) : State :=
  { s with panelLine := f s.panelLine }

/-- The state with PB changed. -/
def State.modPower (s : State) (f : Power → Power) : State := { s with power := f s.power }

/-- The state with bytes written to exchange memory. -/
def State.store (s : State) (base : Nat) (bytes : List Byte) : State :=
  { s with mem := Memory.store s.mem base bytes }

/-- A piece of work for the settling of the event under way (R100). -/
def State.leave (s : State) (w : Work) : State := { s with work := s.work ++ [w] }

/-- Array time as it stands. -/
def State.now (s : State) : Nat := s.time.time

/-- An axis of a station. -/
def Station.axis (s : Station) : AxisId → Axis
  | .az => s.az
  | .el => s.el

/-- A station with one axis changed. -/
def Station.modAxis (s : Station) (ax : AxisId) (f : Axis → Axis) : Station :=
  match ax with
  | .az => { s with az := f s.az }
  | .el => { s with el := f s.el }

/-- The configuration of an axis. -/
def StationConfig.axis (c : StationConfig) : AxisId → AxisConfig
  | .az => c.az
  | .el => c.el

/-- A heater zone of a station. -/
def Station.heater (s : Station) : Area → Heater
  | .reflector => s.reflector
  | .feed => s.feed

/-- A station with one heater zone changed. -/
def Station.modHeater (s : Station) (area : Area) (f : Heater → Heater) : Station :=
  match area with
  | .reflector => { s with reflector := f s.reflector }
  | .feed => { s with feed := f s.feed }

/-- A book of a station. -/
def Station.book (s : Station) : Letter → Book
  | .a => s.bookA
  | .b => s.bookB

/-- A station with one book changed. -/
def Station.modBook (s : Station) (l : Letter) (f : Book → Book) : Station :=
  match l with
  | .a => { s with bookA := f s.bookA }
  | .b => { s with bookB := f s.bookB }

/-- The letter of the station's book in a state, where there is one (R32: at most one RUNNING and at
most one PENDING). -/
def Station.bookIn (s : Station) (st : BookState) : Option Letter :=
  if s.bookA.state = st then some .a else if s.bookB.state = st then some .b else none

/-- The state with one axis, one heater zone or one book of a station changed. -/
def State.modAxis (s : State) (st : StationId) (ax : AxisId) (f : Axis → Axis) : State :=
  s.modStation st (fun x => x.modAxis ax f)

/-- See `State.modAxis`. -/
def State.modHeater (s : State) (st : StationId) (area : Area) (f : Heater → Heater) : State :=
  s.modStation st (fun x => x.modHeater area f)

/-- See `State.modAxis`. -/
def State.modBook (s : State) (st : StationId) (l : Letter) (f : Book → Book) : State :=
  s.modStation st (fun x => x.modBook l f)

/-! ### Writes by the host -/

/-- The host's writes into exchange memory, one byte each, in order: a host may write anywhere in
exchange memory (R1). -/
def State.hostStore (s : State) : List (BitVec 18 × Byte) → State
  | [] => s
  | (a, b) :: rest => (s.store a.toNat [b]).hostStore rest

/-! ### Tallies and the SUMMARY latch (R11, R12) -/

/-- The place of a tally in the tally block (R197). -/
def Tally.index : Tally → Fin 113
  | .answers => 0
  | .strayPosts => 1
  | .timeSteps => 2
  | .pulseLosses => 3
  | .sheds => 4
  | .revocations => 5
  | .sweepEnds => 6
  | .recalibrations => 7
  | .stageFaults => 8
  | .zoneChanges z => ⟨9 + z.val, by omega⟩
  | .exposures z => ⟨13 + z.val, by omega⟩
  | .axisFaults st => ⟨17 + st.val, by omega⟩
  | .linkLosses st => ⟨33 + st.val, by omega⟩
  | .bookEvents st => ⟨49 + st.val, by omega⟩
  | .heatFaults st => ⟨65 + st.val, by omega⟩
  | .tagChanges st => ⟨81 + st.val, by omega⟩
  | .panelLosses st => ⟨97 + st.val, by omega⟩

/-- The summary class of a tally (spec/01_exchange_memory_and_requests.md, "Tallies"). -/
def Tally.cls : Tally → SummaryClass
  | .answers => .answer
  | .strayPosts => .exchange
  | .timeSteps => .time
  | .pulseLosses => .time
  | .sheds => .power
  | .revocations => .power
  | .sweepEnds => .sweep
  | .recalibrations => .weather
  | .stageFaults => .weather
  | .zoneChanges _ => .wind
  | .exposures _ => .wind
  | .axisFaults _ => .axis
  | .linkLosses _ => .link
  | .bookEvents _ => .book
  | .heatFaults _ => .heat
  | .tagChanges _ => .lockout
  | .panelLosses _ => .lockout

/-- The bit of a summary class (R197). -/
def SummaryClass.bit : SummaryClass → BitVec 12
  | .answer => 0x001
  | .exchange => 0x002
  | .time => 0x004
  | .axis => 0x008
  | .link => 0x010
  | .book => 0x020
  | .power => 0x040
  | .sweep => 0x080
  | .weather => 0x100
  | .wind => 0x200
  | .heat => 0x400
  | .lockout => 0x800

/-- The value of a tally. -/
def State.tally (s : State) (t : Tally) : BitVec 16 := s.tallies[t.index]

/-- The place of a tally in exchange memory (R197). -/
def Tally.address (t : Tally) : Nat := Layout.tallies + 2 * t.index.val

/-- One increment of a tally: it wraps from 65,535 to 0, its whole value is written to exchange memory
(R11) and its class is latched (R12). -/
def State.bump (s : State) (t : Tally) : State :=
  let n := s.tally t + 1
  { s with
    tallies := s.tallies.set t.index n,
    mem := Memory.store s.mem t.address (Bytes.ofNat 2 n.toNat),
    exchange := { s.exchange with summary := s.exchange.summary ||| t.cls.bit } }

/-! ### Status areas (R2) -/

/-- Every status region of a state. -/
def State.regions (s : State) : List (Nat × List Byte) :=
  Status.regions s.time s.sensing s.power s.zones s.tables s.stations

/-- What an event leaves in exchange memory once the status regions it changed are rewritten (R2). -/
def State.publish (before after : State) : State :=
  { after with mem := Status.rewrite before.regions after.regions after.mem }

/-- One command as one event: its effect, and the status regions it changed (R2). -/
def event (s : State) (f : State → State) : Host.Outcome State Fault Refusal :=
  .next (s.publish (f s))

/-! ### Answers (R8) -/

/-- State words (R197). -/
def PageState.posted : Nat := 1

/-- See `PageState.posted`. -/
def PageState.taken : Nat := 2

/-- See `PageState.posted`. -/
def PageState.answered : Nat := 3

/-- The state word of a page as it stands. -/
def State.pageState (s : State) (p : PageId) : Nat := Memory.nat s.mem (Layout.page p) 4

/-- The four answering steps: result code, sixteen bytes of result data, ANSWERED, ANSWERS; the request
is then no longer in flight (R8). -/
def State.answer (s : State) (p : PageId) (r : Result) (data : List Byte) : State :=
  let s := s.store (Layout.page p + 8) (Status.word (Code.ofResult r) ++ Status.region 16 data)
  let s := s.store (Layout.page p) (Status.word PageState.answered)
  let s := s.bump .answers
  s.modExchange (fun x => { x with inFlight := none })

/-! ### What a command hands over to be settled -/

/-- What is done at once when an event hands work to PB: all of it is settled, or, while PB is
reporting, it stays until the change that caused it is complete (R100). -/
abbrev Settle := State → State

/-- The settling while PB is reporting: nothing yet. -/
def Settle.later : Settle := fun s => s

/-! ### What the blocks read of each other -/

/-- Motion-blocked: a tag of scope MOTION or BOTH (R183). -/
def Station.motionBlocked (s : Station) : Bool :=
  s.tags.any (fun t => t.scope == .motion || t.scope == .both)

/-- Heat-blocked: a tag of scope HEAT, BOTH or SERVICE (R183). -/
def Station.heatBlocked (s : Station) : Bool :=
  s.tags.any (fun t => t.scope == .heat || t.scope == .both || t.scope == .service)

/-- Service-held: a tag of scope SERVICE (R183). -/
def Station.serviceHeld (s : Station) : Bool := s.tags.any (fun t => t.scope == .service)

/-- The zone states whose members have source STOW (R49, row 2). -/
def ZoneState.stows : ZoneState → Bool
  | .stowing | .stowed | .returnHold => true
  | .unwatched | .calm | .watch => false

/-- A table that is RUNNING or SETTLING. -/
def TableState.runs : TableState → Bool
  | .running | .settling => true
  | .idle | .armed | .done | .cancelled | .expired => false

/-- The powered states (R69). -/
def AxisState.powered : AxisState → Bool
  | .releasing | .slewing | .catchingUp | .tracking | .holding | .stowing => true
  | .retired | .braked | .awaitingPower | .stowed | .faulted => false

/-- The moving states: the powered states other than RELEASING (R69). -/
def AxisState.moving : AxisState → Bool
  | .slewing | .catchingUp | .tracking | .holding | .stowing => true
  | .retired | .braked | .awaitingPower | .releasing | .stowed | .faulted => false

/-- The amplifier-ready flag, the encoder reading, the brake-released flag and the limit switches that
a report gives an axis (R29, R81). -/
def Report.ready (r : Report) : AxisId → Bool
  | .az => r.azReady
  | .el => r.elReady

/-- See `Report.ready`. -/
def Report.encoder (r : Report) : AxisId → Int
  | .az => r.azEncoder
  | .el => r.elEncoder

/-- See `Report.ready`. -/
def Report.released (r : Report) : AxisId → Bool
  | .az => r.azReleased
  | .el => r.elReleased

/-- See `Report.ready`. -/
def Report.limitSwitch (r : Report) : AxisId → Bool
  | .az => r.azCcw || r.azCw
  | .el => r.elLow || r.elHigh

/-- The stage of a number, where the list in force has it (R125). -/
def State.stage (s : State) (n : Nat) : Option Stage := s.sensing.stages[n]?

/-- A stage of the list in force that is LIVE and of a kind (R147, R168). -/
def State.usableStage (s : State) (n : Nat) (kind : StageKind) : Option Stage :=
  match s.stage n with
  | none => none
  | some g => if g.state = .live ∧ g.cfg.kind = kind then some g else none

end Sys2Proof.Machine
end

