-- ==== Sys2Proof/Machine/Demand.lean ====
section
/-! DEFINITION. The demand computation of spec/04_station_targets_and_demand_computation.md, stages 1 to
8 (R56 to R66), on one axis. -/

namespace Sys2Proof.Machine

/-- A quotient rounded to the nearest whole number, a half away from zero (R56). -/
def roundDiv (n d : Int) : Int := n.sign * ((2 * (n.natAbs : Int) + d) / (2 * d))

/-- Stage 1 between two points (R56). -/
def interpolate (tk p tk1 p1 t : Int) : Int := p + roundDiv ((p1 - p) * (t - tk)) (tk1 - tk)

/-- The lower bound F of stage 2 (R57, R158). -/
def lowerBound (ax : AxisId) (cfg : AxisConfig) (zone : ZoneState) (floor : Int) : Int :=
  if ax = .el ∧ zone = .watch then min (max cfg.lmin floor) cfg.lmax else cfg.lmin

/-- What stage 2 gives: the limited demand and the two flags (R57). -/
structure Limited where
  demand : Int
  limited : Bool
  windFloor : Bool
  deriving DecidableEq, Repr

/-- Stage 2 (R57). -/
def limitDemand (cfg : AxisConfig) (bound d : Int) : Limited :=
  if d < bound then
    { demand := bound, limited := bound == cfg.lmin, windFloor := decide (cfg.lmin < bound) }
  else if cfg.lmax < d then { demand := cfg.lmax, limited := true, windFloor := false }
  else { demand := d, limited := false, windFloor := false }

/-- The root found bit by bit from the `k` lowest bits down, on top of `r`. -/
def isqrtFrom (n : Nat) : Nat → Nat → Nat
  | 0, r => r
  | k + 1, r => isqrtFrom n k (if (r + 2 ^ k) * (r + 2 ^ k) ≤ n then r + 2 ^ k else r)

/-- The floor integer square root of a 64-bit value (R58). -/
def isqrt (n : Nat) : Nat := isqrtFrom n 32 0

/-- The acceleration in µdeg per interval per interval (R58). -/
def AxisConfig.accel (cfg : AxisConfig) : Nat := cfg.amax / 2500

/-- Stage 4: the remaining distance bounded so that the axis can still stop (R58). -/
def brakingStep (accel : Nat) (r : Int) : Int :=
  r.sign * (min r.natAbs (isqrt (2 * accel * r.natAbs)) : Nat)

/-- The greatest step at a granted level (R60; without a grant a free value,
notes/assumptions/5.md). -/
def AxisConfig.stepLimit (cfg : AxisConfig) : Level → Nat
  | .slew => cfg.vmax / 50
  | .track => cfg.vmax / 500
  | .none => Config.stepWithoutGrant cfg.vmax

/-- Stages 4 to 6: the step towards a limited demand (R58 to R60). -/
def boundedStep (cfg : AxisConfig) (level : Level) (r s : Int) : Int :=
  let a : Int := cfg.accel
  let v : Int := cfg.stepLimit level
  clampInt (-v) v (clampInt (s - a) (s + a) (brakingStep cfg.accel r))

/-- Whether a commanded position is on-source of a limited demand (R63). -/
def withinWindow (cfg : AxisConfig) (d c : Int) : Bool := decide ((d - c).natAbs ≤ cfg.window)

/-- One expiry of an axis that is computed, towards the raw demand `d` (R57 to R63); an axis in
RELEASING does not move (R65). -/
def Axis.compute (ax : Axis) (cfg : AxisConfig) (bound : Int) (level : Level)
    (encoder : Option Int) (d : Int) : Axis :=
  let l := limitDemand cfg bound d
  let moves := ax.state != .releasing
  let free := ax.c + (if moves then boundedStep cfg level (l.demand - ax.c) ax.s else 0)
  let c := if moves then clampInt cfg.lmin cfg.lmax free else ax.c
  { ax with
    c := c, s := if moves then c - ax.c else 0, rate := if moves then 50 * (c - ax.c) else 0,
    limitedDemand := some l.demand, error := encoder.map (fun e => c - e),
    onSource := some (withinWindow cfg l.demand c), limited := l.limited || (moves && c != free),
    windFloor := l.windFloor, computed := true }

/-- One expiry of an axis that is not computed (R66). -/
def Axis.rest (ax : Axis) : Axis :=
  { ax with s := 0, rate := 0, limited := false, windFloor := false, computed := false }

end Sys2Proof.Machine
end

