-- ==== Sys2Proof/Machine/Axes.lean ====
section
/-! DEFINITION. The axis states (R69 to R76) as transitions of one axis record, the examination of R70,
the needs (R77), and the station's claim with its granted level (R78). -/

namespace Sys2Proof.Machine

/-! ### Entering a state -/

/-- The axis in a state, with what only other states hold removed (R54, R68, R76). -/
def Axis.enter (a : Axis) (st : AxisState) : Axis :=
  { a with state := st, reason := none, hold := none, holdIdle := none, releaseCount := none,
           releaseSeen := none, releaseSource := none }

/-- Entry into a state in which the axis is not computed: LIMITED and WIND_FLOOR are cleared (R66), the
error run count returns to 0 (R80). -/
def Axis.enterResting (a : Axis) (st : AxisState) : Axis :=
  { a.enter st with errorRun := 0, limited := false, windFloor := false }

/-- Entry into BRAKED: s becomes 0 (R74, R76). -/
def Axis.brake (a : Axis) : Axis := { a.enterResting .braked with s := 0 }

/-- Entry into STOWED: c is kept (R66, R70, R73). -/
def Axis.toStowed (a : Axis) : Axis := { a.enterResting .stowed with s := 0 }

/-- Entry into AWAITING_POWER (R70). -/
def Axis.toAwaiting (a : Axis) : Axis := a.enterResting .awaitingPower

/-- Entry into RELEASING (R71). -/
def Axis.toReleasing (a : Axis) (encoder : Int) : Axis :=
  { a.enter .releasing with
    c := encoder, s := 0, releaseCount := some 0, releaseSeen := some false, errorRun := 0 }

/-- Entry into HOLDING, with the hold-idle time in seconds (R76). -/
def Axis.toHolding (a : Axis) (seconds : Nat) : Axis :=
  { a.enter .holding with hold := some a.c, holdIdle := some (1000 * seconds) }

/-- Entry into FAULTED: step 1 of R79. -/
def Axis.toFaulted (a : Axis) (reason : AxisFault) : Axis :=
  { a.enterResting .faulted with reason := some reason, rate := 0, s := 0 }

/-! ### The examination of R70 -/

/-- Whether the stow target is met (R70). -/
def Axis.stowMet (a : Axis) (cfg : AxisConfig) (target : Int) : Bool :=
  decide (cfg.lmin ≤ a.c) && decide (a.c ≤ cfg.lmax) &&
    withinWindow cfg (limitDemand cfg cfg.lmin target).demand a.c

/-- The axis's component of a target. -/
def AxisId.of (ax : AxisId) (p : Int × Int) : Int :=
  match ax with
  | .az => p.1
  | .el => p.2

/-- Whether the link is UP and the latest report shows the amplifier ready (R70, step 1). -/
def Link.amplifier (l : Link) (ax : AxisId) : Bool :=
  l.up && (match l.report with
    | none => false
    | some r => r.ready ax)

/-- A BRAKED axis examined (R70); any other axis is left as it is. -/
def Axis.examine (a : Axis) (ax : AxisId) (cfg : AxisConfig) (target : Target) (link : Link) : Axis :=
  if a.state ≠ .braked ∨ target.source = .none ∨ link.amplifier ax = false then a
  else match target.source, target.stow with
    | .stow, some p => if a.stowMet cfg (AxisId.of ax p) then a.toStowed else a.toAwaiting
    | _, _ => a.toAwaiting

/-- An axis of a station examined. -/
def Station.examine (x : Station) (ax : AxisId) : Station :=
  x.modAxis ax (fun a => a.examine ax (x.cfg.axis ax) x.target x.link)

/-- Both axes of a station examined, AZ first. -/
def Station.examineBoth (x : Station) : Station := (x.examine .az).examine .el

/-! ### The answer to a change of source (R75) -/

/-- What an axis does at a change of its station's source to the given row of R49 (R75); the
examination of a BRAKED axis follows it. -/
def Axis.answerSource (a : Axis) (source : Source) (row seconds : Nat) : Axis :=
  match source with
  | .none =>
    if row = 1 then a
    else match a.state with
      | .awaitingPower | .stowed => a.brake
      | .slewing | .catchingUp | .tracking | .stowing => a.toHolding seconds
      | .retired | .braked | .releasing | .holding | .faulted => a
  | .stow =>
    match a.state with
    | .slewing | .catchingUp | .tracking | .holding => a.enter .stowing
    | .retired | .braked | .awaitingPower | .releasing | .stowing | .stowed | .faulted => a
  | .book | .sweep | .shed =>
    match a.state with
    | .holding | .stowing => a.enter .tracking
    | .stowed => a.brake
    | .retired | .braked | .awaitingPower | .releasing | .slewing | .catchingUp | .tracking
      | .faulted => a

/-! ### Leaving RELEASING and the moves of an expiry (R72, R73) -/

/-- The state in which a RELEASING axis leaves RELEASING (R72). -/
def Axis.release (a : Axis) (source : Source) (level : Level) (seconds : Nat) : Axis :=
  if source = .stow then a.enter .stowing
  else if source = .none then a.toHolding seconds
  else if a.onSource = some true then a.enter .tracking
  else match level with
    | .slew => a.enter .slewing
    | .track => a.enter .catchingUp
    | .none => a

/-- Whether a RELEASING axis has been given a verdict since it entered RELEASING (R72). -/
def Axis.judged (a : Axis) : Bool :=
  match a.releaseCount with
  | none => false
  | some n => decide (0 < n)

/-- The moves of R73 on the expiry's verdict. -/
def Axis.advance (a : Axis) (level : Level) : Axis :=
  let on := a.onSource == some true
  match a.state with
  | .slewing | .catchingUp => if on then a.enter .tracking else a
  | .tracking =>
    if on then a
    else match level with
      | .slew => a.enter .slewing
      | .track => a.enter .catchingUp
      | .none => a
  | .stowing => if on && a.s == 0 then a.toStowed else a
  | .retired | .braked | .awaitingPower | .releasing | .holding | .stowed | .faulted => a

/-- The tracking monitor on a moving axis (R80): the new error run count, and whether the axis faults. -/
def Axis.monitor (a : Axis) (limit : Nat) : Axis × Bool :=
  match a.error with
  | none => ({ a with errorRun := 0 }, false)
  | some e =>
    if e.natAbs ≤ limit then ({ a with errorRun := 0 }, false)
    else if a.errorRun + 1 < Config.errorRunLimit then
      ({ a with errorRun := a.errorRun + 1 }, false)
    else (a, true)

/-! ### Need, claim and granted level (R77, R78) -/

/-- The need of an axis (R77; notes/assumptions/10.md). -/
def Axis.needNow (a : Axis) : Level :=
  match a.state with
  | .awaitingPower | .slewing | .catchingUp => .slew
  | .releasing => if a.judged && a.onSource == some true then .track else .slew
  | .stowing => if a.onSource = some true then .track else .slew
  | .tracking | .holding => .track
  | .retired | .braked | .stowed | .faulted => .none

/-- A figure of R78 summed over the axes that a condition picks. -/
def Station.sumOver (x : Station) (pick : Axis → Bool) (watts : AxisConfig → Nat) : Nat :=
  (if pick x.az then watts x.cfg.az else 0) + (if pick x.el then watts x.cfg.el else 0)

/-- The level wanted (R77). -/
def Level.ofNeeds (a b : Level) : Level :=
  if a = .slew ∨ b = .slew then .slew else if a = .track ∨ b = .track then .track else .none

/-- The granted level for the granted watts (R78). -/
def Station.levelFor (x : Station) (granted : Nat) : Level :=
  if granted = 0 then .none
  else if x.sumOver (fun a => a.state.powered) AxisConfig.slewWatts ≤ granted then .slew
  else .track

/-- The needs, the claim and the granted level formed again (R77, R78). -/
def Station.reform (x : Station) : Station :=
  let x := { x with az := { x.az with need := x.az.needNow },
                    el := { x.el with need := x.el.needNow } }
  let wants := fun a : Axis => decide (a.need ≠ .none)
  let track := x.sumOver wants AxisConfig.trackWatts
  let level := Level.ofNeeds x.az.need x.el.need
  let wanted := match level with
    | .slew => x.sumOver wants AxisConfig.slewWatts
    | .track => track
    | .none => 0
  { x with claim := {
      cls := if x.target.source = .stow then .stow else .move, level := level, wanted := wanted,
      track := track, granted := x.claim.granted,
      grantedLevel := x.levelFor x.claim.granted } }

/-- Whether two claims are the same to PB: class, level wanted, watts wanted and track figure (R78). -/
def ClaimRecord.same (a b : ClaimRecord) : Bool :=
  a.cls == b.cls && a.level == b.level && a.wanted == b.wanted && a.track == b.track

/-- The claim formed again and, where it changed, handed to PB within the same event (R78). -/
def State.formClaim (k : Settle) (st : StationId) (s : State) : State :=
  let old := (s.station st).claim
  let s := s.modStation st Station.reform
  let new := (s.station st).claim
  if old.same new then s
  else k (s.leave (.drive st { cls := new.cls, wanted := new.wanted, track := new.track }))

/-- Whether an axis awaits power in the second station record and not in the first. -/
def Station.newlyAwaiting (before after : Station) : Bool :=
  (after.az.state == .awaitingPower && before.az.state != .awaitingPower) ||
    (after.el.state == .awaitingPower && before.el.state != .awaitingPower)

/-- A change of a station's axes followed by its claim, formed once for the station, and by the
judgement of R71 where an axis entered AWAITING_POWER. -/
def State.changeAxes (k : Settle) (st : StationId) (f : Station → Station) (s : State) : State :=
  let before := s.station st
  let s := s.modStation st f
  let waits := before.newlyAwaiting (s.station st)
  let s := s.formClaim k st
  if waits then k (s.leave (.awaiting st)) else s

end Sys2Proof.Machine
end

