-- ==== Sys2Proof/Machine/Targets.lean ====
section
/-! DEFINITION. The target source of a station: the decision of R49, the record with its captured targets
(R50, R52, R53), the answer of the two axes (R75) and the shed order of HC that is one of its inputs
(R181). -/

namespace Sys2Proof.Machine

/-- Whether a sweep table that is RUNNING or SETTLING holds the station with a fixed target (R49,
row 4). -/
def State.sweepHeld (s : State) (st : StationId) : Bool :=
  match (s.station st).hold with
  | none => false
  | some h => (s.table h.table).state.runs

/-- The first row of R49's table whose condition holds. -/
def State.sourceOf (s : State) (st : StationId) : Source × Nat :=
  let x := s.station st
  if x.retired || x.motionBlocked then (.none, 1)
  else if (s.zone x.cfg.zone).state.stows then (.stow, 2)
  else if x.serviceHeld then (.none, 3)
  else if s.sweepHeld st then (.sweep, 4)
  else if (x.bookIn .running).isSome then (.book, 5)
  else if x.shedOrder then (.shed, 6)
  else (.none, 7)

/-- The target record with a new source and row: a target of the old source is removed, and STOW and
SHED capture a new one where the source is new (R50, R52, R53). -/
def Station.retarget (x : Station) (source : Source) (row : Nat) : Target :=
  let kept := x.target.source = source
  { source := source, row := row,
    stow := if source = .stow then
        (if kept then x.target.stow else some (x.az.c, x.cfg.stowEl))
      else none,
    shed := if source = .shed then
        (if kept then x.target.shed else some (x.az.c, x.cfg.shedEl))
      else none }

/-- The station's two axes answer a change of its source (R75), AZ first; NONE from row 1 leaves them as
the rule that blocked the station left them. -/
def Station.answerSource (x : Station) (source : Source) (row : Nat) : Station :=
  let x := { x with az := x.az.answerSource source row x.cfg.holdIdle,
                    el := x.el.answerSource source row x.cfg.holdIdle }
  if source = .none ∧ row = 1 then x else x.examineBoth

/-- TE decides a station's source again (R50) and its axes answer (R75); the station's claim is formed
again and an axis that entered AWAITING_POWER is judged by R71. A retired station's record is not
decided again (R48). -/
def State.decideSource (k : Settle) (st : StationId) (s : State) : State :=
  let x := s.station st
  let d := s.sourceOf st
  if x.retired ∨ (x.target.source = d.1 ∧ x.target.row = d.2) then s
  else s.changeAxes k st (fun x =>
    { x with target := x.retarget d.1 d.2 }.answerSource d.1 d.2)

/-- The station's two axes answer the change of its source that a CONFIGURE_STATION makes: a STOWED axis
stays STOWED (R84), until the next change of source (notes/assumptions/43.md); any other answers by R75. -/
def Station.answerConfigured (x : Station) (source : Source) (row : Nat) : Station :=
  let answers (a : Axis) := if a.state = .stowed then a else a.answerSource source row x.cfg.holdIdle
  let x := { x with az := answers x.az, el := answers x.el }
  if source = .none ∧ row = 1 then x else x.examineBoth

/-- TE decides a station's source again at the take of a CONFIGURE_STATION (R84); otherwise as
`State.decideSource`. -/
def State.redecideSource (k : Settle) (st : StationId) (s : State) : State :=
  let x := s.station st
  let d := s.sourceOf st
  if x.retired ∨ (x.target.source = d.1 ∧ x.target.row = d.2) then s
  else s.changeAxes k st (fun x =>
    { x with target := x.retarget d.1 d.2 }.answerConfigured d.1 d.2)

/-- The stage that one of a station's references names, where it is usable (R168). -/
def State.refStage (s : State) (ref : Option Nat) (kind : StageKind) : Option Stage :=
  match ref with
  | none => none
  | some n => s.usableStage n kind

/-- A usable stage that shows a flag (R168). -/
def Stage.shows (g : Option Stage) (flag : Stage → Bool) : Bool :=
  match g with
  | none => false
  | some g => flag g

/-- The four conditions of a shed order (R181); a retired station is given none (R182). -/
def State.shedConditions (s : State) (st : StationId) : Bool :=
  let x := s.station st
  let zone := (s.zone x.cfg.zone).state
  !x.retired && x.reflector.state == .on && x.reflector.onRunOut && !x.reflector.tiltUsed &&
    Stage.shows (s.refStage x.cfg.snow .snowLoad) Stage.high &&
    (x.bookIn .running).isNone && x.hold.isNone && (zone == .calm || zone == .unwatched)

/-- A shed order withdrawn, with the tilt-used mark set (R181). -/
def Station.withdrawShed (x : Station) : Station :=
  { x with shedOrder := false, reflector := { x.reflector with tiltUsed := true } }

/-- HC judges the shed order of a station (R181): given when all conditions hold, withdrawn, with the
tilt-used mark set, as soon as one fails; a change is handed to target selection (R50). -/
def State.judgeShed (k : Settle) (st : StationId) (s : State) : State :=
  let x := s.station st
  let holds := s.shedConditions st
  if x.shedOrder = holds then s
  else if holds then (s.modStation st (fun x => { x with shedOrder := true })).decideSource k st
  else (s.modStation st Station.withdrawShed).decideSource k st

/-- An input of both decisions has changed: a book entered or left RUNNING (R42, R50, R181), or a sweep
hold was set, changed or cleared (R116, R50, R181). Which of the two decisions one event reaches first is
open: the source is decided first, so that a station followed by a shed order passes through the source
that stands without its book or hold (DESIGN CHOICE; notes/assumptions/39.md). -/
def State.inputChanged (k : Settle) (st : StationId) (s : State) : State :=
  (s.decideSource k st).judgeShed k st

end Sys2Proof.Machine
end

