-- ==== Sys2Proof/Machine/Heaters.lean ====
section
/-! DEFINITION. HC (spec/10_snow_and_ice_melting.md): the heat call, classes and current limits, the
transitions of a heater zone with its heat claim, faults, shedding, blocking, and the judgement of the
auto demand. -/

namespace Sys2Proof.Machine

/-! ### Classes and the heat call (R165, R171) -/

/-- Class watts (R171). -/
def HeatClass.watts : HeatClass → Nat
  | .a => 2000
  | .b => 4000
  | .c => 6000

/-- Rated current in 0.01 A (R171). -/
def HeatClass.rated : HeatClass → Nat
  | .a => 500
  | .b => 1000
  | .c => 1500

/-- The verdict on a resistance in 0.1 Ω (R171). -/
def Verdict.of (r : Nat) : Verdict :=
  if r < 20 then .short
  else if 230 ≤ r ∧ r ≤ 300 then .good .c
  else if 350 ≤ r ∧ r ≤ 450 then .good .b
  else if 700 ≤ r ∧ r ≤ 900 then .good .a
  else if 4000 < r then .open
  else .invalid

/-- Whether the latest current stands above a percentage of the rated current. -/
def Heater.above (h : Heater) (percent : Nat) : Bool :=
  match h.cls with
  | none => true
  | some cls => decide (percent * cls.rated < 100 * h.current)

/-- Whether the latest current stands below a percentage of the rated current. -/
def Heater.below (h : Heater) (percent : Nat) : Bool :=
  match h.cls with
  | none => true
  | some cls => decide (100 * h.current < percent * cls.rated)

/-- A zone's heat call (R165). -/
def Heater.call (h : Heater) : Bool :=
  match h.mode with
  | .off => false
  | .manual => h.manual
  | .auto => h.auto || h.meltOff.isSome

/-- The states in which a zone holds a heat claim (R164). -/
def HeatState.claims : HeatState → Bool
  | .waitingPower | .energizing | .on | .shed => true
  | .off | .idle | .probing | .ready | .cooldown | .latched => false

/-- The states in which the contactor is commanded closed (R164). -/
def HeatState.closed : HeatState → Bool
  | .energizing | .on => true
  | .off | .idle | .probing | .ready | .waitingPower | .shed | .cooldown | .latched => false

/-- Whether a station may probe or claim: it is not blocked, its link is UP, and it is not retired (R170,
R173, R182). -/
def Station.mayHeat (x : Station) : Bool := !x.heatBlocked && x.link.up && !x.retired

/-! ### Entering a state -/

/-- The timers of a run of heating stopped: energize window, overload, open element, ON-run (R169,
R178). -/
def Heater.stopRun (h : Heater) : Heater :=
  { h with energize := none, overload := none, openElement := none, onRun := none, onRunOut := false }

/-- Every timer stopped (R166, R176). -/
def Heater.stopAll (h : Heater) : Heater :=
  { h.stopRun with probeWindow := none, cooldown := none, meltOff := none }

/-- Dropped to IDLE by blocking or link loss (R179, R180): the states that stay are left. -/
def Heater.drop (h : Heater) : Heater :=
  match h.state with
  | .probing | .ready | .waitingPower | .energizing | .on | .shed =>
    { h.stopRun with
      state := .idle, cls := none, probeWindow := none, meltOff := none, probeNamed := false }
  | .off | .idle | .cooldown | .latched => h

/-- The answer of a zone to the end of its heat call (R169). -/
def Heater.endCall (h : Heater) : Heater :=
  match h.state with
  | .waitingPower | .energizing | .on | .shed => { h.stopRun with state := .ready }
  | .off | .idle | .probing | .ready | .cooldown | .latched => h

/-- Entry into ENERGIZING (R173). -/
def Heater.toEnergizing (h : Heater) : Heater :=
  { h with state := .energizing, energize := some Config.energizeWindow, overload := none,
           openElement := none }

/-- Entry into ON at the end of the start window (R174). -/
def Heater.toOn (h : Heater) (area : Area) : Heater :=
  let h := { h with state := .on, energize := none, faultCount := 0 }
  match area with
  | .reflector => { h with onRun := some Config.onRunTime, onRunOut := false, tiltUsed := false }
  | .feed => h

/-- Mode OFF (R166): the last probe is kept. -/
def Heater.toOff (h : Heater) : Heater :=
  { h.stopAll with
    mode := .off, state := .off, cls := none, probeNamed := false, faultCount := 0,
    lastFault := none, manual := false, auto := false, sensorMissing := false }

/-- Steps 1, 3 and 4 of a fault (R176). -/
def Heater.toFault (h : Heater) (reason : HeatFault) (now : Nat) : Heater :=
  let h := { h.stopAll with
    cls := none, probeNamed := false, faultCount := h.faultCount + 1,
    lastFault := some (reason, now) }
  if h.faultCount = 3 then { h with state := .latched }
  else { h with state := .cooldown, cooldown := some Config.cooldownTime }

/-- The current judgements of a report in ON that fault nothing: the overload and open-element timers
(R175). -/
def Heater.judgeTimers (h : Heater) : Heater :=
  { h with
    overload := if h.above 125 then h.overload.or (some Config.overloadTime) else none,
    openElement := if h.below 50 then h.openElement.or (some Config.openElementTime) else none }

/-! ### Transitions with the zone's claim -/

/-- A change of a zone's record with what follows from it: the probe request is withdrawn when the zone
leaves PROBING and stood when it enters it (R27, R170), its heat claim is made or withdrawn when it
enters or leaves the states of R164 that hold one (R94; the state is changed first,
notes/assumptions/11.md), and a change of a REFLECTOR zone's state is a judgement of the shed order
(R181), made after PB has settled the claim (DESIGN CHOICE; notes/assumptions/58.md). -/
def State.changeHeater (k : Settle) (st : StationId) (area : Area) (f : Heater → Heater)
    (s : State) : State :=
  let before := (s.station st).heater area
  let s := s.modHeater st area f
  let after := (s.station st).heater area
  let s := s.modStation st (fun x => { x with
    probeQueue :=
      if after.state = .probing then
        (if before.state = .probing then x.probeQueue else x.probeQueue.erase area ++ [area])
      else x.probeQueue.erase area })
  let s :=
    if before.state.claims && !after.state.claims then k (s.leave (.heatWithdraw st area))
    else match after.cls with
      | some cls =>
        if !before.state.claims && after.state.claims then k (s.leave (.heat st area cls.watts))
        else s
      | none => s
  if area = .reflector ∧ before.state ≠ after.state then s.judgeShed k st else s

/-- A READY zone judged for a claim (R173). -/
def State.judgeClaim (k : Settle) (st : StationId) (area : Area) (s : State) : State :=
  let h := (s.station st).heater area
  if h.state = .ready ∧ h.call = true ∧ (s.station st).mayHeat = true then
    s.changeHeater k st area (fun h => { h with state := .waitingPower })
  else s

/-- An IDLE zone judged for a probe (R170). -/
def State.judgeProbe (k : Settle) (st : StationId) (area : Area) (s : State) : State :=
  let h := (s.station st).heater area
  if h.state = .idle ∧ h.call = true ∧ (s.station st).mayHeat = true then
    s.changeHeater k st area (fun h => { h with state := .probing, probeNamed := false })
  else s

/-- A zone judged at a rise of its heat call or at the removal of the last blocking tag (R170, R173). -/
def State.judgeHeat (k : Settle) (st : StationId) (area : Area) (s : State) : State :=
  (s.judgeProbe k st area).judgeClaim k st area

/-- Both zones of a station judged, REFLECTOR first, each whole before the other (R170). -/
def State.judgeHeatBoth (k : Settle) (st : StationId) (s : State) : State :=
  (s.judgeHeat k st .reflector).judgeHeat k st .feed

/-- A change of what the heat call follows from: a rise is judged by R170 and R173, an end is answered
by R169. -/
def State.changeCall (k : Settle) (st : StationId) (area : Area) (f : Heater → Heater)
    (s : State) : State :=
  let before := ((s.station st).heater area).call
  let s := s.modHeater st area f
  let after := ((s.station st).heater area).call
  if before = after then s
  else if after then s.judgeHeat k st area
  else s.changeHeater k st area Heater.endCall

/-- A heater fault (R176): `value` is the resistance or current concerned. -/
def State.faultHeater (k : Settle) (st : StationId) (area : Area) (reason : HeatFault)
    (value : Nat) (s : State) : State :=
  let now := s.now
  let s := s.changeHeater k st area (fun h => h.toFault reason now)
  let s := s.modStation st (fun x =>
    { x with lastHeat := some { reason := reason, area := area, value := value, time := now } })
  s.bump (.heatFaults st)

/-- The station's heater zones dropped, REFLECTOR first (R179, R180). -/
def State.dropHeat (k : Settle) (st : StationId) (s : State) : State :=
  (s.changeHeater k st .reflector Heater.drop).changeHeater k st .feed Heater.drop

/-- A change of a zone's granted watts that PB reports (R173, R178). -/
def State.heatGrant (k : Settle) (st : StationId) (area : Area) (watts : Nat) (s : State) : State :=
  match ((s.station st).heater area).state with
  | .waitingPower | .shed =>
    if watts = 0 then s else s.changeHeater k st area Heater.toEnergizing
  | .energizing | .on =>
    if watts = 0 then s.changeHeater k st area (fun h => { h.stopRun with state := .shed }) else s
  | .off | .idle | .probing | .ready | .cooldown | .latched =>
    if watts = 0 then s else k (s.leave (.heatWithdraw st area))

/-! ### Reports (R172, R174, R175) -/

/-- A zone judges a good report: its current is stored, then judged in ENERGIZING and in ON. -/
def State.reportCurrent (k : Settle) (st : StationId) (area : Area) (current : Nat) (s : State) :
    State :=
  let s := s.modHeater st area (fun h => { h with current := current })
  let h := (s.station st).heater area
  match h.state with
  | .energizing => if h.above 160 then s.faultHeater k st area .startFault current else s
  | .on =>
    if h.above 160 then s.faultHeater k st area .currentLimit current
    else s.modHeater st area Heater.judgeTimers
  | .off | .idle | .probing | .ready | .waitingPower | .shed | .cooldown | .latched => s

/-- The fault of a bad verdict (R172). -/
def Verdict.fault : Verdict → Option HeatFault
  | .good _ => none
  | .short => some .short
  | .open => some .open
  | .invalid => some .invalid

/-- A probe result that DL hands to HC (R172). -/
def State.probeResult (k : Settle) (st : StationId) (area : Area) (resistance : Nat) (s : State) :
    State :=
  let h := (s.station st).heater area
  if h.state = .probing ∧ h.probeNamed = true then
    let verdict := Verdict.of resistance
    let s := s.modHeater st area (fun h =>
      { h with lastProbe := some (resistance, verdict), probeWindow := none })
    match verdict with
    | .good cls =>
      (s.changeHeater k st area (fun h =>
        { h with state := .ready, cls := some cls, probeNamed := false })).judgeClaim k st area
    | .short => s.faultHeater k st area .short resistance
    | .open => s.faultHeater k st area .open resistance
    | .invalid => s.faultHeater k st area .invalid resistance
  else s

/-! ### The auto demand (R168, R169) -/

/-- Whether a reference is present and not usable. -/
def State.refMissing (s : State) (ref : Option Nat) (kind : StageKind) : Bool :=
  ref.isSome && (s.refStage ref kind).isNone

/-- The auto demand of a zone and its SENSOR_MISSING flag (R168). -/
def State.autoDemand (s : State) (st : StationId) (area : Area) : Bool × Bool :=
  let c := (s.station st).cfg
  let cold := Stage.shows (s.refStage c.surface .surfaceTemp) Stage.low
  match area with
  | .reflector =>
    (Stage.shows (s.refStage c.snow .snowLoad) Stage.high ||
      (cold && Stage.shows (s.refStage c.precip .precip) Stage.high),
     s.refMissing c.snow .snowLoad || s.refMissing c.surface .surfaceTemp ||
      s.refMissing c.precip .precip)
  | .feed => (cold, s.refMissing c.surface .surfaceTemp)

/-- An auto demand set; its end in ON starts the melt-off timer unless it runs, its rise stops it
(R169). -/
def Heater.setAuto (h : Heater) (demand missing : Bool) : Heater :=
  { h with
    auto := demand, sensorMissing := missing,
    meltOff := if demand then none
      else if h.auto && h.state == .on then h.meltOff.or (some Config.meltOffTime)
      else h.meltOff }

/-- The judgement of the auto demand of an AUTO zone (R168) with what follows from its change (R169,
R170, R173). -/
def State.judgeAuto (k : Settle) (st : StationId) (area : Area) (s : State) : State :=
  if ((s.station st).heater area).mode = .auto ∧ (s.station st).retired = false then
    let d := s.autoDemand st area
    s.changeCall k st area (fun h => h.setAuto d.1 d.2)
  else s

/-- HC's judgements at a pass end for one station: its two zones, then its shed order (R168, R181), each
station whole before the next (DESIGN CHOICE; notes/assumptions/49.md). -/
def State.heatPassEnd (k : Settle) (st : StationId) (s : State) : State :=
  ((s.judgeAuto k st .reflector).judgeAuto k st .feed).judgeShed k st

end Sys2Proof.Machine
end

