-- ==== Sys2Proof/Machine/Power.lean ====
section
/-! DEFINITION. PB (spec/06_feeder_power_budget.md): the two lists, taking a claim (R92 to R94), granting
and shedding (R95, R96), revocation (R97 to R99), and one whole change (R100) up to its tallies. -/

namespace Sys2Proof.Machine

/-! ### The lists (R90, R91) -/

/-- The rank of a class (R91). -/
def ClaimClass.rank : ClaimClass → Nat
  | .stow => 1
  | .move => 2
  | .heat => 3

/-- A waiting entry placed at the back of its rank (R91). -/
def Waiting.place (e : Waiting) (l : List Waiting) : List Waiting :=
  l.takeWhile (fun w => decide (w.cls.rank ≤ e.cls.rank)) ++
    e :: l.dropWhile (fun w => decide (w.cls.rank ≤ e.cls.rank))

/-- The waiting list without a claimant's entry. -/
def Waiting.drop (c : Claimant) (l : List Waiting) : List Waiting :=
  l.filter (fun w => w.claimant != c)

/-- A claimant's entry replaced by one of the given class and addition at the back of its rank; an
addition is always above 0 (R91). -/
def Waiting.replace (c : Claimant) (cls : ClaimClass) (addition : Nat) (l : List Waiting) :
    List Waiting :=
  if addition = 0 then Waiting.drop c l
  else Waiting.place { claimant := c, cls := cls, addition := addition } (Waiting.drop c l)

/-- The entry of a claimant. -/
def Waiting.find (c : Claimant) (l : List Waiting) : Option Waiting :=
  l.find? (fun w => w.claimant == c)

/-- The grant list without a claimant's entry. -/
def Grants.drop (c : Claimant) (l : List Grant) : List Grant := l.filter (fun g => g.claimant != c)

/-- A claimant's watts set in place; an entry whose watts fall to 0 is removed (R90). -/
def Grants.set (c : Claimant) (watts : Nat) (l : List Grant) : List Grant :=
  if watts = 0 then Grants.drop c l
  else l.map (fun g => if g.claimant = c then { g with watts := watts } else g)

/-- A further grant: a claimant's entry rises in place, or a new entry joins the back (R90, R95). -/
def Grants.raise (w : Waiting) (l : List Grant) : List Grant :=
  if l.any (fun g => g.claimant == w.claimant) then
    l.map (fun g => if g.claimant = w.claimant then { g with watts := g.watts + w.addition } else g)
  else l ++ [{ claimant := w.claimant, cls := w.cls, watts := w.addition }]

/-- A claimant's entry takes a class in place (R93). -/
def Grants.convert (c : Claimant) (cls : ClaimClass) (l : List Grant) : List Grant :=
  l.map (fun g => if g.claimant = c then { g with cls := cls } else g)

/-! ### One change under way -/

/-- What a change has done so far: PB, the tallies it raised, and the claimants whose grants it
changed, each in the order made. -/
structure PowerRun where
  power : Power
  tallies : List Tally
  touched : List Claimant
  deriving DecidableEq, Repr

/-- A claimant's grant has changed; it is reported once, with the final figure and at the place of its first
change (R100; for a grant that falls and then rises, DESIGN CHOICE, notes/assumptions/44.md). -/
def PowerRun.touch (r : PowerRun) (c : Claimant) : PowerRun :=
  { r with touched := if c ∈ r.touched then r.touched else r.touched ++ [c] }

/-- The last power event and its tally (R101). -/
def PowerRun.record (r : PowerRun) (e : PowerEvent) (t : Tally) : PowerRun :=
  { r with power := { r.power with last := some e }, tallies := r.tallies ++ [t] }

/-- One heat grant shed, for stow (R96) or for budget (R97): removed, waiting again at the back of rank
3, recorded and counted. -/
def PowerRun.shed (now : Nat) (kind : PowerKind) (g : Grant) (r : PowerRun) : PowerRun :=
  let p := r.power
  let r := { r with power := { p with
    grants := Grants.drop g.claimant p.grants,
    waiting := Waiting.replace g.claimant .heat g.watts p.waiting } }
  (r.touch g.claimant).record
    { kind := kind, claimant := g.claimant, watts := g.watts, time := now } .sheds

/-- The newest heat grant (R90, R96). -/
def Grants.newestHeat (l : List Grant) : Option Grant :=
  l.reverse.find? (fun g => g.cls == .heat)

/-- The head of the waiting list granted (R95). -/
def PowerRun.grant (w : Waiting) (rest : List Waiting) (r : PowerRun) : PowerRun :=
  let p := r.power
  ({ r with power := { p with grants := Grants.raise w p.grants, waiting := rest } }).touch
    w.claimant

/-- A granting round (R95, R96). Every turn grants the head or sheds a heat grant, so the turns of a
round are at most `Power.turns`. -/
def PowerRun.round (now : Nat) : Nat → PowerRun → PowerRun
  | 0, r => r
  | fuel + 1, r =>
    match r.power.waiting with
    | [] => r
    | w :: rest =>
      if r.power.total + w.addition ≤ r.power.inForce then
        PowerRun.round now fuel (r.grant w rest)
      else if w.cls = .stow then
        match Grants.newestHeat r.power.grants with
        | none => r
        | some g => PowerRun.round now fuel (r.shed now .shedForStow g)
      else r

/-- The greatest number of turns of a round. -/
def Power.turns (p : Power) : Nat := 2 * p.grants.length + p.waiting.length + 1

/-! ### Revocation (R97 to R99) -/

/-- The claim that PB last took from a station; a heater zone has none. -/
def Power.claim (p : Power) : Claimant → DriveClaim
  | .station st => p.claims[st]
  | .heater _ _ => DriveClaim.none

/-- One whole grant revoked (R99). -/
def PowerRun.revokeWhole (now : Nat) (kind : PowerKind) (g : Grant) (r : PowerRun) : PowerRun :=
  let p := r.power
  let r := { r with power := { p with
    grants := Grants.drop g.claimant p.grants,
    waiting := Waiting.replace g.claimant g.cls (p.claim g.claimant).wanted p.waiting } }
  (r.touch g.claimant).record
    { kind := kind, claimant := g.claimant, watts := g.watts, time := now } .revocations

/-- The SLEW-minus-TRACK part of one grant revoked (R98). -/
def PowerRun.revokeSlew (now : Nat) (g : Grant) (r : PowerRun) : PowerRun :=
  let p := r.power
  let claim := p.claim g.claimant
  let r := { r with power := { p with
    grants := Grants.set g.claimant claim.track p.grants,
    waiting := Waiting.replace g.claimant .move (claim.wanted - claim.track) p.waiting } }
  (r.touch g.claimant).record
    { kind := .slewPart, claimant := g.claimant, watts := g.watts - claim.track, time := now }
    .revocations

/-- One step of a revocation over the grants it may take, newest first: it stops as soon as the granted
total is at most the budget in force. -/
def PowerRun.revokeStep (act : Grant → PowerRun → PowerRun) : List Grant → PowerRun → PowerRun
  | [], r => r
  | g :: rest, r =>
    if r.power.total ≤ r.power.inForce then r else PowerRun.revokeStep act rest (act g r)

/-- The grants that a step may take, newest first. -/
def PowerRun.newest (r : PowerRun) (f : Grant → Bool) : List Grant :=
  r.power.grants.reverse.filter f

/-- The four steps (R97 to R99). -/
def PowerRun.revoke (now : Nat) (r : PowerRun) : PowerRun :=
  let r := PowerRun.revokeStep (PowerRun.shed now .shedForBudget)
    (r.newest (fun g => g.cls == .heat)) r
  let r := PowerRun.revokeStep (PowerRun.revokeSlew now)
    (r.newest (fun g => g.cls == .move && decide ((r.power.claim g.claimant).track < g.watts))) r
  let r := PowerRun.revokeStep (PowerRun.revokeWhole now .wholeMove)
    (r.newest (fun g => g.cls == .move)) r
  PowerRun.revokeStep (PowerRun.revokeWhole now .wholeStow)
    (r.newest (fun g => g.cls == .stow)) r

/-! ### Taking a claim (R92 to R94) -/

/-- A drive claim taken (R92): its class is converted first (R93), so a waiting entry of another class
goes to the back of the new rank with the addition of this rule. -/
def PowerRun.takeDrive (st : StationId) (claim : DriveClaim) (r : PowerRun) : PowerRun :=
  let c := Claimant.station st
  let p := r.power
  let held := p.granted c
  let grants := Grants.convert c claim.cls p.grants
  if claim.wanted = 0 then
    let r := { r with power := { p with
      grants := Grants.drop c p.grants,
      waiting := Waiting.drop c p.waiting, claims := p.claims.set st DriveClaim.none } }
    if held = 0 then r else r.touch c
  else
    let p := { p with claims := p.claims.set st claim }
    if claim.wanted ≤ held then
      let r := { r with power := { p with
        grants := Grants.set c claim.wanted grants,
        waiting := Waiting.drop c p.waiting } }
      if claim.wanted = held then r else r.touch c
    else
      let addition := claim.wanted - held
      let waiting := match Waiting.find c p.waiting with
        | none => Waiting.replace c claim.cls addition p.waiting
        | some w =>
          if w.cls = claim.cls ∧ addition ≤ w.addition then
            p.waiting.map (fun v => if v.claimant = c then { v with addition := addition } else v)
          else Waiting.replace c claim.cls addition p.waiting
      { r with power := { p with grants := grants, waiting := waiting } }

/-- A heat claim made (R94). -/
def PowerRun.takeHeat (st : StationId) (area : Area) (watts : Nat) (r : PowerRun) : PowerRun :=
  let c := Claimant.heater st area
  { r with power := { r.power with
    waiting := Waiting.replace c .heat (watts - r.power.granted c) r.power.waiting } }

/-- A heat claim withdrawn (R94). -/
def PowerRun.dropHeat (st : StationId) (area : Area) (r : PowerRun) : PowerRun :=
  let c := Claimant.heater st area
  let held := r.power.granted c
  let r := { r with power := { r.power with
    grants := Grants.drop c r.power.grants, waiting := Waiting.drop c r.power.waiting } }
  if held = 0 then r else r.touch c

/-- Steps 1 and 2 of one whole change (R100): it is applied, a budget below the granted total revokes,
and a granting round runs where the change altered a list or the budget (R87, R95;
notes/assumptions/9.md). -/
def Power.change (now : Nat) (w : Work) (p : Power) : PowerRun :=
  let start : PowerRun := { power := p, tallies := [], touched := [] }
  let applied := match w with
    | .drive st claim => start.takeDrive st claim
    | .heat st area watts => start.takeHeat st area watts
    | .heatWithdraw st area => start.dropHeat st area
    | .budget => if p.inForce < p.total then start.revoke now else start
    | .awaiting _ => start
  let same := applied.power.grants = p.grants ∧ applied.power.waiting = p.waiting
  if same ∧ w ≠ .budget then applied
  else applied.round now applied.power.turns

/-- One whole change up to its reports: the power status is rewritten with the event (R2), the tallies
are incremented in the order made (R100). -/
def State.powerChange (s : State) (w : Work) : State × List Claimant :=
  let r := s.power.change s.now w
  (r.tallies.foldl State.bump (s.modPower (fun _ => r.power)), r.touched)

end Sys2Proof.Machine
end

