-- ==== Sys2Proof/Machine/Books.lean ====
section
/-! DEFINITION. TE's track books (spec/03_track_books.md): reading points and headers from exchange
memory, the checks of R34 and R41, starting (R38), reading at an expiry (R39 to R41), engagement (R43)
and the acceptance of an arming (R35, R36). -/

namespace Sys2Proof.Machine

/-! ### Points and headers in exchange memory (R197) -/

/-- A point of a book. -/
structure Point where
  time : Nat
  az : Int
  el : Int
  deriving DecidableEq, Repr

/-- The time of a point. -/
def Memory.pointTime (m : Mem) (st : StationId) (l : Letter) (i : Nat) : Nat :=
  Memory.nat m (Layout.point st l i) 6

/-- A point as it stands in exchange memory. -/
def Memory.point (m : Mem) (st : StationId) (l : Letter) (i : Nat) : Point :=
  { time := Memory.pointTime m st l i, az := Memory.int m (Layout.point st l i + 6) 4,
    el := Memory.int m (Layout.point st l i + 10) 4 }

/-- The book number of a header: the spare word of slot 0. -/
def Memory.bookNumber (m : Mem) (st : StationId) (l : Letter) : Nat :=
  Memory.nat m (Layout.point st l 0 + 14) 2

/-- The point count of a header: the spare word of slot 1. -/
def Memory.pointCount (m : Mem) (st : StationId) (l : Letter) : Nat :=
  Memory.nat m (Layout.point st l 1 + 14) 2

/-! ### Checks (R34) -/

/-- AZ_RANGE, then EL_RANGE. -/
def Point.range (p : Point) : Option BookReason :=
  if p.az < -270000000 ∨ 270000000 < p.az then some .azRange
  else if p.el < 0 ∨ 92000000 < p.el then some .elRange
  else none

/-- SPACING from the previous point's time. -/
def Point.spacing (p : Point) (previous : Nat) : Option BookReason :=
  if p.time < previous + 20 ∨ previous + 600000 < p.time then some .spacing else none

/-- The checks of one point in order: SPACING after point 0, AZ_RANGE, EL_RANGE. -/
def Point.check (p : Point) (previous : Option Nat) : Option BookReason :=
  match previous with
  | none => p.range
  | some t => (p.spacing t).or p.range

/-- `n` points from index `i` on checked in order: the first failure, or the time of the last point. -/
def Memory.checkPoints (m : Mem) (st : StationId) (l : Letter) :
    Nat → Nat → Option Nat → Except (Nat × BookReason) (Option Nat)
  | 0, _, previous => .ok previous
  | n + 1, i, previous =>
    match (Memory.point m st l i).check previous with
    | some r => .error (i, r)
    | none => Memory.checkPoints m st l n (i + 1) (some (Memory.pointTime m st l i))

/-- The header checks against a requested book number. -/
def checkHeader (count number requested : Nat) : Option BookReason :=
  if count = 0 ∨ 128 < count then some .count
  else if number = 0 ∨ number ≠ requested then some .number
  else none

/-- A whole book checked at once, header and all points, against its own number (R43): its armed
values. -/
def Memory.wholeBook (m : Mem) (st : StationId) (l : Letter) : Option Armed :=
  let count := Memory.pointCount m st l
  let number := Memory.bookNumber m st l
  match checkHeader count number number with
  | some _ => none
  | none =>
    match Memory.checkPoints m st l count 0 none with
    | .ok (some last) =>
      some { number := number, count := count, first := Memory.pointTime m st l 0, last := last }
    | _ => none

/-! ### Book events, starts (R38, R46) -/

/-- The last event and one increment of BOOK_EVENTS (R46). -/
def State.bookEvent (st : StationId) (kind : BookEventKind) (l : Letter) (s : State) : State :=
  (s.modStation st (fun x =>
    { x with lastBook := some { kind := kind, letter := l, time := s.now } })).bump (.bookEvents st)

/-- A RUNNING book made IDLE, its cursor removed (R38, R43, R45). -/
def Book.idle (b : Book) : Book := { b with state := .idle, cursor := none }

/-- The station's RUNNING book, if there is one, made IDLE. -/
def Station.idleRunning (x : Station) : Station :=
  match x.bookIn .running with
  | none => x
  | some l => x.modBook l Book.idle

/-- A book made RUNNING, its cursor at point 0 and the cursor time at t₀. -/
def Book.run (b : Book) : Book :=
  { b with state := .running, cursor := b.armed.map (fun a => (0, a.first)), fault := none }

/-- A book starts (R38, R43). -/
def State.startBook (st : StationId) (l : Letter) (s : State) : State :=
  (s.modStation st (fun x => x.idleRunning.modBook l Book.run)).bookEvent st .started l

/-- The pending book of a station starts at an expiry if its t₀ has come (R38). -/
def State.startDueBook (st : StationId) (s : State) : State :=
  let x := s.station st
  match x.bookIn .pending with
  | none => s
  | some l =>
    match (x.book l).armed with
    | none => s
    | some a => if a.first ≤ s.now then s.startBook st l else s

/-! ### Reading a running book (R39 to R42) -/

/-- What a running book hands on (R42). -/
inductive BookTarget where
  | between (p q : Point)
  | fixed (p : Point)
  deriving DecidableEq, Repr

/-- The cursor search from index j (R40): times only, never past point n − 2. -/
def Memory.search (m : Mem) (st : StationId) (l : Letter) (t n : Nat) : Nat → Nat → Nat
  | 0, j => j
  | fuel + 1, j =>
    if Memory.pointTime m st l (j + 1) ≤ t ∧ j + 1 ≤ n - 2 then
      Memory.search m st l t n fuel (j + 1)
    else j

/-- The checks of point k (R41); `search` tells the search case. -/
def Point.checkFrom (p : Point) (k t first : Nat) (search : Bool) : Option BookReason :=
  p.range.or (if k = 0 ∧ p.time ≠ first then some .anchor
    else if search = true ∧ t < p.time then some .order
    else none)

/-- The checks of point k + 1 (R41). -/
def Point.checkTo (q p : Point) (k t : Nat) (a : Armed) : Option BookReason :=
  (q.spacing p.time).or (if q.time ≤ t then some .order
    else q.range.or (if k + 1 = a.count - 1 ∧ q.time ≠ a.last then some .anchor else none))

/-- A RUNNING book faulted at an expiry (R41). -/
def State.faultBook (st : StationId) (l : Letter) (i : Nat) (r : BookReason) (s : State) : State :=
  (s.modBook st l (fun b =>
    { b with state := .faulted, cursor := none, fault := some (.point i, r) })).bookEvent
      st .faulted l

/-- One reading of the armed values and points of a RUNNING book (R39 to R41). -/
def State.readArmed (st : StationId) (l : Letter) (a : Armed) (cursor : Nat × Nat) (s : State) :
    State × Option BookTarget :=
  let t := s.now
  if a.last ≤ t then
    ((s.modBook st l (fun b => { b with state := .spent, cursor := none })).bookEvent st .spent l,
      none)
  else if t < a.first then
    let p := Memory.point s.mem st l 0
    match p.checkFrom 0 t a.first false with
    | some r => (s.faultBook st l 0 r, none)
    | none => (s.modBook st l (fun b => { b with cursor := some (0, a.first) }), some (.fixed p))
  else
    let k := Memory.search s.mem st l t a.count 128 (if cursor.2 ≤ t then cursor.1 else 0)
    let p := Memory.point s.mem st l k
    let q := Memory.point s.mem st l (k + 1)
    match p.checkFrom k t a.first true with
    | some r => (s.faultBook st l k r, none)
    | none =>
      match q.checkTo p k t a with
      | some r => (s.faultBook st l (k + 1) r, none)
      | none => (s.modBook st l (fun b => { b with cursor := some (k, p.time) }),
                  some (.between p q))

/-- TE reads the RUNNING book of a station at an expiry, followed or not (R39). -/
def State.readBook (st : StationId) (s : State) : State × Option BookTarget :=
  let x := s.station st
  match x.bookIn .running with
  | none => (s, none)
  | some l =>
    match (x.book l).armed, (x.book l).cursor with
    | some a, some c => s.readArmed st l a c
    | some a, none => s.readArmed st l a (0, a.first)
    | none, _ => (s, none)

/-! ### Engagement by a sweep (R43) -/

/-- A book engaged; the answer tells whether the engagement succeeded. -/
def State.engage (k : Settle) (st : StationId) (l : Letter) (s : State) : State × Bool :=
  match ((s.station st).book l).state with
  | .pending => ((s.startBook st l).inputChanged k st, true)
  | .running => (s, true)
  | .spent | .faulted => (s, false)
  | .idle =>
    match Memory.wholeBook s.mem st l with
    | none => (s, false)
    | some a =>
      (((s.modBook st l (fun b => { b with armed := some a })).startBook st l).inputChanged k st,
        true)

/-! ### Acceptance (R35, R36) -/

/-- The validation record of a station removed. -/
def State.endValidation (st : StationId) (s : State) : State :=
  s.modStation st (fun x => { x with validation := none })

/-- Step 1 of R36: a pending book of the other letter is superseded. -/
def State.supersede (st : StationId) (l : Letter) (s : State) : State :=
  if ((s.station st).book l.other).state = .pending then
    (s.modBook st l.other (fun b => { b with state := .idle })).bookEvent st .superseded l.other
  else s

/-- The armed values as result data: n, t₀, t_last (R197). -/
def Armed.data (a : Armed) : List Byte :=
  Bytes.ofNat 1 a.count ++ Bytes.ofNat 6 a.first ++ Bytes.ofNat 6 a.last

/-- The end of a validation that found no failure (R35, R36). -/
def State.acceptBook (st : StationId) (l : Letter) (a : Armed) (page : PageId) (s : State) : State :=
  if ((s.station st).book l).state = .running then
    (s.endValidation st).answer page .bookBusy []
  else if a.last ≤ s.now then
    (s.endValidation st).answer page .bookStale (Bytes.ofNat 6 a.last)
  else
    let s := s.supersede st l
    let s := s.modBook st l (fun _ =>
      { state := .pending, armed := some a, cursor := none, fault := none })
    (s.endValidation st).answer page .done a.data

/-- A validation that found a failure (R34). -/
def State.rejectBook (st : StationId) (place : Place) (r : BookReason) (page : PageId) (s : State) :
    State :=
  (s.endValidation st).answer page .bookInvalid
    (Bytes.ofNat 1 (Code.ofPlace place) ++ Bytes.ofNat 1 (Code.ofInvalid r))

/-- One group of up to 16 points of a validation checked, the header before the first (R34). -/
def State.validateGroup (st : StationId) (v : Validation) (page : PageId) (s : State) : State :=
  match if v.checked = 0 then checkHeader v.headerCount v.headerNumber v.number else none with
  | some r => s.rejectBook st .header r page
  | none =>
    let size := min 16 (v.headerCount - v.checked)
    let previous := if v.checked = 0 then none else some v.previous
    match Memory.checkPoints s.mem st v.letter size v.checked previous with
    | .error (i, r) => s.rejectBook st (.point i) r page
    | .ok last =>
      let first := if v.checked = 0 then Memory.pointTime s.mem st v.letter 0 else v.first
      let previous := last.getD v.previous
      if v.checked + size < v.headerCount then
        s.modStation st (fun x => { x with validation := some { v with
          checked := v.checked + size, first := first, previous := previous, timer := some 1 } })
      else
        s.acceptBook st v.letter
          { number := v.number, count := v.headerCount, first := first, last := previous } page

end Sys2Proof.Machine
end

