-- ==== Sys2Proof/Machine/Sweeps.lean ====
section
/-! DEFINITION. JS (spec/07_joint_slews.md): the snapshot and its content checks, sweep holds, progress
records, the issue of entries, abandonment, and the start and end of a table. -/

namespace Sys2Proof.Machine

/-! ### Tables in exchange memory (R106, R107, R197) -/

/-- An entry as it stands in exchange memory; its action is a code. -/
structure RawEntry where
  offset : Nat
  stations : BitVec 16
  action : Nat
  settle : Bool
  limit : Nat
  az : Int
  el : Int
  deriving DecidableEq, Repr

/-- Entry j of a table. -/
def Memory.entry (m : Mem) (t : TableId) (j : Nat) : RawEntry :=
  let a := Layout.sweepEntry t j
  { offset := Memory.nat m a 2, stations := BitVec.ofNat 16 (Memory.nat m (a + 2) 2),
    action := Memory.nat m (a + 4) 1, settle := Memory.nat m (a + 5) 1 != 0,
    limit := Memory.nat m (a + 6) 2, az := Memory.int m (a + 8) 4,
    el := Memory.int m (a + 12) 4 }

/-- The end marker (R106). -/
def Config.endMarker : Nat := 65535

/-- The entries of a table from entry j on, up to its first marker (R106). -/
def Memory.entries (m : Mem) (t : TableId) : Nat → Nat → List RawEntry
  | 0, _ => []
  | fuel + 1, j =>
    let e := Memory.entry m t j
    if e.offset = Config.endMarker then [] else e :: Memory.entries m t fuel (j + 1)

/-- The reasons of TABLE_INVALID (R107). -/
inductive TableReason where
  | empty
  | order
  | action
  | azRange
  | elRange
  deriving DecidableEq, Repr

/-- R197. -/
def Code.ofTableReason : TableReason → Nat
  | .empty => 1 | .order => 2 | .action => 3 | .azRange => 4 | .elRange => 5

/-- The content checks of one entry, given the offset of the entry before it: the entry as a snapshot
holds it, its settle limit clamped, or the failure (R107). That ORDER is checked before ACTION, and AZ_RANGE
before EL_RANGE, is the model's reading (DEDUCED; notes/assumptions/56.md). -/
def RawEntry.check (e : RawEntry) (before : Nat) : Except TableReason SweepEntry :=
  if e.offset < before then .error .order
  else match Code.action e.action with
    | none => .error .action
    | some a =>
      if a = .goto ∧ (e.az < -270000000 ∨ 270000000 < e.az) then .error .azRange
      else if a = .goto ∧ (e.el < 0 ∨ 92000000 < e.el) then .error .elRange
      else .ok { offset := e.offset, stations := e.stations, action := a, az := e.az, el := e.el,
                 settle := e.settle, limit := clampNat 1 600 e.limit }

/-- Whether a settle limit that is read lay outside its range. -/
def RawEntry.clamped (e : RawEntry) : Bool := e.settle && clampNat 1 600 e.limit != e.limit

/-- The entries checked in order from index j on. -/
def checkEntries : List RawEntry → Nat → Nat → Except (Nat × TableReason) (List SweepEntry)
  | [], _, _ => .ok []
  | e :: rest, j, before =>
    match e.check before with
    | .error r => .error (j, r)
    | .ok x =>
      match checkEntries rest (j + 1) e.offset with
      | .error f => .error f
      | .ok l => .ok (x :: l)

/-- The snapshot of a table, with whether a settle limit was clamped (R106, R107). -/
def Memory.snapshot (m : Mem) (t : TableId) : Except (Nat × TableReason) (List SweepEntry × Bool) :=
  let raw := Memory.entries m t 32 0
  if raw = [] then .error (0, .empty)
  else match checkEntries raw 0 0 with
    | .error f => .error f
    | .ok l => .ok (l, raw.any RawEntry.clamped)

/-! ### Records (R113, R118) -/

/-- The states in which a record is abandoned (R120). -/
def RecordState.live : RecordState → Bool
  | .waiting | .moving | .settled => true
  | .notNamed | .skipped | .abandoned => false

/-- Whether a record is through (R113). -/
def Progress.through (p : Progress) : Bool :=
  match p.state with
  | .skipped | .abandoned | .settled => true
  | .moving => !p.settle
  | .notNamed | .waiting => false

/-- Whether an axis is past its brake: neither BRAKED, AWAITING_POWER nor RELEASING (R118). -/
def AxisState.begun : AxisState → Bool
  | .braked | .awaitingPower | .releasing => false
  | .retired | .slewing | .catchingUp | .tracking | .holding | .stowing | .stowed | .faulted => true

/-- Begun (R118). -/
def Station.begun (x : Station) : Bool :=
  x.claim.grantedLevel != .none && x.az.state.begun && x.el.state.begun

/-- On-source at an expiry (R118). -/
def Station.onSource (x : Station) : Bool :=
  x.az.computed && x.el.computed && x.az.onSource == some true && x.el.onSource == some true

/-- The record of a station changed. -/
def State.modProgress (s : State) (st : StationId) (f : Progress → Progress) : State :=
  s.modStation st (fun x => { x with progress := f x.progress })

/-! ### Holds (R116) -/

/-- A station's sweep hold set, changed or cleared, with the decisions it is an input of. -/
def State.setHold (k : Settle) (st : StationId) (h : Option SweepHold) (s : State) : State :=
  (s.modStation st (fun x => { x with hold := h })).inputChanged k st

/-- A station's sweep hold cleared, if it has one. -/
def State.clearHold (k : Settle) (st : StationId) (s : State) : State :=
  if (s.station st).hold.isNone then s else s.setHold k st none

/-! ### Issuing (R114 to R117) -/

/-- The skip test (R115). -/
def State.skipReason (s : State) (st : StationId) : Option SweepReason :=
  let x := s.station st
  if x.retired then some .retired
  else if !x.tags.isEmpty then some .locked
  else if (s.zone x.cfg.zone).state.stows then some .wind
  else if x.az.state = .faulted ∨ x.el.state = .faulted then some .fault
  else none

/-- A station skipped, counted in the table (R115, R117). -/
def State.skip (st : StationId) (t : TableId) (r : SweepReason) (s : State) : State :=
  (s.modProgress st (fun p => { p with state := .skipped, reason := some r, timer := none })).modTable
    t (fun x => { x with skips := x.skips + 1 })

/-- The record state after the action of an entry, and the count of the issue (R115, R116, R117). The
settle timer of a flagged entry starts unless the record is SETTLED at once (RELEASE). -/
def State.issued (st : StationId) (t : TableId) (e : SweepEntry) (state : RecordState) (s : State) :
    State :=
  (s.modProgress st (fun p => { p with
    state := state, reason := none,
    timer := if e.settle ∧ state ≠ .settled then some (1000 * e.limit) else none })).modTable t
      (fun x => { x with issues := x.issues + 1 })

/-- An entry issued to one station: the skip test, then the action (R115 to R117). The record becomes
WAITING, its timer starts and the issue is counted before the effects that TE and PB make in answer, so that a
fault within the issue finds a live record (DESIGN CHOICE; notes/assumptions/46.md). -/
def State.issueTo (k : Settle) (t : TableId) (n : Nat) (e : SweepEntry) (st : StationId) (s : State) :
    State :=
  let s := s.modProgress st (fun p => { p with
    table := some t, entry := n, action := some e.action, settle := e.settle, mark := false,
    timer := none, reason := none })
  match s.skipReason st with
  | some r => s.skip st t r
  | none =>
    match e.action with
    | .goto =>
      (s.issued st t e .waiting).setHold k st (some { table := t, az := e.az, el := e.el })
    | .hold =>
      let x := s.station st
      (s.issued st t e .waiting).setHold k st (some { table := t, az := x.az.c, el := x.el.c })
    | .release => (s.issued st t e .settled).clearHold k st
    | .engageA =>
      let r := (s.issued st t e .waiting).engage k st .a
      if r.2 then r.1 else s.skip st t .book
    | .engageB =>
      let r := (s.issued st t e .waiting).engage k st .b
      if r.2 then r.1 else s.skip st t .book

/-- An entry issued to the stations of its set, in order of station number (R115). -/
def State.issueEntry (k : Settle) (t : TableId) (n : Nat) (e : SweepEntry) (s : State) : State :=
  eachOf (allStations.filter (fun st => e.stations.getLsbD st.val)) (State.issueTo k t n e) s

/-- Whether every station whose record shows the entry before entry n is through (R114). -/
def State.entryThrough (s : State) (t : TableId) (n : Nat) : Bool :=
  allStations.all (fun st =>
    let p := (s.station st).progress
    !(p.table == some t && p.state != .notNamed && p.entry + 1 == n) || p.through)

/-- Whether entry n of a table is issued now (R114). -/
def State.entryDue (s : State) (t : TableId) (n : Nat) (e : SweepEntry) : Bool :=
  match (s.table t).sweepStart with
  | none => false
  | some start => decide (start + 100 * e.offset ≤ s.now) && s.entryThrough t n

/-- The judgement of entry issue over the entries that remain (R114): when none remains the table
becomes SETTLING. -/
def State.issueFrom (k : Settle) (t : TableId) : List SweepEntry → Nat → State → State
  | [], _, s => s.modTable t (fun x => { x with state := .settling })
  | e :: rest, n, s =>
    if s.entryDue t n e then
      State.issueFrom k t rest (n + 1)
        ((s.issueEntry k t n e).modTable t (fun x => { x with next := n + 1 }))
    else s

/-- The judgement of entry issue for a RUNNING table (R114). -/
def State.judgeIssue (k : Settle) (t : TableId) (s : State) : State :=
  let x := s.table t
  if x.state = .running then s.issueFrom k t ((x.snapshot.getD []).drop x.next) x.next else s

/-! ### Starting and ending (R111, R112, R121 to R123) -/

/-- The other table. -/
def TableId.other (t : TableId) : TableId := if t = 0 then 1 else 0

/-- A table starts, up to the issue judgement of its start event (R112). That start due is cleared at the start
is the model's reading (DEDUCED; notes/assumptions/57.md). -/
def State.beginTable (k : Settle) (t : TableId) (late : Bool) (s : State) : State :=
  let now := s.now
  let s := s.modTable t (fun x => { x with
    state := .running, startDue := false, late := late, sweepStart := some now, next := 0 })
  let s := eachOf allStations (fun st s => s.modProgress st (fun _ => Progress.reset (some t))) s
  s.judgeIssue k t

/-- The holds of a table released in order of station number, and the settle timers of its run stopped
(R121, R122). Each release is an event of R181's list, in an exchange reset as well (DESIGN CHOICE;
notes/assumptions/53.md). -/
def State.releaseTable (k : Settle) (t : TableId) (s : State) : State :=
  let s := eachOf allStations (fun st s =>
    if (s.station st).hold.any (fun h => h.table == t) then s.setHold k st none else s) s
  eachOf allStations (fun st s => s.modProgress st (fun p =>
    if p.table = some t then { p with timer := none } else p)) s

/-- The end of a table (R121, R122, R124): releases, end record, SWEEP_ENDS. -/
def State.closeTable (k : Settle) (t : TableId) (state : TableState) (kind : EndKind) (s : State) :
    State :=
  let s := s.modTable t (fun x => { x with state := state, strobe := none, startDue := false })
  let s := s.releaseTable k t
  let now := s.now
  (s.modTable t (fun x => { x with ended := some (kind, now) })).bump .sweepEnds

/-- Whether every station named by an issued entry of the run has a through record (R121). -/
def State.allThrough (s : State) (t : TableId) : Bool :=
  allStations.all (fun st =>
    let p := (s.station st).progress
    p.table != some t || p.state == .notNamed || p.through)

/-- The judgement of the end of a SETTLING table (R121), with the late start of the other table (R111);
the first argument bounds the chain of ends, which two tables limit to two. -/
def State.judgeEnd (k : Settle) : Nat → TableId → State → State
  | 0, _, s => s
  | fuel + 1, t, s =>
    if (s.table t).state = .settling ∧ s.allThrough t = true then
      let s := s.closeTable k t .done .done
      let o := TableId.other t
      if (s.table o).state = .armed ∧ (s.table o).startDue = true then
        State.judgeEnd k fuel o (s.beginTable k o true)
      else s
    else s

/-- A table starts (R112), and is judged for its end if its start issued every entry (R121). -/
def State.startTable (k : Settle) (t : TableId) (late : Bool) (s : State) : State :=
  (s.beginTable k t late).judgeEnd k 2 t

/-- An arriving start (R109): acted on only while the table is ARMED and start due is clear. -/
def State.arriveStart (k : Settle) (t : TableId) (s : State) : State :=
  let x := s.table t
  if x.state = .armed ∧ x.startDue = false then
    if (s.table (TableId.other t)).state.runs then
      s.modTable t (fun x => { x with startDue := true })
    else s.startTable k t false
  else s

/-- CANCEL_SWEEP on a table that is ARMED, RUNNING or SETTLING (R122): `lateStart` is false at an exchange
reset (R123). -/
def State.cancelTable (k : Settle) (t : TableId) (lateStart : Bool) (s : State) : State :=
  let ran := (s.table t).state.runs
  let s := s.closeTable k t .cancelled .cancelled
  let o := TableId.other t
  if lateStart ∧ ran = true ∧ (s.table o).state = .armed ∧ (s.table o).startDue = true then
    s.startTable k o true
  else s

/-- Whether CANCEL_SWEEP acts on a table in the state (R122). -/
def TableState.cancellable : TableState → Bool
  | .armed | .running | .settling => true
  | .idle | .done | .cancelled | .expired => false

/-! ### Abandonment (R120) -/

/-- A station abandoned: record, timer, hold, count; its table is judged for its end (R121) at once, before
the rest of the event that abandons the station (DESIGN CHOICE; notes/assumptions/50.md). A hold beside a
record that is not live stands (DESIGN CHOICE; notes/assumptions/55.md). -/
def State.abandon (k : Settle) (st : StationId) (r : SweepReason) (s : State) : State :=
  let p := (s.station st).progress
  match p.table with
  | none => s
  | some t =>
    if p.state.live && (s.table t).state.runs then
      let s := s.modProgress st (fun p =>
        { p with state := .abandoned, reason := some r, timer := none })
      let s := s.modTable t (fun x => { x with abandons := x.abandons + 1 })
      (s.clearHold k st).judgeEnd k 2 t
    else s

/-! ### The judgements of an expiry (R119) -/

/-- The record of one station judged at an expiry. -/
def State.judgeRecord (k : Settle) (t : TableId) (st : StationId) (s : State) : State :=
  let x := s.station st
  if x.progress.table ≠ some t then s
  else if x.progress.state = .waiting ∧ x.target.source = .none ∧ x.target.row = 7 then
    let s := s.modProgress st (fun p =>
      { p with state := .abandoned, reason := some .noTarget, timer := none })
    (s.modTable t (fun x => { x with abandons := x.abandons + 1 })).clearHold k st
  else
    let state := if x.progress.state = .waiting ∧ x.begun = true then .moving else x.progress.state
    if state = .moving ∧ x.progress.settle = true ∧ x.onSource = true then
      s.modProgress st (fun p => { p with state := .settled, timer := none })
    else s.modProgress st (fun p => { p with state := state })

/-- JS at an expiry, for one table (R114, R119, R121). -/
def State.judgeTable (k : Settle) (t : TableId) (s : State) : State :=
  if (s.table t).state.runs then
    ((eachOf allStations (State.judgeRecord k t) s).judgeIssue k t).judgeEnd k 2 t
  else s

/-- The starts AT_TIME whose time has come (R109). -/
def State.arriveAtTime (k : Settle) (t : TableId) (s : State) : State :=
  match (s.table t).launch with
  | none => s
  | some l => if l.source = .atTime ∧ l.time ≤ s.now then s.arriveStart k t else s

end Sys2Proof.Machine
end

