-- ==== Sys2Proof/Machine/Wind.lean ====
section
/-! DEFINITION. WP (spec/09_wind_protection.md): the weather and blind judgements, the evaluation of a
zone, the entry into STOWING, the exposed set, the stowed test, and the return. -/

namespace Sys2Proof.Machine

/-! ### The weather and blind judgements (R147, R148) -/

/-- The live wind stages of a zone (R147). -/
def State.liveWind (s : State) (z : ZoneId) : List Stage :=
  (s.zone z).cfg.stages.filterMap (fun n => s.usableStage n .windSpeed)

/-- The greatest of the values that are present. -/
def greatest : List (Option Int) → Option Int
  | [] => none
  | none :: rest => greatest rest
  | some x :: rest =>
    match greatest rest with
    | none => some x
    | some y => some (max x y)

/-- Whether a stage's x − b stands at or above the gust-stow level (R147). -/
def Stage.gustAt (g : Stage) (level : Nat) : Bool :=
  match g.x, g.b with
  | some x, some b => decide ((level : Int) ≤ x - b)
  | _, _ => false

/-- The weather judgement (R147), then the blind judgement (R148), of a zone with the given live wind
stages. -/
def Zone.judgeWeather (z : Zone) (live : List Stage) : Zone :=
  let blindable := !z.cfg.stages.isEmpty && live.isEmpty
  { z with
    speed := greatest (live.map Stage.f), gust := live.any Stage.gust,
    gustStow := live.any (fun g => g.gustAt z.cfg.gustStow),
    blind := blindable && z.blind,
    blindTimer := if blindable then
        (if z.blind then z.blindTimer else z.blindTimer.or (some (1000 * z.cfg.blindTimeout)))
      else none }

/-- The two judgements of a zone on the stages as they stand. -/
def State.judgeWeather (z : ZoneId) (s : State) : State :=
  s.modZone z (fun x => x.judgeWeather (s.liveWind z))

/-! ### Changes of state (R161) -/

/-- The stow causes present (R149). -/
def Zone.causesNow (z : Zone) (siteStow : Bool) : Causes :=
  { speed := match z.speed with
      | none => false
      | some v => decide ((z.cfg.stow : Int) ≤ v),
    gustStow := z.gustStow, blind := z.blind, site := siteStow, order := z.order }

/-- The last zone event of a change of state, and ZONE_CHANGES (R161). -/
def State.zoneEvent (z : ZoneId) (left : ZoneState) (s : State) : State :=
  let now := s.now
  let record (x : Zone) : ZoneEvent :=
    { deadline := false, left := left, entered := x.state, causes := x.causes, time := now }
  (s.modZone z (fun x => { x with last := some (record x) })).bump (.zoneChanges z)

/-- HC judges the shed orders of a zone's members at a change of its state (R181), after the change is
recorded and counted, S0 first (DESIGN CHOICE; notes/assumptions/49.md). -/
def State.judgeMembers (k : Settle) (z : ZoneId) (s : State) : State :=
  eachOf (s.zone z).members (State.judgeShed k) s

/-- A change of state that has no effect on members but their shed orders. -/
def State.moveZone (k : Settle) (z : ZoneId) (to_ : ZoneState) (f : Zone → Zone) (s : State) :
    State :=
  let left := (s.zone z).state
  let s := s.modZone z (fun x => f { x with state := to_ })
  (s.zoneEvent z left).judgeMembers k z

/-! ### The exposed set and the stowed test (R153, R155) -/

/-- Both axes STOWED. -/
def Station.stowed (x : Station) : Bool := x.az.state == .stowed && x.el.state == .stowed

/-- Whether the station stands in its zone's exposed set. -/
def Zone.isExposed (z : Zone) (st : StationId) : Bool := (z.exposedReason st).isSome

/-- A member joins the exposed set with a reason: once only, and only if one of its axes is not STOWED
(R153). -/
def State.expose (st : StationId) (r : ExposeReason) (s : State) : State :=
  let x := s.station st
  let z := s.zone x.cfg.zone
  if st ∈ z.members ∧ z.isExposed st = false ∧ x.stowed = false then
    s.modZone x.cfg.zone (fun z => { z with exposed := z.exposed ++ [(st, r)] })
  else s

/-- A member leaves the exposed set. -/
def Zone.leave (z : Zone) (st : StationId) : Zone :=
  { z with exposed := z.exposed.filter (fun e => e.1 != st) }

/-- Whether every member outside the exposed set has both axes STOWED (R155). -/
def State.stowedPasses (s : State) (z : ZoneId) : Bool :=
  (s.zone z).members.all (fun st => (s.zone z).isExposed st || (s.station st).stowed)

/-- The stowed test of a zone in STOWING (R155); not while its entry into STOWING is under way
(notes/assumptions/20.md). -/
def State.stowedTest (k : Settle) (z : ZoneId) (s : State) : State :=
  if (s.zone z).state = .stowing ∧ s.entering ≠ some z ∧ s.stowedPasses z = true then
    s.moveZone k z .stowed (fun x => { x with deadline := none })
  else s

/-- Step 5 of R152: a member that cannot move joins the exposed set. -/
def State.exposeBlocked (st : StationId) (s : State) : State :=
  let x := s.station st
  if x.motionBlocked then s.expose st .locked
  else if x.az.state = .faulted ∨ x.el.state = .faulted then s.expose st .fault
  else s

/-! ### The entry into STOWING (R151, R152) -/

/-- Step 2 of R152: an axis in SLEWING, CATCHING_UP, TRACKING or HOLDING enters STOWING at once. -/
def Axis.stowNow (a : Axis) : Axis :=
  match a.state with
  | .slewing | .catchingUp | .tracking | .holding => a.enter .stowing
  | .retired | .braked | .awaitingPower | .releasing | .stowing | .stowed | .faulted => a

/-- A member treated on entry into STOWING (R152). -/
def State.stowMember (k : Settle) (st : StationId) (s : State) : State :=
  let s := s.abandon k st .wind
  let s := s.modStation st (fun x => { x with az := x.az.stowNow, el := x.el.stowNow })
  let s := (s.decideSource k st).formClaim k st
  s.exposeBlocked st

/-- A zone enters STOWING (R151). -/
def State.enterStowing (k : Settle) (z : ZoneId) (s : State) : State :=
  let left := (s.zone z).state
  let outer := s.entering
  let s := { s with entering := some z }
  let s := s.modZone z (fun x => { x with
    state := .stowing, holdTimer := none, deadline := some (1000 * x.cfg.deadline) })
  let s := eachOf (s.zone z).members (State.stowMember k) s
  let s := (s.zoneEvent z left).judgeMembers k z
  { s with entering := outer }.stowedTest k z

/-- The test of a zone at a change of a member's axes or of its exposed set: STOWED where a STOWING zone
passes, STOWING where a STOWED zone has a member outside the exposed set that is not stowed (R155). -/
def State.testZone (k : Settle) (z : ZoneId) (s : State) : State :=
  if (s.zone z).state = .stowed ∧ s.stowedPasses z = false then s.enterStowing k z
  else s.stowedTest k z

/-- WP hears that a member's axes changed: a stowed member leaves the exposed set (R153), and the zone is
tested. -/
def State.axesChanged (k : Settle) (st : StationId) (s : State) : State :=
  let x := s.station st
  let s := if x.stowed then s.modZone x.cfg.zone (fun z => z.leave st) else s
  s.testZone k x.cfg.zone

/-- A tag or a fault that can expose a member of a stowing zone (R153): the join, then the zone's
test. -/
def State.joinExposed (k : Settle) (st : StationId) (r : ExposeReason) (s : State) : State :=
  let z := (s.station st).cfg.zone
  if (s.zone z).state.stows then (s.expose st r).testZone k z else s

/-- A member judged for being able to move (R153, R187, step 3): with a reason LOCKED or FAULT it leaves
the exposed set. -/
def State.ableToMove (k : Settle) (st : StationId) (s : State) : State :=
  let x := s.station st
  let z := x.cfg.zone
  let able := !x.motionBlocked && x.az.state != .faulted && x.el.state != .faulted
  match (s.zone z).exposedReason st with
  | some .locked | some .fault =>
    if able then (s.modZone z (fun x => x.leave st)).axesChanged k st else s.axesChanged k st
  | some .deadline | none => s.axesChanged k st

/-! ### Evaluation (R149, R150, R156) -/

/-- A zone in CALM or WATCH with no stow cause moves by its weather record (R150). -/
def State.moveByWeather (k : Settle) (z : ZoneId) (s : State) : State :=
  let x := s.zone z
  let atLeast (level : Nat) : Bool := match x.speed with
    | none => false
    | some v => decide ((level : Int) ≤ v)
  if x.state = .calm ∧ (atLeast x.cfg.watch || x.gust) = true then s.moveZone k z .watch id
  else if x.state = .watch ∧ (x.speed.isSome && !atLeast x.cfg.release && !x.gust) = true then
    s.moveZone k z .calm id
  else s

/-- The hold timer rule of a pass end in RETURN_HOLD (R156). -/
def Zone.holdAgain (z : Zone) : Zone :=
  match z.speed with
  | none => z
  | some v =>
    if (z.cfg.release : Int) ≤ v then { z with holdTimer := some (1000 * z.cfg.returnHold) } else z

/-- The evaluation of a zone (R149). -/
def State.evaluate (k : Settle) (passEnd : Bool) (z : ZoneId) (s : State) : State :=
  let s := s.modZone z (fun x => { x with causes := x.causesNow s.lines.siteStow })
  let x := s.zone z
  match x.state, x.causes.any with
  | .unwatched, true | .calm, true | .watch, true | .returnHold, true => s.enterStowing k z
  | .unwatched, false => s
  | .calm, false | .watch, false => s.moveByWeather k z
  | .stowing, true | .stowed, true => s
  | .stowing, false | .stowed, false =>
    s.moveZone k z .returnHold (fun x =>
      { x with deadline := none, holdTimer := some (1000 * x.cfg.returnHold) })
  | .returnHold, false => if passEnd then s.modZone z Zone.holdAgain else s

/-- WP at a pass end: every zone judged and evaluated, W0 first, each whole before the next (R147 to
R149). -/
def State.windPassEnd (k : Settle) (s : State) : State :=
  eachOf allZones (State.evaluate k true) (eachOf allZones State.judgeWeather s)

/-! ### The timers (R148, R154, R157) -/

/-- The deadline run-out of a STOWING zone (R154). -/
def State.deadlineOut (k : Settle) (z : ZoneId) (s : State) : State :=
  let now := s.now
  let before := (s.zone z).exposed.length
  let s := s.modZone z (fun x => { x with deadline := none })
  let s := eachOf (s.zone z).members (fun st => State.expose st .deadline) s
  let s := if (s.zone z).exposed.length = before then s else
    let record (x : Zone) : ZoneEvent :=
      { deadline := true, left := x.state, entered := x.state, causes := x.causes, time := now }
    (s.modZone z (fun x => { x with last := some (record x) })).bump (.exposures z)
  s.stowedTest k z

/-- The state in which a zone leaves RETURN_HOLD (R157). -/
def Zone.returnState (z : Zone) : ZoneState :=
  if z.cfg.stages.isEmpty then .unwatched
  else match z.speed with
    | none => .watch
    | some v => if (z.cfg.watch : Int) ≤ v ∨ z.gust = true then .watch else .calm

/-- The run-out of the hold timer (R157). -/
def State.holdOut (k : Settle) (z : ZoneId) (s : State) : State :=
  let left := (s.zone z).state
  let s := s.modZone z (fun x =>
    { x with state := x.returnState, holdTimer := none, exposed := [] })
  let s := eachOf (s.zone z).members (State.decideSource k) s
  (s.zoneEvent z left).judgeMembers k z

/-! ### Membership (R145) -/

/-- A set of stations kept in order of station number. -/
def insertStation (st : StationId) (l : List StationId) : List StationId :=
  l.takeWhile (fun x => decide (x.val < st.val)) ++
    st :: (l.dropWhile (fun x => decide (x.val < st.val))).filter (fun x => x != st)

/-- A station whose configured zone has changed moves between the member sets (R145): one that enters a zone
that stows is treated as R152 treats a member, and sends a STOWED zone that would wait for it back into
STOWING: the test looks at its axes as the treatment leaves them, its source decided and its BRAKED axes
examined (DESIGN CHOICE; notes/assumptions/48.md). -/
def State.moveMember (k : Settle) (st : StationId) (old : ZoneId) (s : State) : State :=
  let new := (s.station st).cfg.zone
  if old = new then s
  else
    let s := s.modZone old (fun z =>
      { z.leave st with members := z.members.filter (fun x => x != st) })
    let s := s.stowedTest k old
    let s := s.modZone new (fun z => { z with members := insertStation st z.members })
    if (s.zone new).state.stows then
      let s := s.stowMember k st
      if (s.zone new).state = .stowed ∧ (s.station st).stowed = false ∧
          (s.zone new).isExposed st = false then s.enterStowing k new
      else s
    else s

end Sys2Proof.Machine
end

