-- ==== Sys2Proof/Machine/Faults.lean ====
section
/-! DEFINITION. The entry of an axis into FAULTED (R79), TE's answer to a change of grant (R71, R74), and
the settling of everything that an event hands to PB (R100). -/

namespace Sys2Proof.Machine

/-- Steps 2 to 4 of an entry into FAULTED (R79): the claim, AXIS_FAULTS, then JS (R120) and WP (R153). -/
def State.afterFault (k : Settle) (st : StationId) (s : State) : State :=
  let s := (s.formClaim k st).bump (.axisFaults st)
  (s.abandon k st .fault).joinExposed k st .fault

/-- An axis enters FAULTED with a reason (R79). -/
def State.faultAxis (k : Settle) (st : StationId) (ax : AxisId) (reason : AxisFault) (s : State) :
    State :=
  (s.modAxis st ax (fun a => a.toFaulted reason)).afterFault k st

/-- An AWAITING_POWER axis moves on (R71): RELEASING, or FAULTED with OUTSIDE where its encoder lies
outside its limits. -/
def State.releaseAxis (k : Settle) (st : StationId) (ax : AxisId) (s : State) : State :=
  let x := s.station st
  match (x.axis ax).state, x.link.report with
  | .awaitingPower, some r =>
    if (x.cfg.axis ax).lmin ≤ r.encoder ax ∧ r.encoder ax ≤ (x.cfg.axis ax).lmax then
      s.modAxis st ax (fun a => a.toReleasing (r.encoder ax))
    else s.faultAxis k st ax .outside
  | _, _ => s

/-- The AWAITING_POWER axes of a station judged (R71): they move on when the granted watts have reached
the watts wanted. AZ moves on before EL, its OUTSIDE fault settled first (DESIGN CHOICE;
notes/assumptions/41.md). -/
def State.judgeAwaiting (k : Settle) (st : StationId) (s : State) : State :=
  let claim := (s.station st).claim
  if claim.wanted ≤ claim.granted then
    ((s.releaseAxis k st .az).releaseAxis k st .el).formClaim k st
  else s

/-- A powered axis braked by a whole revocation (R74). -/
def Axis.revoke (a : Axis) : Axis := if a.state.powered then a.brake else a

/-- A CATCHING_UP axis answers a rise of the station's grant to SLEW, a SLEWING axis a fall to TRACK
(R74). -/
def Axis.answerLevel (rises : Bool) (level : Level) (a : Axis) : Axis :=
  match a.state, level with
  | .catchingUp, .slew => if rises then a.enter .slewing else a
  | .slewing, .track => if rises then a else a.enter .catchingUp
  | _, _ => a

/-- Both axes of a station answer its granted level. -/
def Station.answerLevel (rises : Bool) (x : Station) : Station :=
  { x with az := x.az.answerLevel rises x.claim.grantedLevel,
           el := x.el.answerLevel rises x.claim.grantedLevel }

/-- The granted watts and the granted level that a report of PB gives a station (R74, R78). -/
def Station.takeGrant (watts : Nat) (x : Station) : Station :=
  { x with claim := { x.claim with granted := watts, grantedLevel := x.levelFor watts } }

/-- PB reports a change of a station's granted watts to TE (R74): a rise; a fall of a grant of which the
station still wants more, which is a revocation (R103); a fall that TE asked for, at which no axis changes
state (notes/assumptions/30.md). -/
def State.driveGrant (k : Settle) (st : StationId) (watts : Nat) (s : State) : State :=
  let old := (s.station st).claim.granted
  let s := s.modStation st (Station.takeGrant watts)
  let x := s.station st
  if old < watts then
    ((s.modStation st (Station.answerLevel true)).judgeAwaiting k st).formClaim k st
  else if watts < old ∧ watts < x.claim.wanted then
    if watts = 0 ∧ (x.az.state.powered || x.el.state.powered) = true then
      (s.changeAxes k st (fun x =>
        { x with az := x.az.revoke, el := x.el.revoke }.examineBoth)).axesChanged k st
    else (s.modStation st (Station.answerLevel false)).formClaim k st
  else s

/-- PB reports a claimant's new granted watts (R100, step 5). -/
def State.report (k : Settle) (c : Claimant) (s : State) : State :=
  match c with
  | .station st => s.driveGrant k st (s.power.granted c)
  | .heater st area => s.heatGrant k st area (s.power.granted c)

/-- One piece of work settled: a whole change of PB with its reports, whose answers wait until it is
complete, or the judgement of R71. -/
def State.deliver (w : Work) (s : State) : State :=
  match w with
  | .awaiting st => s.judgeAwaiting Settle.later st
  | .drive _ _ | .heat _ _ _ | .heatWithdraw _ _ | .budget =>
    let r := s.powerChange w
    eachOf r.2 (State.report Settle.later) r.1

/-- The work of an event settled in the order in which it was left, `fuel` pieces at most
(notes/assumptions/6.md). -/
def State.drain : Nat → State → State
  | 0, s => s
  | fuel + 1, s =>
    match s.work with
    | [] => s
    | w :: rest => State.drain fuel (State.deliver w { s with work := rest })

/-- The settling at the level of an event: everything left is settled at once. -/
def settle : Settle := State.drain Config.settleFuel

end Sys2Proof.Machine
end

