-- ==== Sys2Proof/Machine/Links.lean ====
section
/-! DEFINITION. DL (R25 to R31): demand frames, good reports with what TE and HC do with them (R81, R172,
R174, R175), and the loss of a link. -/

namespace Sys2Proof.Machine

/-! ### Demand frames (R26, R27) -/

/-- The rate an axis commands (R69): its rate demand in a moving state, else 0. -/
def Axis.rateOut (a : Axis) : Int := if a.state.moving then a.rate else 0

/-- The next demand frame of a station (R26); a zone named for the first time starts its probe window
(R27, R170). A retired station's port is idle (R31). -/
def Station.send (x : Station) : Station :=
  if x.retired then x
  else
    let seq : BitVec 8 := match x.link.seq with
      | none => 0
      | some n => n + 1
    let x := match x.probeQueue.head? with
      | none => x
      | some area => x.modHeater area (fun h =>
          if h.probeNamed then h
          else { h with probeNamed := true, probeWindow := some Config.probeWindow })
    { x with
      link := { x.link with seq := some seq, answered := false },
      demand := Frame.demand seq x.az.state.powered x.el.state.powered x.reflector.state.closed
        x.feed.state.closed x.probeQueue.head? x.az.rateOut x.el.rateOut }

/-! ### Link loss (R30, R82, R180) -/

/-- The axis states that a link loss faults: neither RETIRED nor FAULTED (R82). -/
def AxisState.lost : AxisState → Bool
  | .retired | .faulted => false
  | .braked | .awaitingPower | .releasing | .slewing | .catchingUp | .tracking | .holding
    | .stowing | .stowed => true

/-- An axis of a station whose link is lost (R82): step 1 of R79. -/
def Axis.loseLink (a : Axis) : Axis := if a.state.lost then a.toFaulted .link else a

/-- Both axes of a station whose link is lost. -/
def Station.loseLink (x : Station) : Station :=
  { x with az := x.az.loseLink, el := x.el.loseLink }

/-- The link becomes DOWN: the count returns to 0, LINK_LOSSES, then TE and HC (R30). Both axes are FAULTED
with LINK at once (R82); what follows from each fault is done for AZ, then for EL
(notes/assumptions/32.md). -/
def State.loseLink (k : Settle) (st : StationId) (s : State) : State :=
  let s := s.modStation st (fun x => { x with link := { x.link with up := false, missed := 0 } })
  let s := s.bump (.linkLosses st)
  let before := s.station st
  let s := s.modStation st Station.loseLink
  let s := if before.az.state.lost then s.afterFault k st else s
  let s := if before.el.state.lost then s.afterFault k st else s
  s.dropHeat k st

/-- A frame unanswered at the close of its window (R30). -/
def Link.misses (l : Link) : Bool := l.up && !l.answered

/-- The report window of a station's latest frame closes (R30); a retired station has none (R31). -/
def State.closeWindow (k : Settle) (st : StationId) (s : State) : State :=
  let x := s.station st
  if x.retired = false ∧ x.link.misses = true then
    if x.link.missed + 1 < 3 then
      s.modStation st (fun x => { x with link := { x.link with missed := x.link.missed + 1 } })
    else s.loseLink k st
  else s

/-- DL at an expiry (R25, R30): every window closes before any frame is sent, so that the frames carry what
their sources command once the losses of the expiry are settled (R26; notes/assumptions/15.md). -/
def State.linkExpiry (k : Settle) (s : State) : State :=
  eachOf allStations (fun st s => s.modStation st Station.send)
    (eachOf allStations (State.closeWindow k) s)

/-! ### Good reports (R28, R29) -/

/-- Whether a report that arrives at a station's port is good (R28, R31). -/
def Station.goodReport (x : Station) (f : Frame) : Bool :=
  !x.retired && Frame.correct Frame.reportLength f && x.link.seq == some (Frame.at f 0) &&
    !x.link.answered

/-- Step 1 of R81: an axis in BRAKED, AWAITING_POWER or FAULTED takes the encoder position. -/
def Axis.follow (a : Axis) (encoder : Int) : Axis :=
  match a.state with
  | .braked | .awaitingPower | .faulted => { a with c := encoder }
  | .retired | .releasing | .slewing | .catchingUp | .tracking | .holding | .stowing | .stowed => a

/-- The fault that the amplifier and limit-switch monitors find, steps 2 and 3 of R81. -/
def Axis.reportFault (a : Axis) (ax : AxisId) (r : Report) : Option AxisFault :=
  if (a.state = .awaitingPower ∨ a.state.powered = true) ∧ r.ready ax = false then some .amplifier
  else if a.state.powered = true ∧ r.limitSwitch ax = true then some .limitSwitch
  else none

/-- The release report of a RELEASING axis, step 4 of R81 (R72): release seen is set, the source at its
moment is kept (R75), and an axis that has its verdict leaves. -/
def Axis.releaseReport (a : Axis) (ax : AxisId) (r : Report) (source : Source) (level : Level)
    (seconds : Nat) : Axis :=
  if a.state = .releasing ∧ r.released ax = true then
    let a := { a with releaseSeen := some true, releaseSource := some source }
    if a.judged then a.release source level seconds else a
  else a

/-- TE handles one axis at a good report (R81). -/
def State.reportAxis (k : Settle) (st : StationId) (r : Report) (ax : AxisId) (s : State) : State :=
  let s := s.modAxis st ax (fun a => a.follow (r.encoder ax))
  let x := s.station st
  match (x.axis ax).reportFault ax r with
  | some reason => s.faultAxis k st ax reason
  | none =>
    s.modStation st (fun x => (x.modAxis ax (fun a =>
      a.releaseReport ax r x.target.source x.claim.grantedLevel x.cfg.holdIdle)).examine ax)

/-- The claim of a station formed once after both its axes, with the judgement of R71 for an axis that
entered AWAITING_POWER since `before`, and WP's tests (R153, R155). -/
def State.afterAxes (k : Settle) (st : StationId) (before : Station) (s : State) : State :=
  let waits := before.newlyAwaiting (s.station st)
  let s := s.formClaim k st
  (if waits then k (s.leave (.awaiting st)) else s).axesChanged k st

/-- A good report acted on (R29, R81, R172, R174, R175). Step 5 gives its users no order: TE handles AZ with
all five steps of R81 and all that follows from its fault, then EL, then HC the REFLECTOR current, the
FEED current and the probe result (DESIGN CHOICE; notes/assumptions/38.md, 41.md). -/
def State.takeReport (k : Settle) (st : StationId) (r : Report) (s : State) : State :=
  let wasUp := (s.station st).link.up
  let s := s.modStation st (fun x => { x with link := { x.link with
    up := true, answered := true, missed := 0, report := some r } })
  let s := if wasUp then s else s.judgeHeatBoth k st
  let before := s.station st
  let s := ((s.reportAxis k st r .az).reportAxis k st r .el).afterAxes k st before
  let s := s.reportCurrent k st .reflector r.reflectorCurrent
  let s := s.reportCurrent k st .feed r.feedCurrent
  match r.probe with
  | none => s
  | some p => s.probeResult k st p.1 p.2

/-- REPORT_FRAME (R28, R29): any report that is not good is discarded. -/
def execReportFrame (st : StationId) (frame : Frame) (s : State) :
    Host.Outcome State Fault Refusal :=
  event s (fun s =>
    if (s.station st).goodReport frame then s.takeReport settle st (Frame.report frame) else s)

/-- LINK_LOSS (R30): the third consecutive missed frame of a station whose link is UP. -/
def execLinkLoss (st : StationId) (s : State) : Host.Outcome State Fault Refusal :=
  event s (fun s =>
    let l := (s.station st).link
    if l.misses ∧ 2 ≤ l.missed then s.loseLink settle st else s)

end Sys2Proof.Machine
end

