-- ==== Sys2Proof/Machine/Lockouts.lean ====
section
/-! DEFINITION. LU (spec/11_lockouts_and_station_retirement.md): placing and removing tags (R186, R187),
the site stop line (R190), the panel line (R191 to R193) and the fuse words (R194). -/

namespace Sys2Proof.Machine

/-! ### Tags (R183) -/

/-- The greatest number of tags on a station's list. -/
def Config.tagLimit : Nat := 8

/-- The IDs of the part's own tags. -/
def Config.returnId : Nat := 65534

/-- See `Config.returnId`. -/
def Config.siteId : Nat := 65535

/-- Whether the list holds a tag of an ID. -/
def Station.hasTag (x : Station) (id : Nat) : Bool := x.tags.any (fun t => t.id == id)

/-- Whether an ID is one of those that PERSONNEL and ELECTRICAL tags carry. -/
def Tag.plainId (id : Nat) : Bool := decide (1 ≤ id) && decide (id ≤ 65533)

/-- Whether a scope blocks motion, and whether it blocks heat (R183). -/
def Scope.motion? : Scope → Bool
  | .motion | .both => true
  | .heat | .service => false

/-- See `Scope.motion?`. -/
def Scope.heat? : Scope → Bool
  | .heat | .both | .service => true
  | .motion => false

/-- The last lockout event of a station and one increment of TAG_CHANGES (R183, R186, R187, R194). -/
def State.lockoutEvent (st : StationId) (kind : LockoutKind) (what : Nat) (party : Party)
    (s : State) : State :=
  let now := s.now
  (s.modStation st (fun x =>
    { x with lastLockout := some { kind := kind, what := what, party := party, time := now } })).bump
      (.tagChanges st)

/-- Step 2 of a placement (R186): an axis in AWAITING_POWER or a powered state is braked. -/
def Axis.lock (a : Axis) : Axis :=
  if a.state = .awaitingPower ∨ a.state.powered = true then { a.brake with rate := 0 } else a

/-- A tag placed with all its effects (R186). -/
def State.placeTag (k : Settle) (st : StationId) (t : Tag) (s : State) : State :=
  let s := s.modStation st (fun x => { x with tags := x.tags ++ [t] })
  let s := if t.scope.motion? then
      (s.modStation st (fun x => { x with az := x.az.lock, el := x.el.lock })).formClaim k st
    else s
  let s := if t.scope.heat? then s.dropHeat k st else s
  let s := s.abandon k st .locked
  let s := if t.scope.motion? then s.joinExposed k st .locked else s
  let s := s.decideSource k st
  s.lockoutEvent st .placed t.id t.party

/-- The SITE tag placed on a station (R190). -/
def State.placeSite (k : Settle) (st : StationId) (s : State) : State :=
  s.placeTag k st (Tag.siteTag s.now)

/-- Step 5 of a removal (R187): a SITE tag that is pending takes the place freed. -/
def State.placePending (k : Settle) (st : StationId) (s : State) : State :=
  if (s.station st).sitePending then
    (s.modStation st (fun x => { x with sitePending := false })).placeSite k st
  else s

/-- A tag removed with all its effects (R187). -/
def State.removeTag (k : Settle) (st : StationId) (id : Nat) (party : Party) (s : State) : State :=
  let blocked := (s.station st).heatBlocked
  let s := s.modStation st (fun x => { x with tags := x.tags.filter (fun t => t.id != id) })
  let s := s.decideSource k st
  let s := s.ableToMove k st
  let s := if blocked && !(s.station st).heatBlocked then s.judgeHeatBoth k st else s
  let s := s.placePending k st
  s.lockoutEvent st .removed id party

/-! ### The site stop line (R190) -/

/-- The rise of SITE_STOP at one station. -/
def State.stopStation (k : Settle) (st : StationId) (s : State) : State :=
  let x := s.station st
  if x.retired || x.hasTag Config.siteId then s
  else if Config.tagLimit ≤ x.tags.length then
    s.modStation st (fun x => { x with sitePending := true })
  else s.placeSite k st

/-- SITE_STOP_CHANGE (R190). -/
def execSiteStopChange (level : Bool) (s : State) : Host.Outcome State Fault Refusal :=
  event s (fun s =>
    if s.lines.siteStop = level then s
    else
      let s := { s with lines := { s.lines with siteStop := level } }
      if level then eachOf allStations (State.stopStation settle) s else s)

/-! ### Fuse words (R194) -/

/-- One of a station's fuse words written. -/
def State.writeFuse (st : StationId) (word : Nat) (party : Party) (s : State) : State :=
  (s.modStation st (fun x => { x with
    fuse1 := x.fuse1 || word == 1, fuse2 := x.fuse2 || word == 2 })).lockoutEvent
      st .fuseWritten word party

/-! ### The panel line (R191 to R193) -/

/-- Whether an answer is good (R191). -/
def State.goodAnswer (s : State) (f : Frame) : Bool :=
  Frame.correct Frame.panelLength f && Frame.panelStation f == s.panelLine.slot.val &&
    s.panelLine.isOpen && !s.panelLine.answered

/-- What every good answer does: the slot is answered, the count returns to 0, PANEL_LOST clears
(R191). -/
def State.panelHeard (s : State) : State :=
  (s.modPanelLine (fun p => { p with answered := true })).modStation s.panelLine.slot
    (fun x => { x with panel := { x.panel with lost := false, unanswered := 0 } })

/-- An acknowledgement stored for the panel's next poll (R192). -/
def State.acknowledge (st : StationId) (a : Ack) (s : State) : State :=
  s.modStation st (fun x => { x with panel := { x.panel with ack := some a } })

/-- An arriving answer with the given answer code: what every good answer does, then what LU does with
it; any other answer is discarded (R191, R192). -/
def State.panelAnswer (code : Nat → Bool) (act : StationId → State → State) (f : Frame)
    (s : State) : State :=
  if s.goodAnswer f && code (Frame.panelCode f) then act s.panelLine.slot s.panelHeard else s

/-- The kind and scope of a LOCK that may be placed (R192). -/
def Frame.lockTag (f : Frame) : Option (TagKind × Scope) :=
  match Code.tagKind (Frame.panelKind f), Code.scope (Frame.panelScope f) with
  | some .personnel, some scope =>
    if Tag.plainId (Frame.panelId f) then some (.personnel, scope) else none
  | some .electrical, some scope =>
    if Tag.plainId (Frame.panelId f) then some (.electrical, scope) else none
  | _, _ => none

/-- A good LOCK (R192). -/
def State.lock (k : Settle) (f : Frame) (st : StationId) (s : State) : State :=
  let x := s.station st
  if x.retired then s.acknowledge st .retired
  else match Frame.lockTag f with
    | none => s.acknowledge st .value
    | some t =>
      if x.hasTag (Frame.panelId f) then s.acknowledge st .duplicate
      else if Config.tagLimit ≤ x.tags.length then s.acknowledge st .full
      else (s.placeTag k st { id := Frame.panelId f, kind := t.1, scope := t.2, party := .panel,
                              time := s.now }).acknowledge st .accepted

/-- A good RELEASE (R192). -/
def State.unlock (k : Settle) (f : Frame) (st : StationId) (s : State) : State :=
  if Frame.panelId f = Config.siteId then s.acknowledge st .notPermitted
  else if (s.station st).hasTag (Frame.panelId f) then
    (s.removeTag k st (Frame.panelId f) .panel).acknowledge st .accepted
  else s.acknowledge st .absent

/-- A good RETIRE_CONFIRM (R194). -/
def State.confirmRetire (st : StationId) (s : State) : State :=
  if (s.station st).fuse2 then s.acknowledge st .written
  else (s.writeFuse st 2 .panel).acknowledge st .accepted

/-- PANEL_NONE (R192): no acknowledgement is stored. -/
def execPanelNone (frame : Frame) (s : State) : Host.Outcome State Fault Refusal :=
  event s (State.panelAnswer (fun c => c == 0) (fun _ s => s) frame)

/-- PANEL_LOCK (R192). -/
def execPanelLock (frame : Frame) (s : State) : Host.Outcome State Fault Refusal :=
  event s (State.panelAnswer (fun c => c == 1) (State.lock settle frame) frame)

/-- PANEL_RELEASE (R192). -/
def execPanelRelease (frame : Frame) (s : State) : Host.Outcome State Fault Refusal :=
  event s (State.panelAnswer (fun c => c == 2) (State.unlock settle frame) frame)

/-- RETIRE_CONFIRM (R194). -/
def execRetireConfirm (frame : Frame) (s : State) : Host.Outcome State Fault Refusal :=
  event s (State.panelAnswer (fun c => c == 3) State.confirmRetire frame)

/-- UNLISTED_PANEL_ANSWER (R197). -/
def execUnlistedPanelAnswer (frame : Frame) (s : State) : Host.Outcome State Fault Refusal :=
  event s (State.panelAnswer (fun c => decide (3 < c)) (fun st s => s.acknowledge st .value) frame)

/-- The panel of a slot found unanswered for the third time in a row (R193). -/
def State.losePanel (st : StationId) (s : State) : State :=
  (s.modStation st (fun x => { x with panel := { x.panel with lost := true, unanswered := 0 } })).bump
    (.panelLosses st)

/-- The judgement of a panel at its slot's end (R193). -/
def State.judgePanel (st : StationId) (s : State) : State :=
  let p := (s.station st).panel
  if s.panelLine.answered || p.lost then s
  else if p.unanswered + 1 < 3 then
    s.modStation st (fun x => { x with panel := { x.panel with unanswered := x.panel.unanswered + 1 } })
  else s.losePanel st

/-- PANEL_SLOT_END (R193), due when 31.25 ms of the slot have been counted. -/
def execPanelSlotEnd (s : State) : Host.Outcome State Fault Refusal :=
  event s (fun s =>
    if s.panelLine.isOpen = true ∧ Config.slotQuarters ≤ s.panelLine.elapsed then
      (s.judgePanel s.panelLine.slot).modPanelLine (fun p => { p with isOpen := false })
    else s)

/-- PANEL_LOST (R193): the third unanswered poll in a row of the slot's panel. -/
def execPanelLost (st : StationId) (s : State) : Host.Outcome State Fault Refusal :=
  event s (fun s =>
    let p := (s.station st).panel
    if s.panelLine.slot = st ∧ s.panelLine.isOpen = true ∧ s.panelLine.answered = false ∧
        p.lost = false ∧ 2 ≤ p.unanswered then
      s.losePanel st
    else s)

/-- The poll that begins a slot, carrying the acknowledgement due, which is then absent (R191). -/
def State.poll (s : State) : State :=
  let st := s.panelLine.slot + 1
  let frame := Frame.poll st (s.station st).panel.ack
  (s.modPanelLine (fun p =>
    { slot := st, isOpen := true, answered := false, elapsed := p.elapsed - Config.slotQuarters,
      poll := frame })).modStation st (fun x => { x with panel := { x.panel with ack := none } })

/-- PANEL_POLL (R191), which follows the end of the slot before it. -/
def execPanelPoll (s : State) : Host.Outcome State Fault Refusal :=
  event s (fun s =>
    if s.panelLine.isOpen = false ∧ Config.slotQuarters ≤ s.panelLine.elapsed then s.poll else s)

end Sys2Proof.Machine
end

