-- ==== Sys2Proof/Machine/Sensing.lean ====
section
/-! DEFINITION. WS (spec/08_weather_sensing.md): samples (R129 to R135), the work of a pass end (R131,
R136, R137), the stage list (R139 to R141), the pass rate (R142) and the pass boundary (R127). -/

namespace Sys2Proof.Machine

/-! ### Samples (R130 to R134) -/

/-- A stage enters FAULT (R132). -/
def Stage.toFault (g : Stage) (r : StageFault) : Stage :=
  { g with state := .fault, high := false, low := false, gust := false, missed := 0, skip := 0,
           freeze := 0, reseed := some 0, reason := some r }

/-- A stage seeded or reseeded with a sample (R132, R133). -/
def Stage.seed (g : Stage) (x : Int) : Stage :=
  { g with state := .live, f := some x, b := some x, x := some x, skip := 0, freeze := 0,
           reseed := none, reason := none }.judgeFlags

/-- A good sample taken by a stage (R132 to R134). -/
def Stage.sample (g : Stage) (x : Int) : Stage :=
  match g.state with
  | .unseeded => g.seed x
  | .live => { g with x := some x, f := g.f.map (fun f => filterStep f x g.cfg.kf) }.judgeFlags
  | .fault =>
    if g.reseed.getD 0 = 0 then { g with reseed := some 1, x := some x } else g.seed x

/-- A good reply: the answered mark, and the missed count back to 0 (R129, R131). -/
def Stage.heard (g : Stage) : Stage := { g with answered := true, missed := 0 }

/-- The stage of a number changed. -/
def State.modStage (s : State) (n : Nat) (f : Stage → Stage) : State :=
  s.modSensing (fun w => { w with stages := w.stages.modify n f })

/-- The tally of a sensing event (R132, R137). -/
def SensingKind.tally : SensingKind → Tally
  | .misses | .faultCode => .stageFaults
  | .recalibration => .recalibrations

/-- The last sensing event and its tally. -/
def State.sensingEvent (kind : SensingKind) (n : Nat) (s : State) : State :=
  let now := s.now
  (s.modSensing (fun w => { w with last := some { kind := kind, stage := n, time := now } })).bump
    kind.tally

/-- Whether a reply is good (R129). -/
def State.goodReply (s : State) (f : Frame) : Bool :=
  Frame.correct Frame.sampleLength f && Frame.at f 0 == s.sensing.pass &&
    (match s.stage (Frame.at f 1).toNat with
      | none => false
      | some g => !g.answered)

/-- The value of a good reply taken by its stage (R129, R130). -/
def State.takeValue (n : Nat) (x : Int) (s : State) : State :=
  let s := s.modStage n Stage.heard
  match s.stage n with
  | none => s
  | some g =>
    if x = Frame.faultCode then
      if g.state = .fault then s.modStage n (fun g => { g with reseed := some 0 })
      else (s.modStage n (fun g => g.toFault .faultCode)).sensingEvent .faultCode n
    else s.modStage n (fun g => g.sample x)

/-- SAMPLE_REPLY (R129): a reply that is not good is discarded. -/
def execSampleReply (frame : Frame) (s : State) : Host.Outcome State Fault Refusal :=
  event s (fun s =>
    if s.goodReply frame then s.takeValue (Frame.at frame 1).toNat (Frame.sampleValue frame) else s)

/-! ### The work of a pass end (R131, R136, R137) -/

/-- A recalibration: b takes f, the counts return to 0, GUST is judged again (R137, R138). -/
def Stage.recalibrate (g : Stage) : Stage :=
  { g with b := g.f, freeze := 0, skip := 0 }.rejudgeGust

/-- The baseline step (R136). -/
def Stage.step (g : Stage) : Stage :=
  match g.f, g.b with
  | some f, some b => { g with b := some (filterStep b f g.cfg.ks), skip := 0, freeze := 0 }
  | _, _ => { g with skip := 0, freeze := 0 }

/-- Whether the baseline is frozen (R136). -/
def Stage.frozen (g : Stage) : Bool := g.high || g.gust

/-- The baseline work of a LIVE stage answered in the pass (R136), with whether it was recalibrated
(R137). -/
def Stage.baseline (g : Stage) : Stage × Bool :=
  if g.frozen then
    let g := { g with freeze := min 4095 (g.freeze + 1) }
    if g.cfg.freezeLimit ≠ 0 ∧ g.cfg.freezeLimit ≤ g.freeze then (g.recalibrate, true) else (g, false)
  else if g.cfg.skip ≤ g.skip + 1 then (g.step, false)
  else ({ g with skip := g.skip + 1, freeze := 0 }, false)

/-- The pass-end work of one stage, with the event it raises. -/
def Stage.passEnd (g : Stage) : Stage × Option SensingKind :=
  match g.state, g.answered with
  | .fault, true => (g, none)
  | .fault, false => ({ g with reseed := some 0 }, none)
  | .unseeded, true => (g, none)
  | .unseeded, false | .live, false =>
    if g.missed + 1 < 3 then ({ g with missed := g.missed + 1 }, none)
    else (g.toFault .misses, some .misses)
  | .live, true =>
    let r := g.baseline
    (r.1, if r.2 then some .recalibration else none)

/-- The pass-end work of the stages from number n on: the stages, and the events in order. -/
def passStages (now : Nat) : Nat → List Stage → List Stage × List SensingEvent
  | _, [] => ([], [])
  | n, g :: rest =>
    let r := g.passEnd
    let tail := passStages now (n + 1) rest
    (r.1 :: tail.1,
      match r.2 with
      | none => tail.2
      | some kind => { kind := kind, stage := n, time := now } :: tail.2)

/-- Whether the pass was quiet (R142). -/
def State.quietPass (s : State) : Bool :=
  s.sensing.stages.all (fun g => !g.frozen) &&
    allZones.all (fun z => (s.zone z).state == .calm || (s.zone z).state == .unwatched)

/-- The quiet pass count and the rate of the next pass (R142). -/
def Sensing.nextRate (w : Sensing) (quiet : Bool) : Sensing :=
  let count := if quiet then min Config.quietLimit (w.quietCount + 1) else 0
  { w with
    quietCount := count,
    rate := match w.rate with
      | .full => if count = Config.quietLimit then .quiet else .full
      | .quiet => if quiet then .quiet else .full }

/-- Steps 1 to 3 of the pass boundary (R127): the work of every stage, the rate, the tallies in the order
of their stages. -/
def State.passWork (s : State) : State :=
  let r := passStages s.now 0 s.sensing.stages
  let s := s.modSensing (fun w => { w with
    stages := r.1, last := match r.2.getLast? with
      | none => w.last
      | some e => some e })
  let quiet := s.quietPass
  let s := s.modSensing (fun w => w.nextRate quiet)
  r.2.foldl (fun s e => s.bump e.kind.tally) s

/-! ### The stage list (R140, R141, R197) -/

/-- The reasons for which a list is refused (R140). -/
inductive ListReason where
  | kind
  | channel
  deriving DecidableEq, Repr

/-- R197. -/
def Code.ofListReason : ListReason → Nat
  | .kind => 1 | .channel => 2

/-- A threshold behind its presence bit. -/
def Memory.threshold (m : Mem) (presence bit a : Nat) : Option Int :=
  if presence.testBit bit then some (Memory.int m a 2) else none

/-- Stage record i of the stage list area, clamped, with whether a number was clamped (R140). A record that
fails both checks is refused for its kind (DEDUCED; notes/assumptions/51.md). -/
def Memory.stageRecord (m : Mem) (i : Nat) : Except ListReason (StageConfig × Bool) :=
  let a := Layout.stage i
  let channel := Memory.nat m a 1
  let kf := Memory.nat m (a + 2) 1
  let ks := Memory.nat m (a + 3) 1
  let skip := Memory.nat m (a + 4) 1
  let presence := Memory.nat m (a + 5) 1
  let freeze := Memory.nat m (a + 6) 2
  let hysteresis := Memory.nat m (a + 8) 2
  match Code.stageKind (Memory.nat m (a + 1) 1) with
  | none => .error .kind
  | some kind =>
    if 15 < channel then .error .channel
    else .ok
      ({ channel := channel, kind := kind, kf := clampNat 0 4 kf, ks := clampNat 2 8 ks,
         skip := clampNat 1 16 skip, freezeLimit := clampNat 0 4095 freeze,
         hysteresis := clampNat 0 4095 hysteresis, high := Memory.threshold m presence 0 (a + 10),
         low := Memory.threshold m presence 1 (a + 12),
         gust := Memory.threshold m presence 2 (a + 14) },
       clampNat 0 4 kf != kf || clampNat 2 8 ks != ks || clampNat 1 16 skip != skip ||
         clampNat 0 4095 freeze != freeze || clampNat 0 4095 hysteresis != hysteresis)

/-- `n` records from record i on, checked in list order. -/
def Memory.stageList (m : Mem) : Nat → Nat → Except (Nat × ListReason) (List StageConfig × Bool)
  | 0, _ => .ok ([], false)
  | n + 1, i =>
    match Memory.stageRecord m i with
    | .error r => .error (i, r)
    | .ok c =>
      match Memory.stageList m n (i + 1) with
      | .error f => .error f
      | .ok rest => .ok (c.1 :: rest.1, c.2 || rest.2)

/-- A carried stage takes its new configuration (R141). -/
def Stage.carry (g : Stage) (cfg : StageConfig) : Stage :=
  let g := { g with cfg := cfg, skip := 0 }
  match g.state with
  | .live => g.judgeFlags
  | .unseeded | .fault => g

/-- The stage of a loaded list: carried where the old list had a stage of that number with the same
channel and kind, new otherwise (R141). -/
def Stage.load (cfg : StageConfig) (old : Option Stage) : Stage :=
  match old with
  | none => Stage.fresh cfg
  | some g =>
    if g.cfg.channel = cfg.channel ∧ g.cfg.kind = cfg.kind then g.carry cfg else Stage.fresh cfg

/-- A loaded list against the old one, place by place (R141). -/
def loadStages : List StageConfig → List Stage → List Stage
  | [], _ => []
  | c :: rest, olds => Stage.load c olds.head? :: loadStages rest olds.tail

/-- Step 5 of the pass boundary (R127, R140). -/
def State.loadList (s : State) : State :=
  match s.sensing.pendingCount, s.exchange.inFlight with
  | some p, some r =>
    let s := s.modSensing (fun w => { w with pendingCount := none })
    match Memory.stageList s.mem p.1 0 with
    | .error f => s.answer r.page .badValue
        (Bytes.ofNat 1 f.1 ++ Bytes.ofNat 1 (Code.ofListReason f.2))
    | .ok l =>
      (s.modSensing (fun w => { w with stages := loadStages l.1 w.stages })).answer r.page
        (Result.ofClamped (l.2 || p.2)) (Bytes.ofNat 1 l.1.length)
  | _, _ => s

/-! ### The pass boundary (R127, R128) -/

/-- The sample requests of a pass (R128). -/
def Sensing.requestsOf (pass : BitVec 8) : Nat → List Stage → List Frame
  | _, [] => []
  | n, g :: rest => Frame.sampleRequest pass n g.cfg :: Sensing.requestsOf pass (n + 1) rest

/-- The next pass starts: step 6 of R127. -/
def Sensing.startPass (w : Sensing) : Sensing :=
  { w with
    pass := w.pass + 1, stages := w.stages.map (fun g => { g with answered := false }),
    timer := match w.rate with
      | .full => Config.fullPass
      | .quiet => Config.quietPass,
    requests := Sensing.requestsOf (w.pass + 1) 0 w.stages }

/-- One pass boundary, its six steps (R127). HC takes the stations from S0 to S15 (DESIGN CHOICE;
notes/assumptions/49.md). -/
def State.passBoundary (k : Settle) (s : State) : State :=
  let s := s.passWork
  let s := s.windPassEnd k
  let s := eachOf allStations (State.heatPassEnd k) s
  s.loadList.modSensing Sensing.startPass

/-- PASS_BOUNDARY (R127), due when the pass timer has run out. -/
def execPassBoundary (s : State) : Host.Outcome State Fault Refusal :=
  event s (fun s => if s.sensing.timer = 0 then s.passBoundary settle else s)

/-- QUIET_RATE_ENTRY (R142): the quiet pass at which the count reaches its limit. -/
def execQuietRateEntry (s : State) : Host.Outcome State Fault Refusal :=
  event s (fun s =>
    if s.sensing.rate = .full ∧ Config.quietLimit ≤ s.sensing.quietCount + 1 ∧
        s.quietPass = true then
      s.modSensing (fun w => { w with quietCount := Config.quietLimit, rate := .quiet })
    else s)

/-- STAGE_MISSES (R131): the third pass in a row in which the stage was not answered. -/
def execStageMisses (g : StageId) (s : State) : Host.Outcome State Fault Refusal :=
  event s (fun s =>
    match s.stage g.val with
    | none => s
    | some x =>
      if x.state ≠ .fault ∧ x.answered = false ∧ 2 ≤ x.missed then
        (s.modStage g.val (fun x => x.toFault .misses)).sensingEvent .misses g.val
      else s)

/-- BASELINE_STEP (R136): the unfrozen answered pass at which the skip count reaches M. -/
def execBaselineStep (g : StageId) (s : State) : Host.Outcome State Fault Refusal :=
  event s (fun s =>
    match s.stage g.val with
    | none => s
    | some x =>
      if x.state = .live ∧ x.answered = true ∧ x.frozen = false ∧ x.cfg.skip ≤ x.skip + 1 then
        s.modStage g.val Stage.step
      else s)

/-- FORCED_RECALIBRATION (R137): the frozen answered pass at which the freeze count reaches its limit. -/
def execForcedRecalibration (g : StageId) (s : State) : Host.Outcome State Fault Refusal :=
  event s (fun s =>
    match s.stage g.val with
    | none => s
    | some x =>
      if x.state = .live ∧ x.answered = true ∧ x.frozen = true ∧ x.cfg.freezeLimit ≠ 0 ∧
          x.cfg.freezeLimit ≤ x.freeze + 1 then
        (s.modStage g.val Stage.recalibrate).sensingEvent .recalibration g.val
      else s)

/-! ### RECALIBRATE (R138) -/

/-- Every LIVE stage recalibrated. -/
def State.recalibrateAll (s : State) : State :=
  s.modSensing (fun w => { w with
    stages := w.stages.map (fun g => if g.state = .live then g.recalibrate else g) })

/-- How many stages RECALIBRATE recalibrates. -/
def State.liveCount (s : State) : Nat := (s.sensing.stages.filter (fun g => g.state == .live)).length

end Sys2Proof.Machine
end

