-- ==== Sys2Proof/Machine/Drive.lean ====
section
/-! DEFINITION. The drive-interval expiry (R25, R55): books, demands, the axis state machine and its
monitors (R72, R73, R80), claims, JS (R114, R119) and DL; the expiry of hold-idle timers (R76). -/

namespace Sys2Proof.Machine

/-! ### Demands (R54 to R66) -/

/-- The raw demand of a book target for an axis at array time t (R54, R56). -/
def BookTarget.demand (b : BookTarget) (ax : AxisId) (t : Nat) : Int :=
  match b, ax with
  | .fixed p, .az => p.az
  | .fixed p, .el => p.el
  | .between p q, .az => interpolate p.time p.az q.time q.az t
  | .between p q, .el => interpolate p.time p.el q.time q.el t

/-- The raw demand of an axis (R54). At source BOOK without points handed on at this expiry, the axis's own
c (DESIGN CHOICE; notes/assumptions/40.md). -/
def Station.demandOf (x : Station) (ax : AxisId) (book : Option BookTarget) (t : Nat) : Int :=
  let a := x.axis ax
  if a.state = .holding then a.hold.getD a.c
  else match x.target.source with
    | .none => a.c
    | .book => match book with
      | none => a.c
      | some b => b.demand ax t
    | .stow => match x.target.stow with
      | none => a.c
      | some p => AxisId.of ax p
    | .sweep => match x.hold with
      | none => a.c
      | some h => AxisId.of ax (h.az, h.el)
    | .shed => match x.target.shed with
      | none => a.c
      | some p => AxisId.of ax p

/-- The release count of an axis that has been computed: it rises by one in RELEASING (R72). -/
def Axis.countUp (a : Axis) : Axis :=
  if a.state = .releasing then { a with releaseCount := a.releaseCount.map (fun n => n + 1) } else a

/-- One axis at an expiry: computed in the powered states, at rest in the others (R65, R66, R69). -/
def Station.computeAxis (x : Station) (zone : Zone) (book : Option BookTarget) (t : Nat)
    (ax : AxisId) : Station :=
  x.modAxis ax (fun a =>
    if a.state.powered then
      (a.compute (x.cfg.axis ax) (lowerBound ax (x.cfg.axis ax) zone.state zone.cfg.floor)
        x.claim.grantedLevel (x.link.report.map (fun r => r.encoder ax))
        (x.demandOf ax book t)).countUp
    else a.rest)

/-! ### The axis state machine at an expiry (R72, R73, R80) -/

/-- The tracking monitor on one axis (R80). -/
def State.monitorAxis (k : Settle) (st : StationId) (ax : AxisId) (s : State) : State :=
  let x := s.station st
  if (x.axis ax).state.moving then
    let m := (x.axis ax).monitor (x.cfg.axis ax).errorLimit
    if m.2 then s.faultAxis k st ax .tracking else s.modAxis st ax (fun _ => m.1)
  else s

/-- A RELEASING axis that this expiry has judged (R72): a release seen before is acted on, by the source at
the moment of its report (R75; notes/assumptions/42.md), and the 50th expiry without it faults the axis. The
count of an axis that stays for want of a granted level is held at its greatest value. -/
def State.countRelease (k : Settle) (st : StationId) (ax : AxisId) (s : State) : State :=
  let x := s.station st
  let a := x.axis ax
  if a.state = .releasing ∧ a.judged = true then
    if a.releaseSeen = some true then
      s.modAxis st ax (fun a => { a with
        releaseCount := a.releaseCount.map (fun n => min n (Config.releaseLimit - 1)) }.release
          (a.releaseSource.getD x.target.source) x.claim.grantedLevel x.cfg.holdIdle)
    else if a.releaseCount.getD 0 < Config.releaseLimit then s
    else s.faultAxis k st ax .brake
  else s

/-- Whether the pair of books has changed as to which of them is RUNNING. -/
def Station.runsSame (x y : Station) : Bool :=
  (x.bookA.state == .running) == (y.bookA.state == .running) &&
    (x.bookB.state == .running) == (y.bookB.state == .running)

/-- Step 1 of R55 for one station: its pending book starts if its time has come (R38); a standing shed order
is withdrawn at once (R181), the source being decided after the reading (R42). -/
def State.startAtExpiry (st : StationId) (s : State) : State :=
  if (s.station st).retired then s
  else
    let t := s.startDueBook st
    if (s.station st).runsSame (t.station st) || !(t.station st).shedOrder then t
    else t.modStation st Station.withdrawShed

/-- Step 2 of R55 for one station: its RUNNING book is read (R39). -/
def State.readAtExpiry (st : StationId) (s : State) : State :=
  if (s.station st).retired then s else (s.readBook st).1

/-- TE's books at an expiry: the states before, after every start, and after every reading. -/
structure BookPhase where
  before : State
  started : State
  read : State

/-- Steps 1 and 2 of R55: every station's start comes before any station's reading (R38). -/
def State.bookPhase (s : State) : BookPhase :=
  let started := eachOf allStations State.startAtExpiry s
  { before := s, started := started, read := eachOf allStations State.readAtExpiry started }

/-- Whether a book of the station entered or left RUNNING in the phase (R42). -/
def BookPhase.moved (b : BookPhase) (st : StationId) : Bool :=
  !((b.before.station st).runsSame (b.started.station st) &&
    (b.started.station st).runsSame (b.read.station st))

/-- The points that the phase hands on for a station (R42), while its books stand as they were read: a book
that an event of the same expiry has engaged or stopped since hands on nothing (R43). -/
def BookPhase.handed (b : BookPhase) (st : StationId) (x : Station) : Option BookTarget :=
  if x.bookA = (b.read.station st).bookA ∧ x.bookB = (b.read.station st).bookB then
    (b.started.readBook st).2
  else none

/-- TE at an expiry, for one station (R55, steps 3 to 5). AZ comes before EL in the monitors and in the
release count, and its fault is settled before EL is judged (DESIGN CHOICE; notes/assumptions/41.md). -/
def State.driveStation (k : Settle) (b : BookPhase) (st : StationId) (s : State) : State :=
  if (s.station st).retired then s
  else
    let s := if b.moved st then s.inputChanged k st else s
    let before := s.station st
    let zone := s.zone before.cfg.zone
    let book := b.handed st before
    let now := s.now
    let s := s.modStation st (fun x =>
      (x.computeAxis zone book now .az).computeAxis zone book now .el)
    let s := (s.monitorAxis k st .az).monitorAxis k st .el
    let s := (s.countRelease k st .az).countRelease k st .el
    let s := s.modStation st (fun x =>
      { x with az := x.az.advance x.claim.grantedLevel, el := x.el.advance x.claim.grantedLevel })
    s.afterAxes k st before

/-- JS's judgements of an expiry (R114, R119) on the table that runs when they begin: a table that the end
of the other starts is judged from the next expiry on (notes/assumptions/15.md). -/
def State.judgeTables (k : Settle) (s : State) : State :=
  let first := s
  let s := if (first.table 0).state.runs then s.judgeTable k 0 else s
  if (first.table 1).state.runs then s.judgeTable k 1 else s

/-- The drive-interval expiry: TE for every station, JS for the running table and the starts AT_TIME,
DL for every station, and array time shown (R17, R25, R55, R109, R114). Of two starts AT_TIME that fall
together T0 arrives first (DESIGN CHOICE; notes/assumptions/37.md). -/
def State.driveExpiry (k : Settle) (s : State) : State :=
  let s := s.modTime (fun t => { t with drive := Config.driveInterval })
  let b := s.bookPhase
  let s := eachOf allStations (State.driveStation k b) b.read
  let s := s.judgeTables k
  let s := (s.arriveAtTime k 0).arriveAtTime k 1
  let s := s.linkExpiry k
  s.modTime (fun t => { t with shown := t.time })

/-- DRIVE_INTERVAL_EXPIRY (R55), due when 20 ms have been counted (R25). -/
def execDriveIntervalExpiry (s : State) : Host.Outcome State Fault Refusal :=
  event s (fun s => if s.time.drive = 0 then s.driveExpiry settle else s)

/-- TRACKING_FAULT (R80): a moving axis whose error exceeds its limit for the tenth expiry in a row. -/
def execTrackingFault (st : StationId) (ax : AxisId) (s : State) :
    Host.Outcome State Fault Refusal :=
  event s (fun s =>
    let x := s.station st
    if (x.axis ax).state.moving = true ∧ ((x.axis ax).monitor (x.cfg.axis ax).errorLimit).2 = true then
      s.faultAxis settle st ax .tracking
    else s)

/-- BRAKE_TIMEOUT (R72): the 50th expiry of a RELEASING axis without its release reported. -/
def execBrakeTimeout (st : StationId) (ax : AxisId) (s : State) : Host.Outcome State Fault Refusal :=
  event s (fun s =>
    let a := (s.station st).axis ax
    if a.state = .releasing ∧ a.releaseSeen ≠ some true ∧
        Config.releaseLimit ≤ a.releaseCount.getD 0 + 1 then
      s.faultAxis settle st ax .brake
    else s)

/-- HOLD_IDLE_EXPIRY (R76): the axis is braked and examined. -/
def execHoldIdleExpiry (st : StationId) (ax : AxisId) (s : State) :
    Host.Outcome State Fault Refusal :=
  event s (fun s =>
    let a := (s.station st).axis ax
    if a.state = .holding ∧ a.holdIdle = some 0 then
      (s.changeAxes settle st (fun x => (x.modAxis ax Axis.brake).examine ax)).axesChanged settle st
    else s)

/-- STROBE_TIMEOUT (R110). -/
def execStrobeTimeout (t : TableId) (s : State) : Host.Outcome State Fault Refusal :=
  event s (fun s =>
    let x := s.table t
    if x.state = .armed ∧ x.strobe = some 0 then
      let now := s.now
      (s.modTable t (fun x =>
        { x with state := .expired, strobe := none, ended := some (.expired, now) })).bump .sweepEnds
    else s)

/-- SETTLE_TIMEOUT (R119): the record is passed as settled, with the mark, and the table is judged for
its end (R121). -/
def execSettleTimeout (st : StationId) (s : State) : Host.Outcome State Fault Refusal :=
  event s (fun s =>
    let p := (s.station st).progress
    match p.table with
    | none => s
    | some t =>
      if p.timer = some 0 ∧ (p.state = .waiting ∨ p.state = .moving) ∧
          (s.table t).state.runs = true then
        let s := s.modProgress st (fun p =>
          { p with state := .settled, timer := none, mark := true })
        (s.modTable t (fun x => { x with timeouts := x.timeouts + 1 })).judgeEnd settle 2 t
      else s)

/-- SWEEP_STROBE (R109): a rising edge stops the strobe timer of every table that waits for it, and its
start arrives. -/
def State.strobe (k : Settle) (t : TableId) (s : State) : State :=
  let x := s.table t
  if x.state = .armed ∧ x.startDue = false ∧ x.strobe.isSome = true then
    (s.modTable t (fun x => { x with strobe := none })).arriveStart k t
  else s

/-- SWEEP_STROBE (R109), T0 before T1 where both wait (DESIGN CHOICE; notes/assumptions/37.md). -/
def execSweepStrobe (s : State) : Host.Outcome State Fault Refusal :=
  event s (fun s => (s.strobe settle 0).strobe settle 1)

end Sys2Proof.Machine
end

