-- ==== Sys2Proof/Machine/Time.lean ====
section
/-! DEFINITION. TU (R17 to R24): SET_TIME, the site pulse with its snap, the pulse watch, and one
millisecond of the local oscillator. -/

namespace Sys2Proof.Machine

/-- Whether two array times differ by more than 2 ms either way (R20, R21, R23). -/
def timeSteps (a b : Nat) : Bool := decide (a + 2 < b) || decide (b + 2 < a)

/-- One increment of TIME_STEPS where a change of array time is a step. -/
def State.countStep (step : Bool) (s : State) : State := if step then s.bump .timeSteps else s

/-- SET_TIME of mode IMMEDIATE (R20). -/
def State.setTimeNow (value : Nat) (s : State) : State :=
  let step := timeSteps value s.now
  (s.modTime (fun t =>
    { t with time := value, state := .free, watch := none, pendingSet := none })).countStep step

/-- A taken pulse applies the pending set (R21). -/
def State.applySet (value : Nat) (s : State) : State :=
  let step := timeSteps value s.now
  (s.modTime (fun t =>
    { t with time := value, state := .locked, watch := some Config.pulseWatch, pendingSet := none,
             lastSnap := none })).countStep step

/-- The whole second to which a snap moves array time, and the snap error (R23). -/
def snapOf (time : Nat) : Nat × Int :=
  let m := time % 1000
  if m < 500 then (time - m, (m : Int)) else ((time + (1000 - m)) % TimeUnit.wrap, (m : Int) - 1000)

/-- A taken pulse snaps array time (R23). -/
def State.snap (s : State) : State :=
  let r := snapOf s.now
  (s.modTime (fun t =>
    { t with time := r.1, state := .locked, watch := some Config.pulseWatch,
             lastSnap := some r.2 })).countStep (decide (2 < r.2.natAbs))

/-- What a taken pulse does to array time (R22). -/
def State.pulseTime (s : State) : State :=
  match s.time.pendingSet, s.time.state with
  | some v, _ => s.applySet v
  | none, .unset => s
  | none, .free | none, .locked => s.snap

/-- Whether an edge is taken as a pulse (R22). -/
def TimeUnit.takes (t : TimeUnit) : Bool :=
  match t.sincePulse with
  | none => true
  | some n => decide (Config.pulseSpacing ≤ n)

/-- A taken pulse handed to JS (R22, R109). -/
def State.pulseTable (k : Settle) (t : TableId) (s : State) : State :=
  match (s.table t).launch with
  | none => s
  | some l => if l.source = .nextPulse then s.arriveStart k t else s

/-- SITE_PULSE (R22): an edge that comes too soon is disregarded. Where one taken pulse is the start of both
tables, the start of T0 is taken first (R111; DESIGN CHOICE, notes/assumptions/37.md). -/
def execSitePulse (s : State) : Host.Outcome State Fault Refusal :=
  event s (fun s =>
    if s.time.takes then
      let s := (s.modTime (fun t => { t with sincePulse := some 0 })).pulseTime
      (s.pulseTable settle 0).pulseTable settle 1
    else s)

/-- PULSE_WATCH_EXPIRY (R24). -/
def execPulseWatchExpiry (s : State) : Host.Outcome State Fault Refusal :=
  event s (fun s =>
    if s.time.state = .locked ∧ s.time.watch = some 0 then
      (s.modTime (fun t => { t with state := .free, watch := none })).bump .pulseLosses
    else s)

/-! ### One millisecond (R17, R18) -/

/-- A running timer counts one millisecond down. -/
def Timer.tick (t : Timer) : Timer := t.map (fun n => n - 1)

/-- The hold-idle timer of an axis counts. -/
def Axis.tick (a : Axis) : Axis := { a with holdIdle := Timer.tick a.holdIdle }

/-- The timers of a heater zone count. -/
def Heater.tick (h : Heater) : Heater :=
  { h with
    probeWindow := Timer.tick h.probeWindow, energize := Timer.tick h.energize,
    overload := Timer.tick h.overload, openElement := Timer.tick h.openElement,
    cooldown := Timer.tick h.cooldown, meltOff := Timer.tick h.meltOff, onRun := Timer.tick h.onRun }

/-- The timers of a station count. -/
def Station.tick (x : Station) : Station :=
  { x with
    az := x.az.tick, el := x.el.tick, reflector := x.reflector.tick, feed := x.feed.tick,
    validation := x.validation.map (fun v => { v with timer := Timer.tick v.timer }),
    progress := { x.progress with timer := Timer.tick x.progress.timer } }

/-- The timers of a wind zone count. -/
def Zone.tick (z : Zone) : Zone :=
  { z with
    blindTimer := Timer.tick z.blindTimer, holdTimer := Timer.tick z.holdTimer,
    deadline := Timer.tick z.deadline }

/-- Array time advances by one, to 0 after its last value (R17), and what TU counts counts on. -/
def TimeUnit.tick (t : TimeUnit) : TimeUnit :=
  { t with
    time := (t.time + 1) % TimeUnit.wrap, sincePulse := t.sincePulse.map (fun n => n + 1),
    watch := Timer.tick t.watch, drive := t.drive - 1 }

/-- One millisecond of the local oscillator counted by the whole part. -/
def State.tick (s : State) : State :=
  { s with
    time := s.time.tick,
    sensing := { s.sensing with timer := s.sensing.timer - 1 },
    tables := Vector.ofFn (fun i =>
      { s.tables[i] with strobe := Timer.tick s.tables[i].strobe }),
    zones := Vector.ofFn (fun i => s.zones[i].tick),
    stations := Vector.ofFn (fun i => s.stations[i].tick),
    panelLine := { s.panelLine with elapsed := s.panelLine.elapsed + 4 } }

end Sys2Proof.Machine
end

