-- ==== Sys2Proof/Machine/Requests.lean ====
section
/-! DEFINITION. The twenty-two request kinds, each as its take: XI's checks 2 to 4 (R6), the owner's
checks and effects, and the answer (R8). The parameters are the bits of the request page (R197). Each
take is run by REQUEST_TAKE on the page it reads, and by the row of its kind on the operands it
carries. -/

namespace Sys2Proof.Machine

/-! ### Targets (R6) -/

/-- A station named by a target index. -/
def Target.station (t : BitVec 16) : Option StationId :=
  if h : t.toNat < 16 then some ⟨t.toNat, h⟩ else none

/-- A heater zone named by a target index: an even one names the REFLECTOR of station n / 2, an odd one
its FEED. -/
def Target.heater (t : BitVec 16) : Option (StationId × Area) :=
  if h : t.toNat < 32 then
    some (⟨t.toNat / 2, by omega⟩, if t.toNat % 2 = 0 then .reflector else .feed)
  else none

/-- A wind zone named by a target index. -/
def Target.zone (t : BitVec 16) : Option ZoneId :=
  if h : t.toNat < 4 then some ⟨t.toNat, h⟩ else none

/-- A sweep table named by a target index. -/
def Target.table (t : BitVec 16) : Option TableId :=
  if h : t.toNat < 2 then some ⟨t.toNat, h⟩ else none

/-- The target ALL (R197). -/
def Target.all : BitVec 16 := 0xFFFF

/-- Checks 2 and 3 of R6 on a request that names a station. -/
def State.onStation (page : PageId) (target : BitVec 16) (f : StationId → State → State)
    (s : State) : State :=
  match Target.station target with
  | none => s.answer page .badTarget []
  | some st => if (s.station st).retired then s.answer page .retired [] else f st s

/-- Checks 2 and 3 of R6 on a request that names a heater zone. -/
def State.onHeater (page : PageId) (target : BitVec 16) (f : StationId → Area → State → State)
    (s : State) : State :=
  match Target.heater target with
  | none => s.answer page .badTarget []
  | some (st, area) => if (s.station st).retired then s.answer page .retired [] else f st area s

/-- Check 2 of R6 on a request that names a wind zone. -/
def State.onZone (page : PageId) (target : BitVec 16) (f : ZoneId → State → State) (s : State) :
    State :=
  match Target.zone target with
  | none => s.answer page .badTarget []
  | some z => f z s

/-- Check 2 of R6 on a request that names a sweep table. -/
def State.onTable (page : PageId) (target : BitVec 16) (f : TableId → State → State) (s : State) :
    State :=
  match Target.table target with
  | none => s.answer page .badTarget []
  | some t => f t s

/-- Check 4 of R6: an enumerated parameter that is not one of its names. -/
def State.named {α : Type} (page : PageId) (code : Option α) (f : α → State → State) (s : State) :
    State :=
  match code with
  | none => s.answer page .badValue []
  | some a => f a s

/-! ### Time and books -/

/-- SET_TIME (R20, R21). -/
def State.takeSetTime (page : PageId) (value : BitVec 48) (mode : BitVec 8) (s : State) : State :=
  s.named page (Code.timeMode mode.toNat) (fun m s =>
    match m with
    | .immediate => (s.setTimeNow value.toNat).answer page .done []
    | .atPulse =>
      if value.toNat % 1000 = 0 then
        (s.modTime (fun t => { t with pendingSet := some value.toNat })).answer page .done []
      else s.answer page .badValue [])

/-- The validation record at its start, with the header as it stands (R33, R34). -/
def Validation.start (m : Mem) (st : StationId) (l : Letter) (number : Nat) : Validation :=
  { letter := l, number := number, checked := 0, headerNumber := Memory.bookNumber m st l,
    headerCount := Memory.pointCount m st l, first := 0, previous := 0, timer := some 1 }

/-- ARM_BOOK (R33): a request that passes stays in flight (R9). -/
def State.takeArmBook (page : PageId) (target : BitVec 16) (letter : BitVec 8) (number : BitVec 16)
    (s : State) : State :=
  s.onStation page target (fun st s => s.named page (Code.letter letter.toNat) (fun l s =>
    if s.time.state = .unset then s.answer page .timeUnset []
    else if ((s.station st).book l).state = .running then s.answer page .bookBusy []
    else
      (s.modStation st (fun x =>
        { x with validation := some (Validation.start s.mem st l number.toNat) })).modExchange
          (fun x => { x with inFlight := some { page := page, request := .armBook st } })))

/-- DISARM_BOOK (R44). -/
def State.takeDisarmBook (page : PageId) (target : BitVec 16) (s : State) : State :=
  s.onStation page target (fun st s =>
    match (s.station st).bookIn .pending with
    | none => s.answer page .notNow []
    | some l => (s.modBook st l (fun b => { b with state := .idle })).answer page .done [])

/-- STOP_BOOK (R45). -/
def State.takeStopBook (k : Settle) (page : PageId) (target : BitVec 16) (s : State) : State :=
  s.onStation page target (fun st s =>
    match (s.station st).bookIn .running with
    | none => s.answer page .notNow []
    | some l => ((s.modBook st l Book.idle).inputChanged k st).answer page .done [])

/-! ### Stations and axes -/

/-- The states of an axis that CONFIGURE_STATION admits (R84). -/
def AxisState.admitsConfig : AxisState → Bool
  | .braked | .stowed | .faulted => true
  | .retired | .awaitingPower | .releasing | .slewing | .catchingUp | .tracking | .holding
    | .stowing => false

/-- Check 5 of R84 on an axis. -/
def Axis.keptOutside (a : Axis) (cfg : AxisConfig) : Bool :=
  a.state == .stowed && (decide (a.c < cfg.lmin) || decide (cfg.lmax < a.c))

/-- The configuration in place and what follows from it (R84, R145): the member sets, the source, the
claim where a need changes, and the zone's tests. A STOWED axis stays STOWED. The shed order is judged at the
next event of R181's list, which does not name this one (DESIGN CHOICE; notes/assumptions/54.md). -/
def State.configure (k : Settle) (st : StationId) (cfg : StationConfig) (s : State) : State :=
  let old := (s.station st).cfg.zone
  let s := s.modStation st (fun x => { x with cfg := cfg })
  let s := s.moveMember k st old
  ((s.redecideSource k st).formClaim k st).axesChanged k st

/-- CONFIGURE_STATION (R84): the five checks in order, then the whole configuration. -/
def State.takeConfigureStation (k : Settle) (page : PageId) (target : BitVec 16)
    (raw : RawStationConfig) (s : State) : State :=
  s.onStation page target (fun st s =>
    let x := s.station st
    let cfg := RawStation.config raw
    if !(x.az.state.admitsConfig && x.el.state.admitsConfig) then s.answer page .notNow []
    else if RawStation.badValue raw then s.answer page .badValue []
    else if cfg.inconsistent then s.answer page .badValue []
    else if x.az.keptOutside cfg.az || x.el.keptOutside cfg.el then s.answer page .notNow []
    else (s.configure k st cfg).answer page (Result.ofClamped (RawStation.clamped raw)) [])

/-- Whether RECOVER_AXIS is refused (R83). -/
def Station.refusesRecovery (x : Station) (ax : AxisId) : Bool :=
  (x.axis ax).state != .faulted || !x.link.amplifier ax ||
    (match x.link.report with
      | none => true
      | some r => r.limitSwitch ax)

/-- A FAULTED axis recovered (R83): BRAKED, examined, and WP's judgement of being able to move (R153). -/
def State.recover (k : Settle) (st : StationId) (ax : AxisId) (s : State) : State :=
  (s.changeAxes k st (fun x => (x.modAxis ax Axis.brake).examine ax)).ableToMove k st

/-- RECOVER_AXIS (R83). -/
def State.takeRecoverAxis (k : Settle) (page : PageId) (target : BitVec 16) (axis : BitVec 8)
    (s : State) : State :=
  s.onStation page target (fun st s => s.named page (Code.axis axis.toNat) (fun ax s =>
    if (s.station st).refusesRecovery ax then s.answer page .notNow []
    else (s.recover k st ax).answer page .done []))

/-! ### Power -/

/-- A change of budgets or of the alarm; PB acts on a budget in force that it altered (R87). -/
def State.rebudget (k : Settle) (f : Power → Power) (s : State) : State :=
  let before := s.power.inForce
  let s := s.modPower f
  if s.power.inForce = before then s else k (s.leave .budget)

/-- SET_BUDGET (R88). -/
def State.takeSetBudget (k : Settle) (page : PageId) (normal emergency : BitVec 32) (s : State) :
    State :=
  let n := clampNat 0 400000 normal.toNat
  let e := clampNat 0 400000 emergency.toNat
  (s.rebudget k (fun p => { p with normal := n, emergency := e })).answer page
    (Result.ofClamped (n != normal.toNat || e != emergency.toNat)) []

/-- FEEDER_ALARM_CHANGE (R87). -/
def execFeederAlarmChange (level : Bool) (s : State) : Host.Outcome State Fault Refusal :=
  event s (fun s => s.rebudget settle (fun p => { p with alarm := level }))

/-! ### Sweeps -/

/-- The table record replaced at an accepted launch (R108). -/
def SweepTable.launched (entries : List SweepEntry) (source : StartSource) (time timeout : Nat) :
    SweepTable :=
  { SweepTable.reset with
    state := .armed, snapshot := some entries,
    launch := some { source := source, time := time, timeout := timeout },
    strobe := if source = .strobe then some (1000 * timeout) else none }

/-- Whether a table may be launched (R107). -/
def TableState.launchable : TableState → Bool
  | .idle | .done | .cancelled | .expired => true
  | .armed | .running | .settling => false

/-- LAUNCH_SWEEP (R107, R108). -/
def State.takeLaunchSweep (page : PageId) (target : BitVec 16) (source : BitVec 8)
    (start : BitVec 48) (timeout : BitVec 32) (s : State) : State :=
  s.onTable page target (fun t s => s.named page (Code.startSource source.toNat) (fun src s =>
    if (s.table t).state.launchable = false then s.answer page .sweepBusy []
    else if src = .atTime ∧ s.time.state = .unset then s.answer page .timeUnset []
    else match Memory.snapshot s.mem t with
      | .error f => s.answer page .tableInvalid
          (Bytes.ofNat 1 f.1 ++ Bytes.ofNat 1 (Code.ofTableReason f.2))
      | .ok l =>
        let limit := clampNat 1 3600 timeout.toNat
        (s.modTable t (fun _ => SweepTable.launched l.1 src start.toNat limit)).answer page
          (Result.ofClamped (l.2 || limit != timeout.toNat)) (Bytes.ofNat 1 l.1.length)))

/-- CANCEL_SWEEP (R122). -/
def State.takeCancelSweep (k : Settle) (page : PageId) (target : BitVec 16) (s : State) : State :=
  s.onTable page target (fun t s =>
    if (s.table t).state.cancellable then (s.cancelTable k t true).answer page .done []
    else s.answer page .notNow [])

/-! ### Sensing -/

/-- CONFIGURE_SENSING (R139): the request stays in flight (R9). -/
def State.takeConfigureSensing (page : PageId) (count : BitVec 8) (s : State) : State :=
  let n := clampNat 0 16 count.toNat
  (s.modSensing (fun w => { w with pendingCount := some (n, n != count.toNat) })).modExchange
    (fun x => { x with inFlight := some { page := page, request := .configureSensing } })

/-- RECALIBRATE (R138). -/
def State.takeRecalibrate (page : PageId) (s : State) : State :=
  s.recalibrateAll.answer page .done (Bytes.ofNat 1 s.liveCount)

/-! ### Wind zones -/

/-- The answer to a zone request carries the zone state after the take (R146, R160). -/
def State.answerZone (page : PageId) (r : Result) (z : ZoneId) (s : State) : State :=
  s.answer page r (Bytes.ofNat 1 (Code.ofZoneState (s.zone z).state))

/-- A zone's configuration replaced, then judged and evaluated at once (R146). -/
def State.configureZone (k : Settle) (z : ZoneId) (cfg : ZoneConfig) (s : State) : State :=
  let s := (s.modZone z (fun x => { x with cfg := cfg })).judgeWeather z
  let s := s.evaluate k false z
  match (s.zone z).state with
  | .unwatched =>
    if cfg.stages.isEmpty then s else (s.moveZone k z .calm id).moveByWeather k z
  | .calm | .watch => if cfg.stages.isEmpty then s.moveZone k z .unwatched id else s
  | .stowing | .stowed | .returnHold => s

/-- CONFIGURE_ZONE (R146). -/
def State.takeConfigureZone (k : Settle) (page : PageId) (target : BitVec 16) (raw : RawZoneConfig)
    (s : State) : State :=
  s.onZone page target (fun z s =>
    let cfg := RawZone.config raw
    if RawZone.badValue raw then s.answer page .badValue []
    else if cfg.release ≤ cfg.watch ∧ cfg.watch ≤ cfg.stow then
      (s.configureZone k z cfg).answerZone page (Result.ofClamped (RawZone.clamped raw)) z
    else s.answer page .badValue [])

/-- The stow order flag set or cleared, and the zone evaluated (R160). -/
def State.orderZone (k : Settle) (z : ZoneId) (order : Bool) (s : State) : State :=
  (s.modZone z (fun x => { x with order := order })).evaluate k false z

/-- STOW_ZONE (R160). -/
def State.takeStowZone (k : Settle) (page : PageId) (target : BitVec 16) (s : State) : State :=
  s.onZone page target (fun z s => (s.orderZone k z true).answerZone page .done z)

/-- RELEASE_ZONE (R160). -/
def State.takeReleaseZone (k : Settle) (page : PageId) (target : BitVec 16) (s : State) : State :=
  s.onZone page target (fun z s => (s.orderZone k z false).answerZone page .done z)

/-! ### Heater zones -/

/-- The answer to a heat request carries the zone state after the take (R166, R167, R170). -/
def State.answerHeater (page : PageId) (r : Result) (st : StationId) (area : Area) (s : State) :
    State :=
  s.answer page r (Bytes.ofNat 1 (Code.ofHeatState ((s.station st).heater area).state))

/-- The record of a zone that changes between MANUAL and AUTO, its auto demand judged as given where it
enters AUTO (R166). -/
def Heater.changeMode (h : Heater) (mode : HeatMode) (demand missing : Bool) : Heater :=
  match mode with
  | .auto => { h with mode := .auto, manual := false, auto := demand, sensorMissing := missing }
  | .manual =>
    { h with mode := .manual, auto := false, sensorMissing := false, meltOff := none }
  | .off => h

/-- A zone's change of mode (R166). -/
def State.setMode (k : Settle) (st : StationId) (area : Area) (mode : HeatMode) (s : State) : State :=
  let h := (s.station st).heater area
  if h.mode = mode then s
  else match mode, h.mode with
    | .off, _ => s.changeHeater k st area Heater.toOff
    | _, .off =>
      let d := s.autoDemand st area
      (s.changeHeater k st area (fun h =>
        { h.changeMode mode d.1 d.2 with state := .idle, manual := false })).judgeProbe k st area
    | _, _ =>
      let d := s.autoDemand st area
      s.changeCall k st area (fun h => h.changeMode mode d.1 d.2)

/-- SET_HEAT_MODE (R166). -/
def State.takeSetHeatMode (k : Settle) (page : PageId) (target : BitVec 16) (mode : BitVec 8)
    (s : State) : State :=
  s.onHeater page target (fun st area s => s.named page (Code.heatMode mode.toNat) (fun m s =>
    (s.setMode k st area m).answerHeater page .done st area))

/-- The manual demand of a MANUAL zone set or cleared, and the answer (R167). -/
def State.manualDemand (k : Settle) (page : PageId) (demand : Bool) (st : StationId) (area : Area)
    (s : State) : State :=
  if ((s.station st).heater area).mode = .manual then
    (s.changeCall k st area (fun h => { h with manual := demand })).answerHeater page .done st area
  else s.answer page .notNow []

/-- HEAT_ON (R167). -/
def State.takeHeatOn (k : Settle) (page : PageId) (target : BitVec 16) (s : State) : State :=
  s.onHeater page target (State.manualDemand k page true)

/-- HEAT_OFF (R167). -/
def State.takeHeatOff (k : Settle) (page : PageId) (target : BitVec 16) (s : State) : State :=
  s.onHeater page target (State.manualDemand k page false)

/-- PROBE_HEATER (R170). -/
def State.takeProbeHeater (k : Settle) (page : PageId) (target : BitVec 16) (s : State) : State :=
  s.onHeater page target (fun st area s =>
    let h := (s.station st).heater area
    if (h.state = .idle ∨ h.state = .ready) ∧ (s.station st).mayHeat = true then
      (s.changeHeater k st area (fun h =>
        { h with state := .probing, cls := none, probeNamed := false })).answerHeater
          page .done st area
    else s.answer page .notNow [])

/-! ### Lockouts and retirement -/

/-- PLACE_TAG (R185). -/
def State.takePlaceTag (k : Settle) (page : PageId) (target : BitVec 16) (kind scope : BitVec 8)
    (id : BitVec 16) (s : State) : State :=
  s.onStation page target (fun st s =>
    s.named page (Code.tagKind kind.toNat) (fun kd s =>
      s.named page (Code.scope scope.toNat) (fun sc s =>
        let x := s.station st
        if kd = .ret ∨ kd = .site ∨ Tag.plainId id.toNat = false then s.answer page .badValue []
        else if x.hasTag id.toNat then s.answer page .tagDuplicate []
        else if Config.tagLimit ≤ x.tags.length then s.answer page .tagFull []
        else
          (s.placeTag k st { id := id.toNat, kind := kd, scope := sc, party := .request,
                             time := s.now }).answer page .done
            (Bytes.ofNat 1 (x.tags.length + 1)))))

/-- The stations that CLEAR_RETURN for ALL clears (R188). -/
def State.withReturn (s : State) : List StationId :=
  allStations.filter (fun st => !(s.station st).retired && (s.station st).hasTag Config.returnId)

/-- CLEAR_RETURN (R188). -/
def State.takeClearReturn (k : Settle) (page : PageId) (target : BitVec 16) (s : State) : State :=
  if target = Target.all then
    (eachOf s.withReturn (fun st => State.removeTag k st Config.returnId .request) s).answer page
      .done (Bytes.ofNat 1 s.withReturn.length)
  else s.onStation page target (fun st s =>
    if (s.station st).hasTag Config.returnId then
      (s.removeTag k st Config.returnId .request).answer page .done []
    else s.answer page .notNow [])

/-- Whether a station has a SITE tag or site pending (R189). -/
def Station.siteHeld (x : Station) : Bool := x.hasTag Config.siteId || x.sitePending

/-- A station's site pending flag and SITE tag cleared (R189). -/
def State.clearStation (k : Settle) (st : StationId) (s : State) : State :=
  let s := s.modStation st (fun x => { x with sitePending := false })
  if (s.station st).hasTag Config.siteId then s.removeTag k st Config.siteId .request else s

/-- The stations that CLEAR_SITE for ALL clears (R189). -/
def State.withSite (s : State) : List StationId :=
  allStations.filter (fun st => !(s.station st).retired && (s.station st).siteHeld)

/-- CLEAR_SITE (R189). -/
def State.takeClearSite (k : Settle) (page : PageId) (target : BitVec 16) (s : State) : State :=
  if target = Target.all then
    if s.lines.siteStop then s.answer page .notPermitted []
    else (eachOf s.withSite (State.clearStation k) s).answer page .done
      (Bytes.ofNat 1 s.withSite.length)
  else s.onStation page target (fun st s =>
    if s.lines.siteStop then s.answer page .notPermitted []
    else if (s.station st).siteHeld then (s.clearStation k st).answer page .done []
    else s.answer page .notNow [])

/-- The two fuse words as result data (R194, R197). -/
def Station.fuseData (x : Station) : List Byte := Status.flags [x.fuse1, x.fuse2]

/-- RETIRE_STATION (R194). -/
def State.takeRetireStation (page : PageId) (target : BitVec 16) (s : State) : State :=
  s.onStation page target (fun st s =>
    if (s.station st).fuse1 then s.answer page .fuseWritten (s.station st).fuseData
    else
      let s := s.writeFuse st 1 .request
      s.answer page .done (s.station st).fuseData)

end Sys2Proof.Machine
end

