-- ==== Sys2Proof/Machine/Timers.lean ====
section
/-! DEFINITION. The run-outs of HC's timers (R169, R172, R174, R175, R177, R181) and of WP's (R148, R154,
R157), and the SITE_STOW line (R159). A run-out acts on a timer that stands at 0. -/

namespace Sys2Proof.Machine

/-- PROBE_WINDOW_EXPIRY (R172): no result was taken. -/
def execProbeWindowExpiry (st : StationId) (area : Area) (s : State) :
    Host.Outcome State Fault Refusal :=
  event s (fun s =>
    let h := (s.station st).heater area
    if h.state = .probing ∧ h.probeWindow = some 0 then s.faultHeater settle st area .noResult 0
    else s)

/-- The judgement of the latest current at the end of the start window (R174). -/
def State.endStart (k : Settle) (st : StationId) (area : Area) (s : State) : State :=
  let h := (s.station st).heater area
  if h.below 50 || h.above 125 then s.faultHeater k st area .startFault h.current
  else s.changeHeater k st area (fun h => h.toOn area)

/-- ENERGIZE_WINDOW_EXPIRY (R174). -/
def execEnergizeWindowExpiry (st : StationId) (area : Area) (s : State) :
    Host.Outcome State Fault Refusal :=
  event s (fun s =>
    let h := (s.station st).heater area
    if h.state = .energizing ∧ h.energize = some 0 then s.endStart settle st area else s)

/-- OVERLOAD_EXPIRY (R175). -/
def execOverloadExpiry (st : StationId) (area : Area) (s : State) :
    Host.Outcome State Fault Refusal :=
  event s (fun s =>
    let h := (s.station st).heater area
    if h.state = .on ∧ h.overload = some 0 then s.faultHeater settle st area .overload h.current
    else s)

/-- OPEN_ELEMENT_EXPIRY (R175). -/
def execOpenElementExpiry (st : StationId) (area : Area) (s : State) :
    Host.Outcome State Fault Refusal :=
  event s (fun s =>
    let h := (s.station st).heater area
    if h.state = .on ∧ h.openElement = some 0 then
      s.faultHeater settle st area .openElement h.current
    else s)

/-- COOLDOWN_EXPIRY (R177): IDLE, judged by R170. -/
def execCooldownExpiry (st : StationId) (area : Area) (s : State) :
    Host.Outcome State Fault Refusal :=
  event s (fun s =>
    let h := (s.station st).heater area
    if h.state = .cooldown ∧ h.cooldown = some 0 then
      (s.changeHeater settle st area (fun h => { h with state := .idle, cooldown := none })).judgeProbe
        settle st area
    else s)

/-- MELT_OFF_EXPIRY (R169): the heat call ends. -/
def execMeltOffExpiry (st : StationId) (area : Area) (s : State) :
    Host.Outcome State Fault Refusal :=
  event s (fun s =>
    if ((s.station st).heater area).meltOff = some 0 then
      s.changeCall settle st area (fun h => { h with meltOff := none })
    else s)

/-- ON_RUN_EXPIRY (R181): the shed order of the station is judged. -/
def execOnRunExpiry (st : StationId) (s : State) : Host.Outcome State Fault Refusal :=
  event s (fun s =>
    let h := (s.station st).reflector
    if h.state = .on ∧ h.onRun = some 0 then
      (s.modHeater st .reflector (fun h => { h with onRun := none, onRunOut := true })).judgeShed
        settle st
    else s)

/-- BLIND_TIMER_EXPIRY (R148): blind is set and the zone evaluated. -/
def execBlindTimerExpiry (z : ZoneId) (s : State) : Host.Outcome State Fault Refusal :=
  event s (fun s =>
    if (s.zone z).blindTimer = some 0 then
      (s.modZone z (fun x => { x with blindTimer := none, blind := true })).evaluate settle false z
    else s)

/-- STOW_DEADLINE_EXPIRY (R154). -/
def execStowDeadlineExpiry (z : ZoneId) (s : State) : Host.Outcome State Fault Refusal :=
  event s (fun s =>
    if (s.zone z).state = .stowing ∧ (s.zone z).deadline = some 0 then s.deadlineOut settle z else s)

/-- RETURN_HOLD_EXPIRY (R157). -/
def execReturnHoldExpiry (z : ZoneId) (s : State) : Host.Outcome State Fault Refusal :=
  event s (fun s =>
    if (s.zone z).state = .returnHold ∧ (s.zone z).holdTimer = some 0 then s.holdOut settle z else s)

/-- SITE_STOW_CHANGE (R159): every zone evaluated, W0 first. -/
def execSiteStowChange (level : Bool) (s : State) : Host.Outcome State Fault Refusal :=
  event s (fun s =>
    if s.lines.siteStow = level then s
    else eachOf allZones (State.evaluate settle false)
      { s with lines := { s.lines with siteStow := level } })

end Sys2Proof.Machine
end

