-- ==== Sys2Proof/Machine/Exchange.lean ====
section
/-! DEFINITION. XI (spec/01_exchange_memory_and_requests.md): the register window, the posting queue, the
take of a request (R5, R6) with the twenty-two kinds as commands, validation (R34), and the two
resets (R15, R16). -/

namespace Sys2Proof.Machine

/-! ### The register window (R3, R13, R14, R197) -/

/-- IDENT: part code 0x5B16, revision 1.0. -/
def Exchange.ident : BitVec 32 := 0x5B160100

/-- A read of POST: the length of the posting queue. -/
def Exchange.readPost (x : Exchange) : BitVec 32 := BitVec.ofNat 32 x.queue.length

/-- A read of SUMMARY_VIEW. -/
def Exchange.readView (x : Exchange) : BitVec 32 := x.summary.setWidth 32

/-- A read of MASK. -/
def Exchange.readMask (x : Exchange) : BitVec 32 := x.mask.setWidth 32

/-- A read of CONTROL: EXCHANGE_RESET reads 0. -/
def Exchange.readControl (x : Exchange) : BitVec 32 := if x.intEnable then 1 else 0

/-- SUMMARY_READ (R13): the class bits are returned and all of them cleared. -/
def execSummaryRead (s : State) : Host.Outcome State Fault Refusal :=
  event s (fun s => s.modExchange (fun x => { x with readData := x.readView, summary := 0 }))

/-- MASK_WRITE (R3, R14): the bits beyond the twelfth are ignored. -/
def execMaskWrite (value : BitVec 32) (s : State) : Host.Outcome State Fault Refusal :=
  event s (fun s => s.modExchange (fun x => { x with mask := value.setWidth 12 }))

/-- INT_ENABLE (R3, R14). -/
def execIntEnable (enable : Bool) (s : State) : Host.Outcome State Fault Refusal :=
  event s (fun s => s.modExchange (fun x => { x with intEnable := enable }))

/-- REGISTER_WRITE_IGNORED (R3), after the host's writes into exchange memory that reach the part before it
(R1): of the register write itself nothing follows. -/
def execRegisterWriteIgnored (reg : IgnoredWrite) (_value : BitVec 32) (s : State) :
    Host.Outcome State Fault Refusal :=
  event s (fun s => s.hostStore reg.stores)

/-! ### Posting (R4) -/

/-- Whether a POST write is a stray post. -/
def State.stray (s : State) (value : BitVec 32) : Bool :=
  decide (31 < value.toNat) || s.pageState (Fin.ofNat 32 value.toNat) != PageState.posted ||
    s.exchange.queue.contains (Fin.ofNat 32 value.toNat)

/-- A write to POST. -/
def State.post (value : BitVec 32) (s : State) : State :=
  if s.stray value then s.bump .strayPosts
  else s.modExchange (fun x => { x with queue := x.queue ++ [Fin.ofNat 32 value.toNat] })

/-- POST_WRITE (R4), after the host's writes that reach the part before it (R1). -/
def execPostWrite (stores : List (BitVec 18 × Byte)) (value : BitVec 32) (s : State) :
    Host.Outcome State Fault Refusal :=
  event s (fun s => (s.hostStore stores).post value)

/-! ### Reading a page (R197) -/

/-- A number field of a page. -/
def State.field (s : State) (p : PageId) (offset n : Nat) : Nat :=
  Memory.nat s.mem (Layout.page p + offset) n

/-- A parameter field of a page as bits; its offset counts from the first parameter. -/
def State.param (s : State) (p : PageId) (offset n : Nat) : BitVec (8 * n) :=
  BitVec.ofNat (8 * n) (s.field p (28 + offset) n)

/-- The configuration of one axis from its first parameter on. -/
def State.axisParams (s : State) (p : PageId) (o : Nat) : RawAxisConfig :=
  { lmin := s.param p o 4, lmax := s.param p (o + 4) 4, vmax := s.param p (o + 8) 4,
    amax := s.param p (o + 12) 4, errorLimit := s.param p (o + 16) 4,
    window := s.param p (o + 20) 4, slewWatts := s.param p (o + 24) 4,
    trackWatts := s.param p (o + 28) 4 }

/-- The parameters of CONFIGURE_STATION. -/
def State.stationParams (s : State) (p : PageId) : RawStationConfig :=
  { zone := s.param p 0 1, az := s.axisParams p 1, el := s.axisParams p 33,
    stowEl := s.param p 65 4, shedEl := s.param p 69 4, holdIdle := s.param p 73 4,
    snow := s.param p 77 1, surface := s.param p 78 1, precip := s.param p 79 1 }

/-- The parameters of CONFIGURE_ZONE. -/
def State.zoneParams (s : State) (p : PageId) : RawZoneConfig :=
  { count := s.param p 0 1, stage0 := s.param p 1 1, stage1 := s.param p 2 1,
    stage2 := s.param p 3 1, stage3 := s.param p 4 1, watch := s.param p 5 2,
    stow := s.param p 7 2, release := s.param p 9 2, gustStow := s.param p 11 2,
    returnHold := s.param p 13 4, deadline := s.param p 17 4, blindTimeout := s.param p 21 4,
    floor := s.param p 25 4 }

/-- The request on a page handed to its owner by its kind; a kind that is not assigned is answered
UNKNOWN_KIND (R6, check 1; R197). -/
def State.runPage (k : Settle) (p : PageId) (s : State) : State :=
  let target := BitVec.ofNat 16 (s.field p 6 2)
  match s.field p 4 2 with
  | 1 => s.takeSetTime p (s.param p 0 6) (s.param p 6 1)
  | 2 => s.takeArmBook p target (s.param p 0 1) (s.param p 1 2)
  | 3 => s.takeDisarmBook p target
  | 4 => s.takeStopBook k p target
  | 5 => s.takeConfigureStation k p target (s.stationParams p)
  | 6 => s.takeRecoverAxis k p target (s.param p 0 1)
  | 7 => s.takeSetBudget k p (s.param p 0 4) (s.param p 4 4)
  | 8 => s.takeLaunchSweep p target (s.param p 0 1) (s.param p 1 6) (s.param p 7 4)
  | 9 => s.takeCancelSweep k p target
  | 10 => s.takeConfigureSensing p (s.param p 0 1)
  | 11 => s.takeRecalibrate p
  | 12 => s.takeConfigureZone k p target (s.zoneParams p)
  | 13 => s.takeStowZone k p target
  | 14 => s.takeReleaseZone k p target
  | 15 => s.takeSetHeatMode k p target (s.param p 0 1)
  | 16 => s.takeHeatOn k p target
  | 17 => s.takeHeatOff k p target
  | 18 => s.takeProbeHeater k p target
  | 19 => s.takePlaceTag k p target (s.param p 0 1) (s.param p 1 1) (s.param p 2 2)
  | 20 => s.takeClearReturn k p target
  | 21 => s.takeClearSite k p target
  | 22 => s.takeRetireStation p target
  | _ => s.answer p .unknownKind []

/-- Whether XI takes a page now: the queue is not empty and no request is in flight (R5). -/
def State.canTake (s : State) : Bool := !s.exchange.queue.isEmpty && s.exchange.inFlight.isNone

/-- The head of the posting queue taken, or dropped as a stray (R5). -/
def State.take (k : Settle) (p : PageId) (rest : List PageId) (s : State) : State :=
  let s := s.modExchange (fun x => { x with queue := rest })
  if s.pageState p = PageState.posted then
    (s.store (Layout.page p) (Status.word PageState.taken)).runPage k p
  else s.bump .strayPosts

/-- REQUEST_TAKE (R5). -/
def execRequestTake (s : State) : Host.Outcome State Fault Refusal :=
  event s (fun s =>
    if s.canTake then
      match s.exchange.queue with
      | [] => s
      | p :: rest => s.take settle p rest
    else s)

/-! ### The request kinds as commands -/

/-- A request handed to its owner at its take: one request at a time is in flight (R9), so nothing is
taken while another is (notes/assumptions/12.md). -/
def request (s : State) (f : State → State) : Host.Outcome State Fault Refusal :=
  event s (fun s => if s.exchange.inFlight.isSome then s else f s)

/-- SET_TIME (R20). -/
def execSetTime (page : PageId) (value : BitVec 48) (mode : BitVec 8) (s : State) :
    Host.Outcome State Fault Refusal :=
  request s (State.takeSetTime page value mode)

/-- ARM_BOOK (R33). -/
def execArmBook (page : PageId) (target : BitVec 16) (letter : BitVec 8) (number : BitVec 16)
    (s : State) : Host.Outcome State Fault Refusal :=
  request s (State.takeArmBook page target letter number)

/-- DISARM_BOOK (R44). -/
def execDisarmBook (page : PageId) (target : BitVec 16) (s : State) :
    Host.Outcome State Fault Refusal :=
  request s (State.takeDisarmBook page target)

/-- STOP_BOOK (R45). -/
def execStopBook (page : PageId) (target : BitVec 16) (s : State) :
    Host.Outcome State Fault Refusal :=
  request s (State.takeStopBook settle page target)

/-- CONFIGURE_STATION (R84). -/
def execConfigureStation (page : PageId) (target : BitVec 16) (cfg : RawStationConfig) (s : State) :
    Host.Outcome State Fault Refusal :=
  request s (State.takeConfigureStation settle page target cfg)

/-- RECOVER_AXIS (R83). -/
def execRecoverAxis (page : PageId) (target : BitVec 16) (axis : BitVec 8) (s : State) :
    Host.Outcome State Fault Refusal :=
  request s (State.takeRecoverAxis settle page target axis)

/-- SET_BUDGET (R88). -/
def execSetBudget (page : PageId) (normal emergency : BitVec 32) (s : State) :
    Host.Outcome State Fault Refusal :=
  request s (State.takeSetBudget settle page normal emergency)

/-- LAUNCH_SWEEP (R107). -/
def execLaunchSweep (page : PageId) (target : BitVec 16) (source : BitVec 8) (start : BitVec 48)
    (timeout : BitVec 32) (s : State) : Host.Outcome State Fault Refusal :=
  request s (State.takeLaunchSweep page target source start timeout)

/-- CANCEL_SWEEP (R122). -/
def execCancelSweep (page : PageId) (target : BitVec 16) (s : State) :
    Host.Outcome State Fault Refusal :=
  request s (State.takeCancelSweep settle page target)

/-- CONFIGURE_SENSING (R139). -/
def execConfigureSensing (page : PageId) (count : BitVec 8) (s : State) :
    Host.Outcome State Fault Refusal :=
  request s (State.takeConfigureSensing page count)

/-- RECALIBRATE (R138). -/
def execRecalibrate (page : PageId) (s : State) : Host.Outcome State Fault Refusal :=
  request s (State.takeRecalibrate page)

/-- CONFIGURE_ZONE (R146). -/
def execConfigureZone (page : PageId) (target : BitVec 16) (cfg : RawZoneConfig) (s : State) :
    Host.Outcome State Fault Refusal :=
  request s (State.takeConfigureZone settle page target cfg)

/-- STOW_ZONE (R160). -/
def execStowZone (page : PageId) (target : BitVec 16) (s : State) :
    Host.Outcome State Fault Refusal :=
  request s (State.takeStowZone settle page target)

/-- RELEASE_ZONE (R160). -/
def execReleaseZone (page : PageId) (target : BitVec 16) (s : State) :
    Host.Outcome State Fault Refusal :=
  request s (State.takeReleaseZone settle page target)

/-- SET_HEAT_MODE (R166). -/
def execSetHeatMode (page : PageId) (target : BitVec 16) (mode : BitVec 8) (s : State) :
    Host.Outcome State Fault Refusal :=
  request s (State.takeSetHeatMode settle page target mode)

/-- HEAT_ON (R167). -/
def execHeatOn (page : PageId) (target : BitVec 16) (s : State) :
    Host.Outcome State Fault Refusal :=
  request s (State.takeHeatOn settle page target)

/-- HEAT_OFF (R167). -/
def execHeatOff (page : PageId) (target : BitVec 16) (s : State) :
    Host.Outcome State Fault Refusal :=
  request s (State.takeHeatOff settle page target)

/-- PROBE_HEATER (R170). -/
def execProbeHeater (page : PageId) (target : BitVec 16) (s : State) :
    Host.Outcome State Fault Refusal :=
  request s (State.takeProbeHeater settle page target)

/-- PLACE_TAG (R185). -/
def execPlaceTag (page : PageId) (target : BitVec 16) (kind scope : BitVec 8) (id : BitVec 16)
    (s : State) : Host.Outcome State Fault Refusal :=
  request s (State.takePlaceTag settle page target kind scope id)

/-- CLEAR_RETURN (R188). -/
def execClearReturn (page : PageId) (target : BitVec 16) (s : State) :
    Host.Outcome State Fault Refusal :=
  request s (State.takeClearReturn settle page target)

/-- CLEAR_SITE (R189). -/
def execClearSite (page : PageId) (target : BitVec 16) (s : State) :
    Host.Outcome State Fault Refusal :=
  request s (State.takeClearSite settle page target)

/-- RETIRE_STATION (R194). -/
def execRetireStation (page : PageId) (target : BitVec 16) (s : State) :
    Host.Outcome State Fault Refusal :=
  request s (State.takeRetireStation page target)

/-! ### Validation (R34) -/

/-- The next group of the validation in flight, when its millisecond has been counted. -/
def State.validate (s : State) : State :=
  match s.exchange.inFlight with
  | some { page := page, request := .armBook st } =>
    match (s.station st).validation with
    | some v => if v.timer = some 0 then s.validateGroup st v page else s
    | none => s
  | some { page := _, request := .configureSensing } | none => s

/-- VALIDATION_COMPLETION (R34 to R36). -/
def execValidationCompletion (s : State) : Host.Outcome State Fault Refusal :=
  event s State.validate

/-! ### Resets (R15, R16) -/

/-- The request in flight abandoned (R10). -/
def State.abandonRequest (s : State) : State :=
  let s := match s.exchange.inFlight with
    | none => s
    | some { page := _, request := .armBook st } => s.endValidation st
    | some { page := _, request := .configureSensing } =>
      s.modSensing (fun w => { w with pendingCount := none })
  s.modExchange (fun x => { x with inFlight := none })

/-- A table cancelled by an exchange reset, where it is ARMED, RUNNING or SETTLING (R123). -/
def State.resetTable (k : Settle) (t : TableId) (s : State) : State :=
  if (s.table t).state.cancellable then s.cancelTable k t false else s

/-- The four steps of an exchange reset (R15). -/
def State.exchangeReset (k : Settle) (s : State) : State :=
  let s := s.abandonRequest
  let s := s.modExchange (fun x => { x with queue := [], summary := 0 })
  (s.resetTable k 0).resetTable k 1

/-- EXCHANGE_RESET (R3, R15): INT_ENABLE takes the value that the same write carries. -/
def execExchangeReset (enable : Bool) (s : State) : Host.Outcome State Fault Refusal :=
  event s (fun s =>
    (s.modExchange (fun x => { x with intEnable := enable })).exchangeReset settle)

/-- FULL_RESET (R16): the fuse words stand (R194), exchange memory keeps what the reset does not write,
and the commands that wait go on waiting. -/
def execFullReset (siteStow siteStop feederAlarm : Bool) (s : State) :
    Host.Outcome State Fault Refusal :=
  .next (State.afterReset s.pending s.mem
    (fun st => ((s.station st).fuse1, (s.station st).fuse2)) siteStow siteStop feederAlarm
    s.freeCount)

end Sys2Proof.Machine
end

