-- ==== Sys2Proof/Machine/Clock.lean ====
section
/-! DEFINITION. What the part does of its own accord when no command waits: it takes the head of the
posting queue (R5), or one millisecond of the local oscillator is counted (R17, R18) and the events
that are then due come into the queue of commands, those of one millisecond in a free order
(notes/assumptions/4.md). -/

namespace Sys2Proof.Machine

/-- One command where a condition holds. -/
def dueIf (b : Bool) (i : Instr) : List (List Instr) := if b then [[i]] else []

/-- Whether a timer has run out. -/
def Timer.out (t : Timer) : Bool := t == some 0

/-- The run-outs of a heater zone. -/
def Heater.due (h : Heater) (st : StationId) (area : Area) : List (List Instr) :=
  dueIf (Timer.out h.probeWindow) (.probeWindowExpiry st area) ++
    dueIf (Timer.out h.energize) (.energizeWindowExpiry st area) ++
    dueIf (Timer.out h.overload) (.overloadExpiry st area) ++
    dueIf (Timer.out h.openElement) (.openElementExpiry st area) ++
    dueIf (Timer.out h.cooldown) (.cooldownExpiry st area) ++
    dueIf (Timer.out h.meltOff) (.meltOffExpiry st area) ++
    (match area with
      | .reflector => dueIf (Timer.out h.onRun) (.onRunExpiry st)
      | .feed => [])

/-- The run-outs of a station. -/
def Station.due (x : Station) (st : StationId) : List (List Instr) :=
  dueIf (Timer.out x.az.holdIdle) (.holdIdleExpiry st .az) ++
    dueIf (Timer.out x.el.holdIdle) (.holdIdleExpiry st .el) ++
    dueIf (Timer.out x.progress.timer) (.settleTimeout st) ++
    dueIf (x.validation.any (fun v => Timer.out v.timer)) .validationCompletion ++
    x.reflector.due st .reflector ++ x.feed.due st .feed

/-- The run-outs of a wind zone. -/
def Zone.due (x : Zone) (z : ZoneId) : List (List Instr) :=
  dueIf (Timer.out x.blindTimer) (.blindTimerExpiry z) ++
    dueIf (Timer.out x.deadline) (.stowDeadlineExpiry z) ++
    dueIf (Timer.out x.holdTimer) (.returnHoldExpiry z)

/-- Everything that is due: each a group of commands that keep their order. The end of a panel slot
comes before the poll of the next (R191, R193). -/
def State.due (s : State) : List (List Instr) :=
  dueIf (s.time.drive == 0) .driveIntervalExpiry ++
    dueIf (s.sensing.timer == 0) .passBoundary ++
    dueIf (Timer.out s.time.watch) .pulseWatchExpiry ++
    dueIf (Timer.out (s.table 0).strobe) (.strobeTimeout 0) ++
    dueIf (Timer.out (s.table 1).strobe) (.strobeTimeout 1) ++
    (if Config.slotQuarters ≤ s.panelLine.elapsed then [[.panelSlotEnd, .panelPoll]] else []) ++
    allZones.flatMap (fun z => (s.zone z).due z) ++
    allStations.flatMap (fun st => (s.station st).due st)

/-- A group put at a place among others. -/
def placeAt (g : List Instr) : Nat → List (List Instr) → List (List Instr)
  | 0, l => g :: l
  | _ + 1, [] => [g]
  | n + 1, x :: l => x :: placeAt g n l

/-- The groups in an order that the free places `n`, `n + 1`, … choose: any order is possible. -/
def arrange (n : Nat) : List (List Instr) → List (List Instr)
  | [] => []
  | [g] => [g]
  | g :: rest => placeAt g (Config.tieOrder n % (rest.length + 1)) (arrange (n + 1) rest)

/-- One millisecond: every timer counts, the status regions whose shown timers changed are rewritten (R2,
R105, R144), and what is then due comes to wait (R18). -/
def State.millisecond (s : State) : State :=
  let s := s.publish s.tick
  let due := s.due
  { s with
    pending := s.pending ++ (arrange s.freeCount due).flatten,
    freeCount := s.freeCount + due.length }

/-- The part with no command waiting. -/
def State.idle (s : State) : Host.Outcome State Fault Refusal :=
  if s.canTake then execRequestTake s else .next s.millisecond

end Sys2Proof.Machine
end

