-- ==== Sys2Proof/Machine/Dispatch.lean ====
section
/-! DEFINITION. The commands and their meanings: one arm per row of spec/opcode_table.json. -/

namespace Sys2Proof.Machine

def exec (i : Instr) (s : State) : Host.Outcome State Fault Refusal :=
  match i with
  | .postWrite stores value => Sys2Proof.Machine.execPostWrite stores value s
  | .summaryRead => Sys2Proof.Machine.execSummaryRead s
  | .maskWrite value => Sys2Proof.Machine.execMaskWrite value s
  | .intEnable enable => Sys2Proof.Machine.execIntEnable enable s
  | .exchangeReset enable => Sys2Proof.Machine.execExchangeReset enable s
  | .registerWriteIgnored reg value => Sys2Proof.Machine.execRegisterWriteIgnored reg value s
  | .requestTake => Sys2Proof.Machine.execRequestTake s
  | .setTime page value mode => Sys2Proof.Machine.execSetTime page value mode s
  | .armBook page target letter number => Sys2Proof.Machine.execArmBook page target letter number s
  | .disarmBook page target => Sys2Proof.Machine.execDisarmBook page target s
  | .stopBook page target => Sys2Proof.Machine.execStopBook page target s
  | .configureStation page target cfg => Sys2Proof.Machine.execConfigureStation page target cfg s
  | .recoverAxis page target axis => Sys2Proof.Machine.execRecoverAxis page target axis s
  | .setBudget page normal emergency => Sys2Proof.Machine.execSetBudget page normal emergency s
  | .launchSweep page target source start timeout => Sys2Proof.Machine.execLaunchSweep page target source start timeout s
  | .cancelSweep page target => Sys2Proof.Machine.execCancelSweep page target s
  | .configureSensing page count => Sys2Proof.Machine.execConfigureSensing page count s
  | .recalibrate page => Sys2Proof.Machine.execRecalibrate page s
  | .configureZone page target cfg => Sys2Proof.Machine.execConfigureZone page target cfg s
  | .stowZone page target => Sys2Proof.Machine.execStowZone page target s
  | .releaseZone page target => Sys2Proof.Machine.execReleaseZone page target s
  | .setHeatMode page target mode => Sys2Proof.Machine.execSetHeatMode page target mode s
  | .heatOn page target => Sys2Proof.Machine.execHeatOn page target s
  | .heatOff page target => Sys2Proof.Machine.execHeatOff page target s
  | .probeHeater page target => Sys2Proof.Machine.execProbeHeater page target s
  | .placeTag page target kind scope id => Sys2Proof.Machine.execPlaceTag page target kind scope id s
  | .clearReturn page target => Sys2Proof.Machine.execClearReturn page target s
  | .clearSite page target => Sys2Proof.Machine.execClearSite page target s
  | .retireStation page target => Sys2Proof.Machine.execRetireStation page target s
  | .validationCompletion => Sys2Proof.Machine.execValidationCompletion s
  | .fullReset siteStow siteStop feederAlarm => Sys2Proof.Machine.execFullReset siteStow siteStop feederAlarm s
  | .sitePulse => Sys2Proof.Machine.execSitePulse s
  | .pulseWatchExpiry => Sys2Proof.Machine.execPulseWatchExpiry s
  | .sweepStrobe => Sys2Proof.Machine.execSweepStrobe s
  | .siteStowChange level => Sys2Proof.Machine.execSiteStowChange level s
  | .siteStopChange level => Sys2Proof.Machine.execSiteStopChange level s
  | .feederAlarmChange level => Sys2Proof.Machine.execFeederAlarmChange level s
  | .driveIntervalExpiry => Sys2Proof.Machine.execDriveIntervalExpiry s
  | .linkLoss st => Sys2Proof.Machine.execLinkLoss st s
  | .reportFrame st frame => Sys2Proof.Machine.execReportFrame st frame s
  | .brakeTimeout st ax => Sys2Proof.Machine.execBrakeTimeout st ax s
  | .trackingFault st ax => Sys2Proof.Machine.execTrackingFault st ax s
  | .holdIdleExpiry st ax => Sys2Proof.Machine.execHoldIdleExpiry st ax s
  | .strobeTimeout t => Sys2Proof.Machine.execStrobeTimeout t s
  | .settleTimeout st => Sys2Proof.Machine.execSettleTimeout st s
  | .passBoundary => Sys2Proof.Machine.execPassBoundary s
  | .quietRateEntry => Sys2Proof.Machine.execQuietRateEntry s
  | .stageMisses g => Sys2Proof.Machine.execStageMisses g s
  | .baselineStep g => Sys2Proof.Machine.execBaselineStep g s
  | .forcedRecalibration g => Sys2Proof.Machine.execForcedRecalibration g s
  | .sampleReply frame => Sys2Proof.Machine.execSampleReply frame s
  | .blindTimerExpiry z => Sys2Proof.Machine.execBlindTimerExpiry z s
  | .stowDeadlineExpiry z => Sys2Proof.Machine.execStowDeadlineExpiry z s
  | .returnHoldExpiry z => Sys2Proof.Machine.execReturnHoldExpiry z s
  | .probeWindowExpiry st area => Sys2Proof.Machine.execProbeWindowExpiry st area s
  | .energizeWindowExpiry st area => Sys2Proof.Machine.execEnergizeWindowExpiry st area s
  | .overloadExpiry st area => Sys2Proof.Machine.execOverloadExpiry st area s
  | .openElementExpiry st area => Sys2Proof.Machine.execOpenElementExpiry st area s
  | .cooldownExpiry st area => Sys2Proof.Machine.execCooldownExpiry st area s
  | .meltOffExpiry st area => Sys2Proof.Machine.execMeltOffExpiry st area s
  | .onRunExpiry st => Sys2Proof.Machine.execOnRunExpiry st s
  | .panelPoll => Sys2Proof.Machine.execPanelPoll s
  | .panelSlotEnd => Sys2Proof.Machine.execPanelSlotEnd s
  | .panelLost st => Sys2Proof.Machine.execPanelLost st s
  | .panelNone frame => Sys2Proof.Machine.execPanelNone frame s
  | .panelLock frame => Sys2Proof.Machine.execPanelLock frame s
  | .panelRelease frame => Sys2Proof.Machine.execPanelRelease frame s
  | .retireConfirm frame => Sys2Proof.Machine.execRetireConfirm frame s
  | .unlistedPanelAnswer frame => Sys2Proof.Machine.execUnlistedPanelAnswer frame s

end Sys2Proof.Machine
end

