-- ==== Sys2Proof/Safety.lean ====
section
/-! DEFINITION. The terms that statements use: the laws that a sound state of the part keeps, what a safe
step is, what an answered page shows, and what the settling of an event may and may not touch. -/

namespace Sys2Proof

open Machine

/-- A step that answers a next state. -/
def StepsTo (s t : State) : Prop := step s = .next t

/-- The posting queue holds at most 32 indices, each at most once (R4). -/
abbrev Law.queue (s : State) : Prop :=
  s.exchange.queue.Nodup ∧ s.exchange.queue.length ≤ 32

/-- A claimant holds at most one grant entry (R90). -/
abbrev Law.oneGrant (p : Power) : Prop := (p.grants.map Grant.claimant).Nodup

/-- The granted total is at most the budget in force (R90, R104), or a change of budget still waits to
be settled in the event under way (R87). -/
abbrev Law.power (s : State) : Prop :=
  Law.oneGrant s.power ∧ (s.power.total ≤ s.power.inForce ∨ Work.budget ∈ s.work)

/-- The tag lists (R183, R190): at most 8 tags on a station, their IDs distinct; and a station whose site
pending flag stands has a full list without a SITE tag. -/
abbrev Law.tags (s : State) : Prop := ∀ st : StationId,
  (s.station st).tags.length ≤ 8 ∧ ((s.station st).tags.map Tag.id).Nodup ∧
    ((s.station st).sitePending = true →
      (s.station st).tags.length = 8 ∧ (s.station st).hasTag 65535 = false)

/-- The canonical form of exchange memory. -/
abbrev Law.memory (s : State) : Prop := Memory.wf s.mem

/-- One table runs at most (R111), and only a table that runs holds stations (R116, R121, R122). -/
abbrev Law.sweeps (s : State) : Prop :=
  (∀ x y : TableId, x ≠ y → (s.table x).state.runs = true → (s.table y).state.runs = false) ∧
  ∀ (st : StationId) (h : SweepHold), (s.station st).hold = some h →
    (s.table h.table).state.runs = true

/-- A station that is not retired is a member of its own zone and of no other (R145). -/
abbrev Law.members (s : State) : Prop := ∀ (st : StationId) (z : ZoneId),
  st ∈ (s.zone z).members ↔ (s.station st).retired = false ∧ (s.station st).cfg.zone = z

/-- The target record of a station that is not retired shows the source and the row of the first condition
of R49 that holds (R50), with the laws of members and sweeps on which that rests. -/
abbrev Law.source (s : State) : Prop :=
  Law.members s ∧ Law.sweeps s ∧ ∀ st : StationId, (s.station st).retired = false →
    ((s.station st).target.source, (s.station st).target.row) = s.sourceOf st

/-- A fuse word that is written stays written (R194). -/
abbrev Law.fuses (s t : State) : Prop :=
  ∀ st : StationId, ((s.station st).fuse1 = true → (t.station st).fuse1 = true) ∧
    ((s.station st).fuse2 = true → (t.station st).fuse2 = true)

end Sys2Proof

namespace Sys2Proof.Machine

/-- The addresses of the status areas (R197). -/
def Layout.isStatus (a : Nat) : Prop :=
  0x13000 ≤ a ∧ a < Layout.tallies ∨ Layout.tallies + Layout.tallyArea ≤ a ∧ a < 0x15C00

/-- Every status region in which two states differ reads, in the second, as its record then stands (R2). -/
def Rewritten (s t : State) : Prop := ∀ (n : Nat) (a b : Nat × List Byte),
  s.regions[n]? = some a → t.regions[n]? = some b → a ≠ b →
    Memory.bytes t.mem b.1 b.2.length = b.2

/-! ### What a command changes

What the blocks hold, apart from exchange memory, the tallies and XI; what a command counts; and what the
answer to a request shows. -/

/-- Everything in a state but exchange memory, the tallies and XI. -/
structure Blocks where
  pending : List Instr
  time : TimeUnit
  power : Power
  sensing : Sensing
  tables : Vector SweepTable 2
  zones : Vector Zone 4
  stations : Vector Station 16
  lines : Lines
  panelLine : PanelLine
  work : List Work
  entering : Option ZoneId
  freeCount : Nat
  deriving DecidableEq, Repr

/-- See `Blocks`. -/
def State.blocks (s : State) : Blocks :=
  { pending := s.pending, time := s.time, power := s.power, sensing := s.sensing,
    tables := s.tables, zones := s.zones, stations := s.stations, lines := s.lines,
    panelLine := s.panelLine, work := s.work, entering := s.entering, freeCount := s.freeCount }

/-- The areas that the part alone writes: the status areas and the tallies (R1, R197). -/
def Layout.isOwn (a : Nat) : Prop := 0x13000 ≤ a ∧ a < 0x15C00

/-- The waiting list with one entry of a claimant at the back of its rank, in place of any entry that the
claimant had; an addition of 0 makes no entry (R91, R92). -/
def Waiting.behind (c : Claimant) (cls : ClaimClass) (addition : Nat) (l : List Waiting) :
    List Waiting :=
  let others := l.filter (fun w => w.claimant != c)
  if addition = 0 then others
  else others.filter (fun w => decide (w.cls.rank ≤ cls.rank)) ++
    { claimant := c, cls := cls, addition := addition } ::
      others.filter (fun w => decide (cls.rank < w.cls.rank))

/-- The waiting list in serving order: class rank first (R91). -/
abbrev Waiting.inOrder (l : List Waiting) : Prop :=
  l.Pairwise (fun v w => v.cls.rank ≤ w.cls.rank)

/-- A list of claimants with one at its back, unless it stands in the list already (R100). -/
def Claimant.once (l : List Claimant) (c : Claimant) : List Claimant :=
  if c ∈ l then l else l ++ [c]

/-- The bytes of a page that an answer writes: the state word, the result code and the result data (R8,
R197). -/
def Layout.isAnswer (p : PageId) (a : Nat) : Prop :=
  Layout.page p ≤ a ∧ a < Layout.page p + 4 ∨ Layout.page p + 8 ≤ a ∧ a < Layout.page p + 28

/-- XI with the classes of some tallies latched (R12). -/
def Exchange.latch (x : Exchange) (l : List Tally) : Exchange :=
  { x with summary := l.foldl (fun b t => b ||| t.cls.bit) x.summary }

/-- Between two states exactly the given tallies are counted, each as often as it is listed, their classes
are latched (R11, R12), and no byte outside the part's own areas changes. -/
structure Counts (l : List Tally) (s t : State) : Prop where
  tally : ∀ x, t.tally x = s.tally x + BitVec.ofNat 16 (l.count x)
  exchange : t.exchange = s.exchange.latch l
  bytes : ∀ a, ¬ Layout.isOwn a → Memory.read t.mem a = Memory.read s.mem a

/-- Between two states a request is answered on its page (R8): state word ANSWERED, result code, sixteen
bytes of result data; it is no longer in flight; ANSWERS and the given tallies are counted; and no other
byte outside the part's own areas changes. -/
structure Answers (p : PageId) (r : Result) (data : List Byte) (l : List Tally) (s t : State) :
    Prop where
  word : t.pageState p = PageState.answered
  code : Memory.nat t.mem (Layout.page p + 8) 4 = Code.ofResult r
  data : Memory.bytes t.mem (Layout.page p + 12) 16 = Status.region 16 data
  tally : ∀ x, t.tally x = s.tally x + BitVec.ofNat 16 ((l ++ [Tally.answers]).count x)
  exchange : t.exchange = { s.exchange.latch (l ++ [Tally.answers]) with inFlight := none }
  bytes : ∀ a, ¬ Layout.isOwn a → ¬ Layout.isAnswer p a → Memory.read t.mem a = Memory.read s.mem a

/-- The row of the request kinds that a page holds, with the operands that its bytes spell (R6, R197). -/
def State.rowOnPage (s : State) (p : PageId) : Option Instr :=
  let target := BitVec.ofNat 16 (s.field p 6 2)
  match s.field p 4 2 with
  | 1 => some (.setTime p (s.param p 0 6) (s.param p 6 1))
  | 2 => some (.armBook p target (s.param p 0 1) (s.param p 1 2))
  | 3 => some (.disarmBook p target)
  | 4 => some (.stopBook p target)
  | 5 => some (.configureStation p target (s.stationParams p))
  | 6 => some (.recoverAxis p target (s.param p 0 1))
  | 7 => some (.setBudget p (s.param p 0 4) (s.param p 4 4))
  | 8 => some (.launchSweep p target (s.param p 0 1) (s.param p 1 6) (s.param p 7 4))
  | 9 => some (.cancelSweep p target)
  | 10 => some (.configureSensing p (s.param p 0 1))
  | 11 => some (.recalibrate p)
  | 12 => some (.configureZone p target (s.zoneParams p))
  | 13 => some (.stowZone p target)
  | 14 => some (.releaseZone p target)
  | 15 => some (.setHeatMode p target (s.param p 0 1))
  | 16 => some (.heatOn p target)
  | 17 => some (.heatOff p target)
  | 18 => some (.probeHeater p target)
  | 19 => some (.placeTag p target (s.param p 0 1) (s.param p 1 1) (s.param p 2 2))
  | 20 => some (.clearReturn p target)
  | 21 => some (.clearSite p target)
  | 22 => some (.retireStation p target)
  | _ => none

/-! ### What settling keeps

An event that changes a claim, a source or a hold is settled in the same event: PB grants and revokes, axes
and heater zones answer their grants, sweeps and wind zones follow (R42, R50, R71 to R79, R100, R120,
R155, R178, R181). These say of each record what that settling leaves as it was. -/

/-- What settling keeps of an axis: one in FAULTED stays as it is, one in RETIRED stays, and one that does
not move is not set moving. -/
structure AxisKept (a b : Axis) : Prop where
  faulted : a.state = .faulted →
    b.state = .faulted ∧ b.reason = a.reason ∧ b.c = a.c ∧ b.s = a.s ∧ b.rate = a.rate
  retired : a.state = .retired ↔ b.state = .retired
  still : a.state.moving = false → b.state.moving = false ∧ (a.s = 0 → b.s = 0) ∧
    (a.hold = none → b.hold = none) ∧ (a.holdIdle = none → b.holdIdle = none)

/-- What settling keeps of a heater zone: all but the answers to its grant, which only a zone that claims
can give, and the tilt-used mark. -/
structure HeaterKept (a b : Heater) : Prop where
  mode : b.mode = a.mode
  cls : b.cls = a.cls
  lastProbe : b.lastProbe = a.lastProbe
  probeNamed : b.probeNamed = a.probeNamed
  faultCount : b.faultCount = a.faultCount
  lastFault : b.lastFault = a.lastFault
  manual : b.manual = a.manual
  auto : b.auto = a.auto
  sensorMissing : b.sensorMissing = a.sensorMissing
  current : b.current = a.current
  probeWindow : b.probeWindow = a.probeWindow
  cooldown : b.cooldown = a.cooldown
  meltOff : b.meltOff = a.meltOff
  claims : a.state.claims = true → b.state.claims = true
  idle : a.state.claims = false → b.state = a.state ∧ b.energize = a.energize ∧
    b.overload = a.overload ∧ b.openElement = a.openElement ∧ b.onRun = a.onRun ∧
    b.onRunOut = a.onRunOut

/-- What settling keeps of a station. -/
structure StationKept (x y : Station) : Prop where
  cfg : y.cfg = x.cfg
  link : y.link = x.link
  demand : y.demand = x.demand
  validation : y.validation = x.validation
  lastHeat : y.lastHeat = x.lastHeat
  tags : y.tags = x.tags
  sitePending : y.sitePending = x.sitePending
  lastLockout : y.lastLockout = x.lastLockout
  panel : y.panel = x.panel
  fuse1 : y.fuse1 = x.fuse1
  fuse2 : y.fuse2 = x.fuse2
  retired : y.retired = x.retired
  axis : ∀ ax, AxisKept (x.axis ax) (y.axis ax)
  heater : ∀ area, HeaterKept (x.heater area) (y.heater area)
  probes : ∀ area, (x.heater area).state = .probing →
    (area ∈ y.probeQueue ↔ area ∈ x.probeQueue)

/-- What settling keeps of a station besides while no table is in use: its books, its hold and its sweep
progress. -/
structure StationQuiet (x y : Station) : Prop where
  bookA : y.bookA = x.bookA
  bookB : y.bookB = x.bookB
  lastBook : y.lastBook = x.lastBook
  hold : y.hold = x.hold
  progress : y.progress = x.progress

/-- STOWING and STOWED, between which settling may move a zone. -/
def ZoneState.settles : ZoneState → Bool
  | .stowing | .stowed => true
  | .unwatched | .calm | .watch | .returnHold => false

/-- What settling keeps of a wind zone. -/
structure ZoneKept (x y : Zone) : Prop where
  cfg : y.cfg = x.cfg
  speed : y.speed = x.speed
  gust : y.gust = x.gust
  gustStow : y.gustStow = x.gustStow
  blind : y.blind = x.blind
  causes : y.causes = x.causes
  order : y.order = x.order
  blindTimer : y.blindTimer = x.blindTimer
  members : y.members = x.members
  stows : x.state.settles = true → y.state.settles = true
  other : x.state.settles = false → y.state = x.state ∧ y.holdTimer = x.holdTimer ∧
    y.deadline = x.deadline ∧ y.last = x.last

/-- What settling keeps of a sweep table: as it was launched; RUNNING stays, and a table not in use is not
touched. `free` frees the states of one table whose entries are being issued. -/
structure TableKept (free : Prop) (x y : SweepTable) : Prop where
  snapshot : y.snapshot = x.snapshot
  launch : y.launch = x.launch
  timeouts : y.timeouts = x.timeouts
  began : x.state ≠ .armed → y.state ≠ .armed ∧ y.sweepStart = x.sweepStart ∧ y.late = x.late
  running : ¬ free → x.state = .running → y.state = .running
  unused : ¬ free → x.state.cancellable = false → y = x

/-- The tallies that settling may raise. -/
def Tally.settles : Tally → Bool
  | .axisFaults _ | .zoneChanges _ | .bookEvents _ | .sheds | .revocations | .sweepEnds => true
  | .answers | .strayPosts | .timeSteps | .pulseLosses | .recalibrations | .stageFaults
  | .exposures _ | .linkLosses _ | .heatFaults _ | .tagChanges _ | .panelLosses _ => false

/-- No table is ARMED, RUNNING or SETTLING. -/
def State.noTable (s : State) : Prop := ∀ t : TableId, (s.table t).state.cancellable = false

/-- What settling keeps. `E` names the tables whose entries are being issued; `Q` says whether the books
are kept where no table is in use. -/
structure Kept (E : TableId → Prop) (Q : Prop) (s t : State) : Prop where
  pending : t.pending = s.pending
  time : t.time = s.time
  sensing : t.sensing = s.sensing
  lines : t.lines = s.lines
  panelLine : t.panelLine = s.panelLine
  entering : t.entering = s.entering
  freeCount : t.freeCount = s.freeCount
  exchange : ∃ b, t.exchange = { s.exchange with summary := s.exchange.summary ||| b }
  normal : t.power.normal = s.power.normal
  emergency : t.power.emergency = s.power.emergency
  alarm : t.power.alarm = s.power.alarm
  power : Law.power s → Law.power t
  within : Law.oneGrant s.power → s.power.total ≤ s.power.inForce →
    Law.oneGrant t.power ∧ t.power.total ≤ t.power.inForce
  station : ∀ st, StationKept (s.station st) (t.station st)
  zone : ∀ z, ZoneKept (s.zone z) (t.zone z)
  table : ∀ x, TableKept (E x) (s.table x) (t.table x)
  tally : ∀ x : Tally, x.settles = false → t.tally x = s.tally x
  zoneTally : ∀ z, (s.zone z).state.settles = false →
    t.tally (.zoneChanges z) = s.tally (.zoneChanges z)
  read : ∀ a, a < Layout.tallies ∨ Layout.tallies + Layout.tallyArea ≤ a →
    Memory.read t.mem a = Memory.read s.mem a
  wf : Memory.wf s.mem → Memory.wf t.mem
  quiet : Q → (∀ x, ¬ E x) → s.noTable →
    ∀ st, StationQuiet (s.station st) (t.station st) ∧
      t.tally (.bookEvents st) = s.tally (.bookEvents st)

/-- What settling keeps at its strongest: no table is being issued, and the books are asked after. -/
abbrev Settled (s t : State) : Prop := Kept (fun _ => False) True s t

/-- What no command that concerns axes, claims, heaters, tags, sweeps or zones touches, whatever follows
from it: the frame of such a command. -/
structure Apart (s t : State) : Prop where
  pending : t.pending = s.pending
  time : t.time = s.time
  sensing : t.sensing = s.sensing
  lines : t.lines = s.lines
  panelLine : t.panelLine = s.panelLine
  entering : t.entering = s.entering
  freeCount : t.freeCount = s.freeCount
  exchange : ∃ b, t.exchange = { s.exchange with summary := s.exchange.summary ||| b }
  normal : t.power.normal = s.power.normal
  emergency : t.power.emergency = s.power.emergency
  alarm : t.power.alarm = s.power.alarm
  table : ∀ x, (t.table x).snapshot = (s.table x).snapshot ∧
    (t.table x).launch = (s.table x).launch ∧ (t.table x).timeouts = (s.table x).timeouts
  zone : ∀ z, (t.zone z).cfg = (s.zone z).cfg ∧ (t.zone z).order = (s.zone z).order ∧
    (t.zone z).causes = (s.zone z).causes ∧ (t.zone z).speed = (s.zone z).speed ∧
    (t.zone z).gust = (s.zone z).gust ∧ (t.zone z).gustStow = (s.zone z).gustStow ∧
    (t.zone z).blind = (s.zone z).blind ∧ (t.zone z).blindTimer = (s.zone z).blindTimer ∧
    (t.zone z).members = (s.zone z).members
  station : ∀ st, (t.station st).cfg = (s.station st).cfg ∧
    (t.station st).link = (s.station st).link ∧ (t.station st).demand = (s.station st).demand ∧
    (t.station st).validation = (s.station st).validation ∧
    (t.station st).panel = (s.station st).panel ∧ (t.station st).fuse1 = (s.station st).fuse1 ∧
    (t.station st).fuse2 = (s.station st).fuse2 ∧
    (t.station st).retired = (s.station st).retired
  bytes : ∀ a, ¬ Layout.isOwn a → Memory.read t.mem a = Memory.read s.mem a

/-- What the placement of a tag leaves (R186), with all that follows from it. -/
structure Placed (st : StationId) (t : Tag) (s u : State) : Prop where
  apart : Apart s u
  tags : ∀ x, (u.station x).tags =
    if x = st then (s.station x).tags ++ [t] else (s.station x).tags
  sitePending : ∀ x, (u.station x).sitePending = (s.station x).sitePending
  event : ∀ x, (u.station x).lastLockout = if x = st then
      some { kind := .placed, what := t.id, party := t.party, time := s.time.time }
    else (s.station x).lastLockout
  tally : ∀ x, u.tally (.tagChanges x) =
    s.tally (.tagChanges x) + (if x = st then 1 else 0)
  counted : ∀ x : Tally, x.settles = false → (∀ y, x ≠ .tagChanges y) → u.tally x = s.tally x
  axes : t.scope = .motion ∨ t.scope = .both → ∀ ax,
    ((u.station st).axis ax).state.moving = false ∧
    (((s.station st).axis ax).state.powered = true → ((u.station st).axis ax).s = 0 ∧
      ((u.station st).axis ax).hold = none ∧ ((u.station st).axis ax).holdIdle = none)
  heaters : t.scope ≠ .motion → ∀ area, ((u.station st).heater area).state =
    (match ((s.station st).heater area).state with
      | .probing | .ready | .waitingPower | .energizing | .on | .shed => .idle
      | x => x)

/-- The tag list of a station once a tag of an ID has been removed: where the site pending flag is set, the
SITE tag takes the place freed (R187, R190). -/
def Station.without (x : Station) (id now : Nat) : List Tag :=
  x.tags.filter (fun t => t.id != id) ++ if x.sitePending then [Tag.siteTag now] else []

/-- What the removal of a tag leaves (R187), with all that follows from it. -/
structure Removed (st : StationId) (id : Nat) (party : Party) (s u : State) : Prop where
  apart : Apart s u
  tags : ∀ x, (u.station x).tags =
    if x = st then (s.station x).without id s.time.time else (s.station x).tags
  sitePending : ∀ x, (u.station x).sitePending =
    if x = st then false else (s.station x).sitePending
  event : ∀ x, (u.station x).lastLockout = if x = st then
      some { kind := .removed, what := id, party := party, time := s.time.time }
    else (s.station x).lastLockout
  tally : ∀ x, u.tally (.tagChanges x) = s.tally (.tagChanges x) +
    (if x = st then (if (s.station x).sitePending then 2 else 1) else 0)
  counted : ∀ x : Tally, x.settles = false → (∀ y, x ≠ .tagChanges y) → u.tally x = s.tally x

end Sys2Proof.Machine
end

