-- ==== Sys2Proof/Certificates/Slice0/Obligations.lean ====
section
/-! DEFINITION. The statements for the provers. -/

open Sys2Proof Sys2Proof.Machine

/-! ### The queue, the clock and the resets -/

/-- A step runs the command at the front of the queue on the state with the rest of the queue. The queue of
commands is the model's choice (notes/assumptions/1.md): the spec gives the part no such queue. -/
def Obligations.StepRunsFrontCommand : Prop :=
  ∀ (c : Instr) (rest : List Instr) (s : State),
    step { s with pending := c :: rest } = exec c { s with pending := rest }

/-- R5, R17, R18: with no command waiting the part takes a request where one can be taken, and else counts one
millisecond: array time goes on by one, every running timer of the part goes from n milliseconds to n − 1, the
counts of time go on, nothing else in the blocks changes, and every status region that shows a changed field
is rewritten (R2). A timer with n milliseconds left has its run-out among the commands that then wait exactly
when n is at most 1. That this happens on an empty queue is the model's choice (notes/assumptions/1.md). R191:
the panel line counts its slots of 31.25 ms in quarters of a millisecond, four to a tick and 125 to a slot,
and has the end of a slot and the next poll among the commands at 125: the model's inference
(notes/assumptions/19.md). -/
def Obligations.IdleStepTakesOrCountsMillisecond : Prop :=
  ∀ s : State, s.pending = [] →
    (s.canTake = true → step s = exec .requestTake s) ∧
    (s.canTake = false → ∃ t, step s = .next t ∧
      let down (x : Timer) : Timer := x.map (fun n => n - 1)
      let heater (h : Heater) : Heater := { h with
        probeWindow := down h.probeWindow, energize := down h.energize,
        overload := down h.overload, openElement := down h.openElement,
        cooldown := down h.cooldown, meltOff := down h.meltOff, onRun := down h.onRun }
      let out (x : Timer) := ∃ n ≤ 1, x = some n
      (t.tallies = s.tallies ∧ t.exchange = s.exchange ∧ t.power = s.power ∧ t.lines = s.lines ∧
        t.work = s.work ∧ t.entering = s.entering) ∧
      Rewritten s t ∧ (∀ a, ¬ Layout.isStatus a → Memory.read t.mem a = Memory.read s.mem a) ∧
      t.time = { s.time with
        time := (s.time.time + 1) % 2 ^ 48, sincePulse := s.time.sincePulse.map (fun n => n + 1),
        watch := down s.time.watch, drive := s.time.drive - 1 } ∧
      t.sensing = { s.sensing with timer := s.sensing.timer - 1 } ∧
      t.panelLine = { s.panelLine with elapsed := s.panelLine.elapsed + 4 } ∧
      (∀ x, t.table x = { s.table x with strobe := down (s.table x).strobe }) ∧
      (∀ z, t.zone z = { s.zone z with
        blindTimer := down (s.zone z).blindTimer, holdTimer := down (s.zone z).holdTimer,
        deadline := down (s.zone z).deadline }) ∧
      (∀ st, let x := s.station st
        t.station st = { x with
          az := { x.az with holdIdle := down x.az.holdIdle },
          el := { x.el with holdIdle := down x.el.holdIdle },
          reflector := heater x.reflector, feed := heater x.feed,
          validation := x.validation.map (fun v => { v with timer := down v.timer }),
          progress := { x.progress with timer := down x.progress.timer } }) ∧
      (Instr.driveIntervalExpiry ∈ t.pending ↔ s.time.drive ≤ 1) ∧
      (Instr.passBoundary ∈ t.pending ↔ s.sensing.timer ≤ 1) ∧
      (Instr.pulseWatchExpiry ∈ t.pending ↔ out s.time.watch) ∧
      (Instr.panelSlotEnd ∈ t.pending ↔ 125 ≤ s.panelLine.elapsed + 4) ∧
      (Instr.panelPoll ∈ t.pending ↔ 125 ≤ s.panelLine.elapsed + 4) ∧
      (∀ x, Instr.strobeTimeout x ∈ t.pending ↔ out (s.table x).strobe) ∧
      (∀ z, (Instr.stowDeadlineExpiry z ∈ t.pending ↔ out (s.zone z).deadline) ∧
        (Instr.blindTimerExpiry z ∈ t.pending ↔ out (s.zone z).blindTimer) ∧
        (Instr.returnHoldExpiry z ∈ t.pending ↔ out (s.zone z).holdTimer)) ∧
      (Instr.validationCompletion ∈ t.pending ↔
        ∃ st v, (s.station st).validation = some v ∧ out v.timer) ∧
      (∀ st, (Instr.settleTimeout st ∈ t.pending ↔ out (s.station st).progress.timer) ∧
        (Instr.onRunExpiry st ∈ t.pending ↔ out (s.station st).reflector.onRun) ∧
        (∀ ax, Instr.holdIdleExpiry st ax ∈ t.pending ↔ out ((s.station st).axis ax).holdIdle) ∧
        ∀ area, let h := (s.station st).heater area
          (Instr.probeWindowExpiry st area ∈ t.pending ↔ out h.probeWindow) ∧
          (Instr.energizeWindowExpiry st area ∈ t.pending ↔ out h.energize) ∧
          (Instr.overloadExpiry st area ∈ t.pending ↔ out h.overload) ∧
          (Instr.openElementExpiry st area ∈ t.pending ↔ out h.openElement) ∧
          (Instr.cooldownExpiry st area ∈ t.pending ↔ out h.cooldown) ∧
          (Instr.meltOffExpiry st area ∈ t.pending ↔ out h.meltOff)))

/-- R16, R17, R31, R47, R67, R85, R86, R105, R126, R162, R182, R194 to R196: what a full reset leaves in every
block, for every state it finds and every level of the lines at its end: the lines, the last events, the
progress records and the tags in their order among the rest. Every status region is written whole from that
state and every tally as 0; exchange memory outside the part's own areas and the fuse words stand. The model's
choices are that the commands which wait go on waiting and that the register holding the latest SUMMARY read
returns to 0 (notes/assumptions/1.md, 34.md), the packing of a region (8.md), the time 0 of the tags (23.md),
the figures of a withdrawn claim (36.md) and the fields of a NOT_NAMED record (45.md). -/
def Obligations.FullResetRestoresEveryBlock : Prop :=
  ∀ (siteStow siteStop feederAlarm : Bool) (s : State),
    ∃ t, exec (.fullReset siteStow siteStop feederAlarm) s = .next t ∧ t.pending = s.pending ∧
      t.exchange = { queue := [], inFlight := none, summary := 0, mask := 0, intEnable := false,
                     readData := 0 } ∧
      (∀ x, t.tally x = 0) ∧
      (∀ a, Layout.tallies ≤ a → a < Layout.tallies + Layout.tallyArea → Memory.read t.mem a = 0) ∧
      (∀ r ∈ t.regions, Memory.bytes t.mem r.1 r.2.length = r.2) ∧
      t.lines = { siteStow := siteStow, siteStop := siteStop } ∧
      (t.panelLine.slot = 0 ∧ t.panelLine.isOpen = true ∧ t.panelLine.answered = false ∧
        t.panelLine.elapsed = 0) ∧
      (∀ a, ¬ Layout.isOwn a → Memory.read t.mem a = Memory.read s.mem a) ∧
      (t.time.time = 0 ∧ t.time.state = .unset ∧ t.time.pendingSet = none ∧
        t.time.sincePulse = none ∧ t.time.watch = none ∧ t.time.lastSnap = none ∧
        t.time.drive = 20) ∧
      (t.power.normal = 40000 ∧ t.power.emergency = 12000 ∧ t.power.alarm = feederAlarm ∧
        t.power.grants = [] ∧ t.power.waiting = [] ∧ t.power.last = none) ∧
      (t.sensing.stages = [] ∧ t.sensing.rate = .full ∧ t.sensing.quietCount = 0 ∧
        t.sensing.pendingCount = none ∧ t.sensing.last = none ∧ t.sensing.timer = 250 ∧
        t.sensing.pass = 0) ∧
      (∀ x, t.table x = SweepTable.reset) ∧
      (∀ z, (t.zone z).cfg = ZoneConfig.reset ∧ (t.zone z).order = false ∧
        (t.zone z).exposed = [] ∧ (t.zone z).causes = Causes.none ∧ (t.zone z).speed = none ∧
        (t.zone z).gust = false ∧ (t.zone z).gustStow = false ∧ (t.zone z).blind = false ∧
        (t.zone z).blindTimer = none ∧ (t.zone z).holdTimer = none ∧ (t.zone z).last = none ∧
        (t.zone z).deadline = (if siteStow then some 180000 else none) ∧
        (t.zone z).state = (if siteStow then .stowing else .unwatched) ∧
        ∀ st, (st ∈ (t.zone z).members ↔ z = 0 ∧ (t.station st).retired = false)) ∧
      (∀ st, (t.station st).fuse1 = (s.station st).fuse1 ∧
        (t.station st).fuse2 = (s.station st).fuse2 ∧
        (t.station st).retired = ((s.station st).fuse1 && (s.station st).fuse2) ∧
        (t.station st).cfg = StationConfig.reset ∧ (t.station st).link = Link.reset ∧
        (t.station st).bookA = Book.reset ∧ (t.station st).bookB = Book.reset ∧
        (t.station st).validation = none ∧ (t.station st).reflector = Heater.reset ∧
        (t.station st).feed = Heater.reset ∧ (t.station st).probeQueue = [] ∧
        (t.station st).shedOrder = false ∧ (t.station st).lastBook = none ∧
        (t.station st).lastHeat = none ∧ (t.station st).lastLockout = none ∧
        (t.station st).sitePending = false ∧ (t.station st).hold = none ∧
        (t.station st).progress = {
          table := none, state := .notNamed, reason := none, entry := 0, action := none,
          settle := false, timer := none, mark := false } ∧
        (t.station st).claim = {
          cls := if (t.station st).target.source = .stow then .stow else .move, level := .none,
          wanted := 0, track := 0, granted := 0, grantedLevel := .none } ∧
        (t.station st).panel.lost = true ∧
        (t.station st).panel.unanswered = 0 ∧ (t.station st).panel.ack = none ∧
        (∀ ax, let a := (t.station st).axis ax
          (a.c = 0 ∧ a.s = 0 ∧ a.rate = 0 ∧ a.limitedDemand = none ∧ a.error = none ∧
            a.onSource = none ∧ a.limited = false ∧ a.windFloor = false ∧ a.hold = none) ∧
          a.reason = none ∧ a.errorRun = 0 ∧ a.releaseCount = none ∧ a.releaseSeen = none ∧
            a.releaseSource = none ∧ a.holdIdle = none ∧ a.need = .none) ∧
        (t.station st).target = (if (t.station st).retired = true ∨ siteStop = true then
            { source := .none, row := 1, stow := none, shed := none }
          else if siteStow then
            { source := .stow, row := 2, stow := some (0, 90000000), shed := none }
          else { source := .none, row := 3, stow := none, shed := none }) ∧
        ((t.station st).retired = true → (t.station st).tags = [] ∧
          (t.station st).az.state = .retired ∧ (t.station st).el.state = .retired) ∧
        ((t.station st).retired = false → (t.station st).tags =
            { id := 65534, kind := .ret, scope := .service, party := .part, time := 0 } ::
              (if siteStop then
                [{ id := 65535, kind := .site, scope := .both, party := .part, time := 0 }]
              else []) ∧
          (t.station st).az.state = .braked ∧ (t.station st).el.state = .braked))

/-- The state after reset keeps every law that the statements below say each step keeps. State.reset is the
reset of a new part with its lines inactive, which is the model's choice (notes/assumptions/3.md). -/
def Obligations.ResetKeepsTheLaws : Prop :=
  Law.memory State.reset ∧ Law.queue State.reset ∧ Law.power State.reset ∧ Law.tags State.reset ∧
    Law.source State.reset

/-! ### The exchange interface -/

/-- R13: a read of SUMMARY returns the latch and clears it, a read of SUMMARY_VIEW returns it; an increment
that falls together with a read is returned by it or left latched after it. R3, R197: IDENT reads as its fixed
word, POST as the length of the posting queue, MASK as its twelve bits and CONTROL as INT_ENABLE, with every
other bit 0. R3, R14: a write to MASK keeps its twelve low bits, a write to CONTROL its INT_ENABLE; a write to
IDENT, SUMMARY or SUMMARY_VIEW changes nothing. The model's choices are that such an ignored write carries the
host's writes into exchange memory which reach the part before it (R1; notes/assumptions/7.md), that the
latest SUMMARY read is held in a field and the other reads are functions of the state (34.md), and that a
write to CONTROL with EXCHANGE_RESET as 0 is a row of its own (25.md). -/
def Obligations.RegisterAccessesActOnOneRegister : Prop :=
  (∀ s : State,
     exec .summaryRead s = .next { s with exchange := { s.exchange with
       readData := s.exchange.summary.setWidth 32, summary := 0 } } ∧
     s.exchange.readView = s.exchange.summary.setWidth 32) ∧
  (Exchange.ident = 0x5B160100 ∧ ∀ x : Exchange,
    (x.queue.length ≤ 32 → x.readPost.toNat = x.queue.length) ∧
    (∀ i : Nat, x.readMask.getLsbD i = (decide (i < 12) && x.mask.getLsbD i)) ∧
    ∀ i : Nat, x.readControl.getLsbD i = (decide (i = 0) && x.intEnable)) ∧
  (∀ (s t : State) (x : Tally) (i : Fin 12), x.cls.bit.getLsbD i.val = true →
    (exec .summaryRead (s.bump x) = .next t →
      t.exchange.readData.getLsbD i.val = true ∧ t.exchange.summary = 0) ∧
    (exec .summaryRead s = .next t →
      t.exchange.readData.getLsbD i.val = s.exchange.summary.getLsbD i.val ∧
      (t.bump x).exchange.summary.getLsbD i.val = true)) ∧
  ((∀ (v : BitVec 32) (s : State), exec (.maskWrite v) s =
     .next { s with exchange := { s.exchange with mask := v.setWidth 12 } }) ∧
   (∀ (b : Bool) (s : State), exec (.intEnable b) s =
     .next { s with exchange := { s.exchange with intEnable := b } }) ∧
   (∀ (w : IgnoredWrite) (v : BitVec 32) (s : State),
     exec (.registerWriteIgnored w v) s = .next (s.hostStore w.stores)) ∧
   (∀ s : State, s.hostStore [] = s ∧ ∀ (a : BitVec 18) (b : Byte) (l : List (BitVec 18 × Byte)),
     s.hostStore ((a, b) :: l) =
       { s with mem := Memory.store s.mem a.toNat [b] }.hostStore l))

/-- R14. -/
def Obligations.IntFollowsLatchAndMask : Prop :=
  (∀ x : Exchange, x.int = true ↔
    x.intEnable = true ∧ ∃ i : Fin 12, x.summary.getLsbD i.val = true ∧ x.mask.getLsbD i.val = true) ∧
  (∀ s t : State, exec .summaryRead s = .next t → t.exchange.int = false) ∧
  (∀ s t : State, exec (.intEnable false) s = .next t →
    t.exchange.int = false ∧ t.exchange.summary = s.exchange.summary) ∧
  (∀ (s t : State) (v : BitVec 32) (i : Fin 12), exec (.maskWrite v) s = .next t →
    s.exchange.intEnable = true → s.exchange.summary.getLsbD i.val = true →
    v.getLsbD i.val = true → t.exchange.int = true) ∧
  (∀ (s t : State) (i : Fin 12), exec (.intEnable true) s = .next t →
    s.exchange.summary.getLsbD i.val = true → s.exchange.mask.getLsbD i.val = true →
    t.exchange.int = true)

/-- R11, R12: an increment adds one modulo 65,536 to its tally alone, writes the whole value, low byte first,
to the tally's own two bytes and to nothing else, and latches the class, whatever MASK holds. -/
def Obligations.TallyIncrementCountsWritesAndLatches : Prop :=
  ∀ (s : State) (x : Tally),
    Counts [x] s (s.bump x) ∧
    Memory.nat (s.bump x).mem x.address 2 = (s.tally x + 1).toNat ∧
    (∀ a, a < x.address ∨ x.address + 2 ≤ a →
      Memory.read (s.bump x).mem a = Memory.read s.mem a) ∧
    (s.bump x).exchange.summary = s.exchange.summary ||| x.cls.bit ∧
    (s.bump x).blocks = s.blocks

/-- R2: a status region that an event changes reads, after the event, as the record then stands; outside the
status areas the rewriting changes no byte. So after every command, and after every step, each region that
shows something changed reads as its record then stands. How the fields of a region are packed is the model's
choice (notes/assumptions/8.md). -/
def Obligations.ChangedStatusRegionsAreRewritten : Prop :=
  (∀ (s t : State) (n : Nat) (a b : Nat × List Byte),
    s.regions[n]? = some a → t.regions[n]? = some b → a ≠ b →
      Memory.bytes (s.publish t).mem b.1 b.2.length = b.2 ∧
      ∀ i, ¬ Layout.isStatus i → Memory.read (s.publish t).mem i = Memory.read t.mem i) ∧
  (∀ (i : Instr) (s t : State), exec i s = .next t → Rewritten s t) ∧
  ∀ s t : State, step s = .next t → Rewritten s t

/-- R4: a POST write, read against the page as the host's writes before it left it, either is a stray post
that counts STRAY_POSTS alone, or appends its index alone. That the row carries the host's writes is the
model's choice (notes/assumptions/7.md). -/
def Obligations.PostWriteAppendsOrStrays : Prop :=
  ∀ (stores : List (BitVec 18 × Byte)) (value : BitVec 32) (s : State),
    let h := s.hostStore stores
    let strays := 31 < value.toNat ∨ h.pageState (Fin.ofNat 32 value.toNat) ≠ PageState.posted ∨
      Fin.ofNat 32 value.toNat ∈ s.exchange.queue
    (strays → ∃ t, exec (.postWrite stores value) s = .next t ∧ t.blocks = s.blocks ∧
      Counts [.strayPosts] h t) ∧
    (¬ strays → exec (.postWrite stores value) s = .next { h with
      exchange := { s.exchange with queue := s.exchange.queue ++ [Fin.ofNat 32 value.toNat] } })

/-- R4: the posting queue holds at most 32 indices, each at most once, after every step that finds it so. -/
def Obligations.EveryStepKeepsTheQueueLaw : Prop :=
  ∀ s t : State, Law.queue s → step s = .next t → Law.queue t

/-- R5, R6 (check 1), R197: the take of the head of the queue: a page no longer POSTED is dropped as a stray;
one that is POSTED is marked TAKEN and run as the row of its kind with the operands on the page; a kind that
is not assigned is answered UNKNOWN_KIND. Nothing is taken while a request is in flight. That the row of a
request kind is the request at its take is the model's choice (notes/assumptions/12.md). -/
def Obligations.RequestTakeRunsTheRowOnThePage : Prop :=
  ∀ (s : State) (p : PageId) (rest : List PageId),
    (s.exchange.queue = [] ∨ s.exchange.inFlight ≠ none → exec .requestTake s = .next s) ∧
    (s.exchange.queue = p :: rest → s.exchange.inFlight = none →
      let q := { s with exchange := { s.exchange with queue := rest } }
      let u := { q with mem := Memory.store s.mem (Layout.page p) [2, 0, 0, 0] }
      (s.pageState p ≠ PageState.posted → exec .requestTake s = .next (q.bump .strayPosts)) ∧
      (s.pageState p = PageState.posted →
        (∀ i, u.rowOnPage p = some i → exec .requestTake s = exec i u) ∧
        (u.rowOnPage p = none → exec .requestTake s = .next (u.answer p .unknownKind []))))

/-- R8. -/
def Obligations.AnswerWritesPageAndCounts : Prop :=
  ∀ (s : State) (p : PageId) (r : Result) (data : List Byte),
    Answers p r data [] s (s.answer p r data) ∧ (s.answer p r data).blocks = s.blocks

/-- R6 (checks 2 to 4), R7: a target outside the range of its kind is answered BAD_TARGET; a retired station
or a heater zone of one RETIRED; of a station that is not, an enumerated parameter that is not one of its
names BAD_VALUE; nothing but the answer happens. -/
def Obligations.ChecksOfTheTakeAreAnswered : Prop :=
  (∀ (s : State) (page : PageId) (target : BitVec 16), s.exchange.inFlight = none →
     let refused (i : Instr) := exec i s = .next (s.answer page .badTarget [])
     (16 ≤ target.toNat →
       (∀ l n, refused (.armBook page target l n)) ∧ refused (.disarmBook page target) ∧
       refused (.stopBook page target) ∧ (∀ c, refused (.configureStation page target c)) ∧
       (∀ a, refused (.recoverAxis page target a)) ∧
       (∀ k c n, refused (.placeTag page target k c n)) ∧ refused (.retireStation page target) ∧
       (target ≠ 0xFFFF → refused (.clearReturn page target) ∧ refused (.clearSite page target))) ∧
     (32 ≤ target.toNat →
       (∀ m, refused (.setHeatMode page target m)) ∧ refused (.heatOn page target) ∧
       refused (.heatOff page target) ∧ refused (.probeHeater page target)) ∧
     (4 ≤ target.toNat →
       (∀ c, refused (.configureZone page target c)) ∧ refused (.stowZone page target) ∧
       refused (.releaseZone page target)) ∧
     (2 ≤ target.toNat →
       (∀ src a b, refused (.launchSweep page target src a b)) ∧
       refused (.cancelSweep page target))) ∧
  (∀ (s : State) (page : PageId) (target : BitVec 16) (st : StationId),
     s.exchange.inFlight = none →
     let refused (r : Result) (i : Instr) := exec i s = .next (s.answer page r [])
     (target.toNat = st.val →
       ((s.station st).retired = true →
         (∀ l n, refused .retired (.armBook page target l n)) ∧
         refused .retired (.disarmBook page target) ∧ refused .retired (.stopBook page target) ∧
         (∀ c, refused .retired (.configureStation page target c)) ∧
         (∀ a, refused .retired (.recoverAxis page target a)) ∧
         (∀ k c n, refused .retired (.placeTag page target k c n)) ∧
         refused .retired (.clearReturn page target) ∧ refused .retired (.clearSite page target) ∧
         refused .retired (.retireStation page target)) ∧
       ((s.station st).retired = false →
         (∀ l n, 2 ≤ l.toNat → refused .badValue (.armBook page target l n)) ∧
         (∀ a, 2 ≤ a.toNat → refused .badValue (.recoverAxis page target a)) ∧
         (∀ k c n, k.toNat = 0 ∨ 5 ≤ k.toNat ∨ c.toNat = 0 ∨ 5 ≤ c.toNat →
           refused .badValue (.placeTag page target k c n)))) ∧
     (target.toNat / 2 = st.val →
       ((s.station st).retired = true →
         (∀ m, refused .retired (.setHeatMode page target m)) ∧
         refused .retired (.heatOn page target) ∧ refused .retired (.heatOff page target) ∧
         refused .retired (.probeHeater page target)) ∧
       ((s.station st).retired = false →
         ∀ m, 3 ≤ m.toNat → refused .badValue (.setHeatMode page target m))) ∧
     (∀ v m, 2 ≤ m.toNat → refused .badValue (.setTime page v m)) ∧
     (target.toNat < 2 → ∀ src a b, 3 ≤ src.toNat →
       refused .badValue (.launchSweep page target src a b)))

/-- R3, R10, R15, R123: an exchange reset empties the queue, abandons the request in flight with the work it
began, keeps MASK, takes the INT_ENABLE written with it, and leaves no table ARMED, RUNNING or SETTLING; it
counts only what the cancellations count, and writes no byte outside the part's own areas. Where one table
runs at most and only a table that runs holds stations (what every step keeps, `Law.sweeps`), each table that
was ARMED, RUNNING or SETTLING is CANCELLED with its end record and counted once, no hold and no settle timer
of its run is left, and any other table stands. The SUMMARY latch is cleared before the cancellations, so that
only what they count is latched, SWEEP among it where a table was in use. That T0 is cancelled before T1, that
each hold released has the shed order judged, and that the row carries the INT_ENABLE of its write, are the
model's choices (notes/assumptions/37.md, 53.md, 25.md). -/
def Obligations.ExchangeResetEmptiesTheInterface : Prop :=
  ∀ (enable : Bool) (s : State), ∃ t, exec (.exchangeReset enable) s = .next t ∧
    t.exchange.queue = [] ∧ t.exchange.inFlight = none ∧ t.exchange.mask = s.exchange.mask ∧
    t.exchange.intEnable = enable ∧ t.noTable ∧
    (let used (x : TableId) (s : State) := (s.table x).state = .armed ∨
       (s.table x).state = .running ∨ (s.table x).state = .settling
     ∃ dropped cleared one both : State,
       dropped = (match s.exchange.inFlight with
         | none => s
         | some { page := _, request := .armBook st } =>
           s.modStation st (fun x => { x with validation := none })
         | some { page := _, request := .configureSensing } =>
           s.modSensing (fun w => { w with pendingCount := none })) ∧
       cleared = { dropped with exchange := { s.exchange with
         queue := [], inFlight := none, summary := 0, intEnable := enable } } ∧
       (used 0 cleared → one = cleared.cancelTable settle 0 false) ∧
       (¬ used 0 cleared → one = cleared) ∧
       (used 1 one → both = one.cancelTable settle 1 false) ∧ (¬ used 1 one → both = one) ∧
       t = s.publish both ∧
       ((∃ x, used x s) → t.exchange.summary.getLsbD 7 = true)) ∧
    (Law.sweeps s →
      let used (x : TableId) := (s.table x).state = .armed ∨ (s.table x).state = .running ∨
        (s.table x).state = .settling
      (∀ x, used x → (t.table x).state = .cancelled ∧ (t.table x).strobe = none ∧
        (t.table x).startDue = false ∧ (t.table x).ended = some (.cancelled, s.time.time) ∧
        ∀ st, (t.station st).progress.table = some x → (t.station st).progress.timer = none) ∧
      (∀ x, ¬ used x → t.table x = s.table x) ∧
      (∀ st, (t.station st).hold = none ∧ (t.station st).progress =
        { (s.station st).progress with timer := (t.station st).progress.timer }) ∧
      t.tally .sweepEnds = s.tally .sweepEnds +
        BitVec.ofNat 16 ((List.finRange 2).filter (fun x => decide (used x))).length) ∧
    (s.noTable → t.exchange.summary = 0 ∧ t.tallies = s.tallies) ∧
    (∀ x : Tally, x.settles = false → t.tally x = s.tally x) ∧
    (∀ a, ¬ Layout.isOwn a → Memory.read t.mem a = Memory.read s.mem a) ∧
    t.time = s.time ∧ t.lines = s.lines ∧ t.panelLine = s.panelLine ∧
    t.power.normal = s.power.normal ∧ t.power.emergency = s.power.emergency ∧
    t.sensing = (match s.exchange.inFlight with
      | some { page := _, request := .configureSensing } =>
        { s.sensing with pendingCount := none }
      | _ => s.sensing) ∧
    ∀ st, (t.station st).link = (s.station st).link ∧ (t.station st).tags = (s.station st).tags ∧
      (t.station st).validation = (match s.exchange.inFlight with
        | some { page := _, request := .armBook st' } =>
          if st' = st then none else (s.station st).validation
        | _ => (s.station st).validation) ∧
      (s.noTable → (t.station st).bookA = (s.station st).bookA ∧
        (t.station st).bookB = (s.station st).bookB)

/-! ### Array time -/

/-- R20, R21. -/
def Obligations.SetTimeSetsOrPends : Prop :=
  ∀ (s : State) (page : PageId) (value : BitVec 48), s.exchange.inFlight = none →
    (∃ t, exec (.setTime page value 0) s = .next t ∧
      t.blocks = { s.blocks with time := { s.time with
        time := value.toNat, state := .free, watch := none, pendingSet := none } } ∧
      Answers page .done [] (if s.time.time + 2 < value.toNat ∨ value.toNat + 2 < s.time.time then
        [.timeSteps] else []) s t) ∧
    (value.toNat % 1000 = 0 → ∃ t, exec (.setTime page value 1) s = .next t ∧
      t.blocks = { s.blocks with time := { s.time with pendingSet := some value.toNat } } ∧
      Answers page .done [] [] s t) ∧
    (value.toNat % 1000 ≠ 0 → ∃ t, exec (.setTime page value 1) s = .next t ∧
      t.blocks = s.blocks ∧ Answers page .badValue [] [] s t)

/-- R23, with the wrap of R17: a taken pulse without a pending set, in FREE or LOCKED, snaps array time. R21,
R22, R109: a pulse that comes too soon does nothing; one taken with a pending set applies it; one taken in
UNSET without one leaves array time and the time state; where no table waits for it, TU alone changes. That
the second snapped to is taken modulo 2^48 is the model's inference (notes/assumptions/18.md). The start of a
table that waits for the pulse is stated with the starts of the sweeps. -/
def Obligations.PulseSnapsAppliesTheSetOrIsDisregarded : Prop :=
  (∀ s : State, (∀ n, s.time.sincePulse = some n → 500 ≤ n) → s.time.pendingSet = none →
     s.time.state ≠ .unset →
     ∃ t, exec .sitePulse s = .next t ∧
       let m := s.time.time % 1000
       let e : Int := if m < 500 then m else (m : Int) - 1000
       t.time = { s.time with
         time := if m < 500 then s.time.time - m else (s.time.time + (1000 - m)) % 2 ^ 48,
         state := .locked, watch := some 2500, lastSnap := some e, sincePulse := some 0 } ∧
       t.tally .timeSteps = s.tally .timeSteps + (if -2 ≤ e ∧ e ≤ 2 then 0 else 1) ∧
       (∀ x : Tally, x ≠ .timeSteps → x.settles = false → t.tally x = s.tally x) ∧
       (∀ a, ¬ Layout.isOwn a → Memory.read t.mem a = Memory.read s.mem a)) ∧
  (∀ s : State,
     (∀ n < 500, s.time.sincePulse = some n → exec .sitePulse s = .next s) ∧
     ((∀ n, s.time.sincePulse = some n → 500 ≤ n) →
       (∀ v, s.time.pendingSet = some v → ∃ t, exec .sitePulse s = .next t ∧
         t.time = { s.time with
           time := v, state := .locked, watch := some 2500, pendingSet := none, lastSnap := none,
           sincePulse := some 0 } ∧
         t.tally .timeSteps = s.tally .timeSteps +
           (if s.time.time + 2 < v ∨ v + 2 < s.time.time then 1 else 0)) ∧
       (s.time.pendingSet = none → s.time.state = .unset → ∃ t, exec .sitePulse s = .next t ∧
         t.time = { s.time with sincePulse := some 0 } ∧
         t.tally .timeSteps = s.tally .timeSteps) ∧
       ∀ t, exec .sitePulse s = .next t →
         (∀ x l, (s.table x).launch = some l → l.source ≠ .nextPulse) →
         t.blocks = { s.blocks with time := t.time }))

/-- R24. A run-out whose timer does not stand at 0 has no effect (notes/assumptions/13.md). -/
def Obligations.PulseWatchFreesTime : Prop :=
  ∀ s : State,
    (s.time.state = .locked → s.time.watch = some 0 →
      ∃ t, exec .pulseWatchExpiry s = .next t ∧
        t.blocks = { s.blocks with time := { s.time with state := .free, watch := none } } ∧
        Counts [.pulseLosses] s t) ∧
    (s.time.state ≠ .locked ∨ s.time.watch ≠ some 0 → exec .pulseWatchExpiry s = .next s)

/-! ### Station links -/

/-- R28, R29, R31: a good report answers its frame and brings the link up with its contents as the latest
report, read by the layout of R197; any other report is discarded. R72, R75, R81, R172, R174, R175: what TE
and HC do at a good report: each axis follows the encoder, faults for its amplifier or its limit switch, acts
on its release report, whose source is kept in a field of the model's own (notes/assumptions/42.md), or is
examined; each heater current is stored and judged; the probe result is taken. The station's claim is formed
once for both axes (notes/assumptions/16.md). The order of these users, AZ before EL with its whole fault, and
the REFLECTOR current, the FEED current and the probe result last, is the model's choice
(notes/assumptions/38.md, 41.md); so is what a released axis does off source at granted level NONE, which R72
leaves open (notes/assumptions/17.md). -/
def Obligations.GoodReportsAloneAreTaken : Prop :=
  (∀ (s : State) (st : StationId) (frame : Frame),
    ((s.station st).goodReport frame = true ↔
      (s.station st).retired = false ∧ frame.length = 19 ∧ frame = Frame.seal (frame.take 17) ∧
      (s.station st).link.seq = some (frame.getD 0 0) ∧ (s.station st).link.answered = false) ∧
    ((s.station st).goodReport frame = false → exec (.reportFrame st frame) s = .next s) ∧
    ((s.station st).goodReport frame = true → ∃ t, exec (.reportFrame st frame) s = .next t ∧
      t = s.publish (s.takeReport settle st (Frame.report frame)) ∧
      (t.station st).link = { (s.station st).link with
        up := true, answered := true, missed := 0, report := some (Frame.report frame) } ∧
      (∀ x, x ≠ st → (t.station x).link = (s.station x).link) ∧
      (∀ x, (t.station x).tags = (s.station x).tags ∧ (t.station x).cfg = (s.station x).cfg) ∧
      (t.station st).reflector.current = Frame.nat frame 11 2 ∧
      (t.station st).feed.current = Frame.nat frame 13 2 ∧
      t.time = s.time ∧ t.sensing = s.sensing ∧ t.exchange.queue = s.exchange.queue ∧
      (∀ a, ¬ Layout.isOwn a → Memory.read t.mem a = Memory.read s.mem a))) ∧
  (∀ f : Frame,
    let bit (i : Nat) := (Frame.nat f 1 2).testBit i
    let angle (i : Nat) := (BitVec.ofNat 32 (Frame.nat f i 4)).toInt
    Frame.report f = {
      azReady := bit 0, elReady := bit 1, azReleased := bit 2, elReleased := bit 3, azCcw := bit 4,
      azCw := bit 5, elLow := bit 6, elHigh := bit 7, azEncoder := angle 3, elEncoder := angle 7,
      reflectorCurrent := Frame.nat f 11 2, feedCurrent := Frame.nat f 13 2,
      probe := if bit 8 then some (if bit 9 then .feed else .reflector, Frame.nat f 15 2)
        else none }) ∧
  (∀ (s : State) (st : StationId) (r : Report),
    let linked := s.modStation st (fun x => { x with link := { x.link with
      up := true, answered := true, missed := 0, report := some r } })
    let before := if (s.station st).link.up then linked else linked.judgeHeatBoth settle st
    let moved := ((before.reportAxis settle st r .az).reportAxis settle st r .el).afterAxes settle
      st (before.station st)
    let heard := (moved.reportCurrent settle st .reflector r.reflectorCurrent).reportCurrent settle
      st .feed r.feedCurrent
    (r.probe = none → s.takeReport settle st r = heard) ∧
    ∀ area ohms, r.probe = some (area, ohms) →
      s.takeReport settle st r = heard.probeResult settle st area ohms) ∧
  (∀ (s : State) (st : StationId) (r : Report) (ax : AxisId),
    let follows (a : Axis) : Axis :=
      if a.state = .braked ∨ a.state = .awaitingPower ∨ a.state = .faulted then
        { a with c := r.encoder ax } else a
    let t := s.modAxis st ax follows
    let x := t.station st
    let a := x.axis ax
    let amplifier := (a.state = .awaitingPower ∨ a.state.powered = true) ∧ r.ready ax = false
    let switch := a.state.powered = true ∧ r.limitSwitch ax = true
    let released := a.state = .releasing ∧ r.released ax = true
    let judged := ∃ n, a.releaseCount = some n ∧ 0 < n
    let leaves (b : Axis) := s.reportAxis settle st r ax =
      t.modStation st (fun x => (x.modAxis ax (fun _ => b)).examine ax)
    let enters (to_ : AxisState) (hold : Option Int) (holdIdle : Timer) := leaves { a with
      state := to_, reason := none, hold := hold, holdIdle := holdIdle, releaseCount := none,
      releaseSeen := none, releaseSource := none }
    let src := x.target.source
    (amplifier → s.reportAxis settle st r ax = t.faultAxis settle st ax .amplifier) ∧
    (¬ amplifier → switch → s.reportAxis settle st r ax = t.faultAxis settle st ax .limitSwitch) ∧
    (¬ amplifier → ¬ switch →
      (¬ released → leaves a) ∧
      (released → ¬ judged →
        leaves { a with releaseSeen := some true, releaseSource := some src }) ∧
      (released → judged → src = .stow → enters .stowing none none) ∧
      (released → judged → src = .none →
        enters .holding (some a.c) (some (1000 * x.cfg.holdIdle))) ∧
      (released → judged → src ≠ .stow → src ≠ .none →
        (a.onSource = some true → enters .tracking none none) ∧
        (a.onSource ≠ some true →
          (x.claim.grantedLevel = .slew → enters .slewing none none) ∧
          (x.claim.grantedLevel = .track → enters .catchingUp none none) ∧
          (x.claim.grantedLevel = .none →
            leaves { a with releaseSeen := some true, releaseSource := some src }))))) ∧
  ∀ (s : State) (st : StationId) (area : Area),
    let h := (s.station st).heater area
    (∀ current : Nat,
      let u := s.reportCurrent settle st area current
      let stored := s.modHeater st area (fun h => { h with current := current })
      (h.state ≠ .energizing → h.state ≠ .on → u = stored) ∧
      ∀ k, h.cls = some k →
        let past (percent : Nat) := percent * k.rated < 100 * current
        let low := 100 * current < 50 * k.rated
        (h.state = .energizing → past 160 →
          u = stored.faultHeater settle st area .startFault current) ∧
        (h.state = .energizing → ¬ past 160 → u = stored) ∧
        (h.state = .on → past 160 →
          u = stored.faultHeater settle st area .currentLimit current) ∧
        (h.state = .on → ¬ past 160 → ∃ x y : Timer,
          u = stored.modHeater st area (fun h => { h with overload := x, openElement := y }) ∧
          (¬ past 125 → x = none) ∧ (¬ low → y = none) ∧
          (past 125 → x = if h.overload = none then some 500 else h.overload) ∧
          (low → y = if h.openElement = none then some 2000 else h.openElement))) ∧
    ∀ ohms : Nat,
      let u := s.probeResult settle st area ohms
      let taken (v : Verdict) := s.modHeater st area (fun h => { h with
        lastProbe := some (ohms, v), probeWindow := none })
      let due := h.state = .probing ∧ h.probeNamed = true
      let bad (v : Verdict) (r : HeatFault) :=
        due → Verdict.of ohms = v → u = (taken v).faultHeater settle st area r ohms
      (¬ due → u = s) ∧
      (∀ k, due → Verdict.of ohms = .good k →
        u = ((taken (.good k)).changeHeater settle st area (fun h => { h with
          state := .ready, cls := some k, probeNamed := false })).judgeClaim settle st area) ∧
      bad Verdict.short HeatFault.short ∧ bad Verdict.open HeatFault.open ∧
      bad Verdict.invalid HeatFault.invalid

/-- R30, R82, R179, R180: at the third missed frame in a row the link goes DOWN, LINK_LOSSES counts it, every
axis that is neither RETIRED nor FAULTED is FAULTED with the reason LINK and any other keeps its state and
reason, and every heater zone that probes, holds a class or claims is IDLE, without a class and with its
timers stopped; else nothing happens. That the loss of a link is a command of its own besides a part of the
expiry, and the order of what follows from the two faults, are the model's choices (notes/assumptions/14.md,
32.md). -/
def Obligations.LinkLossFaultsAndDrops : Prop :=
  (∀ (k : Settle) (s : State) (st : StationId),
    let lost (a : Axis) := a.state ≠ .retired ∧ a.state ≠ .faulted
    let faults (a : Axis) : Axis := if a.state = .retired ∨ a.state = .faulted then a else { a with
      state := .faulted, reason := some .link, rate := 0, s := 0, hold := none, holdIdle := none,
      releaseCount := none, releaseSeen := none, releaseSource := none, errorRun := 0,
      limited := false, windFloor := false }
    let x := s.station st
    ∃ faulted one both : State,
      faulted = ((s.modStation st (fun x => { x with link := { x.link with
        up := false, missed := 0 } })).bump (.linkLosses st)).modStation st (fun x => { x with
          az := faults x.az, el := faults x.el }) ∧
      (lost x.az → one = faulted.afterFault k st) ∧ (¬ lost x.az → one = faulted) ∧
      (lost x.el → both = one.afterFault k st) ∧ (¬ lost x.el → both = one) ∧
      s.loseLink k st = both.dropHeat k st ∧
      s.afterFault k st = (((s.formClaim k st).bump (.axisFaults st)).abandon k st
        .fault).joinExposed k st .fault) ∧
  ∀ (s : State) (st : StationId),
    let l := (s.station st).link
    (¬ (l.up = true ∧ l.answered = false ∧ 2 ≤ l.missed) → exec (.linkLoss st) s = .next s) ∧
    (l.up = true → l.answered = false → 2 ≤ l.missed → ∃ t, exec (.linkLoss st) s = .next t ∧
      t = s.publish (s.loseLink settle st) ∧
      (t.station st).link = { l with up := false, missed := 0 } ∧
      t.tally (.linkLosses st) = s.tally (.linkLosses st) + 1 ∧
      (∀ x, x ≠ st → (t.station x).link = (s.station x).link ∧
        t.tally (.linkLosses x) = s.tally (.linkLosses x)) ∧
      (∀ ax, let a := (s.station st).axis ax
        let b := (t.station st).axis ax
        (a.state ≠ .retired → a.state ≠ .faulted →
          b.state = .faulted ∧ b.reason = some .link ∧ b.s = 0 ∧ b.rate = 0) ∧
        (a.state = .faulted → b.state = .faulted ∧ b.reason = a.reason) ∧
        (a.state = .retired → b.state = .retired)) ∧
      (∀ area, let h := (s.station st).heater area
        let g := (t.station st).heater area
        let dropped := h.state ≠ .off ∧ h.state ≠ .idle ∧ h.state ≠ .cooldown ∧ h.state ≠ .latched
        (dropped → g.state = .idle ∧ g.cls = none ∧ g.probeNamed = false ∧ g.probeWindow = none ∧
          g.energize = none ∧ g.overload = none ∧ g.openElement = none ∧ g.meltOff = none ∧
          g.onRun = none ∧ g.faultCount = h.faultCount) ∧
        (¬ dropped → g.state = h.state ∧ g.cooldown = h.cooldown)) ∧
      (∀ x, t.tally (.heatFaults x) = s.tally (.heatFaults x)) ∧
      t.time = s.time ∧ t.sensing = s.sensing ∧
      (∀ x, (t.station x).tags = (s.station x).tags))

/-- R17, R25, R26, R31, R55: the expiry starts the next 20 ms, shows array time as it stands, and sends every
station that is not retired its next frame, numbered one on from the last and not yet answered, with the
rates, brakes, contactors and probe request that then stand; a retired station is sent none; before the 20 ms
are counted nothing happens (notes/assumptions/13.md). R27, R30: a missed frame is counted, the third in a row
takes the link DOWN and counts LINK_LOSSES; a probe request is named, and its window starts, once. R38, R42,
R43, R55, R73: the work of the expiry in its order: every pending book that is due starts, every running book
is read, then for each station the source is decided again after a book change, both axes are computed on the
points handed on, watched, counted in RELEASING and moved on by their verdict, and its claim is formed once
for both (notes/assumptions/16.md); then JS and DL. That the order holds over the stations and blocks as given
here is the model's reading (notes/assumptions/15.md); that AZ comes before EL, and T0 before T1, are its
choices (notes/assumptions/41.md, 37.md). R181: a start withdraws a shed order that stands, and marks it used,
before the source is decided, which the model leaves until the book is read (DESIGN CHOICE,
notes/assumptions/39.md). -/
def Obligations.DriveIntervalSendsNextFrames : Prop :=
  (∀ s : State,
    (s.time.drive ≠ 0 → exec .driveIntervalExpiry s = .next s) ∧
    (s.time.drive = 0 → ∃ t, exec .driveIntervalExpiry s = .next t ∧
      t.time = { s.time with drive := 20, shown := s.time.time } ∧
      (let all := List.finRange 16
       let first := { s with time := { s.time with drive := 20 } }
       let started := eachOf all State.startAtExpiry first
       let b : BookPhase := { before := first, started := started,
                              read := eachOf all State.readAtExpiry started }
       let js := (eachOf all (State.driveStation settle b) b.read).judgeTables settle
       let closed := eachOf all (State.closeWindow settle)
         ((js.arriveAtTime settle 0).arriveAtTime settle 1)
       let sent := eachOf all (fun st s => s.modStation st Station.send) closed
       t = s.publish { sent with time := { sent.time with shown := sent.time.time } }) ∧
      (∀ st, (s.station st).retired = false →
        let l := (s.station st).link
        let missed := l.up = true ∧ l.answered = false
        let lost := missed ∧ 2 ≤ l.missed
        let y := t.station st
        (lost → y.link.up = false ∧ y.link.missed = 0 ∧
          t.tally (.linkLosses st) = s.tally (.linkLosses st) + 1) ∧
        (¬ lost → y.link.up = l.up ∧
          t.tally (.linkLosses st) = s.tally (.linkLosses st)) ∧
        (missed → ¬ lost → y.link.missed = l.missed + 1) ∧
        (¬ missed → y.link.missed = l.missed) ∧
        y.link.report = l.report ∧ y.link.answered = false ∧
        ∃ (n bits : Byte), n = (match l.seq with
            | none => 0
            | some n => n + 1) ∧ y.link.seq = some n ∧
          (let rate (a : Axis) : Int := if a.state.moving then a.rate else 0
           y.demand = Frame.seal
             (n :: bits :: (Bytes.ofInt 4 (rate y.az) ++ Bytes.ofInt 4 (rate y.el)))) ∧
          (let probe := y.probeQueue.head?
           bits.getLsbD 0 = y.az.state.powered ∧ bits.getLsbD 1 = y.el.state.powered ∧
           bits.getLsbD 2 = y.reflector.state.closed ∧ bits.getLsbD 3 = y.feed.state.closed ∧
           (bits.getLsbD 4 = true ↔ probe ≠ none) ∧ (bits.getLsbD 5 = true ↔ probe = some .feed) ∧
           bits.getLsbD 6 = false ∧ bits.getLsbD 7 = false ∧
           ∀ area, probe = some area → (y.heater area).probeNamed = true)) ∧
      (∀ st, (s.station st).retired = true → (t.station st).link = (s.station st).link ∧
        (t.station st).demand = (s.station st).demand) ∧
      (∀ st, (t.station st).cfg = (s.station st).cfg ∧ (t.station st).tags = (s.station st).tags ∧
        (t.station st).fuse1 = (s.station st).fuse1 ∧ (t.station st).fuse2 = (s.station st).fuse2) ∧
      t.sensing = s.sensing ∧ t.lines = s.lines ∧ t.panelLine = s.panelLine ∧
      t.exchange.queue = s.exchange.queue ∧ t.exchange.mask = s.exchange.mask ∧
      (∀ a, ¬ Layout.isOwn a → Memory.read t.mem a = Memory.read s.mem a))) ∧
  (∀ (k : Settle) (s : State) (st : StationId),
    let x := s.station st
    let misses := x.retired = false ∧ x.link.up = true ∧ x.link.answered = false
    (¬ misses → s.closeWindow k st = s) ∧
    (misses → x.link.missed < 2 → s.closeWindow k st = s.modStation st (fun x => { x with
      link := { x.link with missed := x.link.missed + 1 } })) ∧
    (misses → 2 ≤ x.link.missed → s.closeWindow k st = s.loseLink k st)) ∧
  (∀ (x : Station) (area : Area), x.retired = false →
    let h := (x.send).heater area
    let old := x.heater area
    (x.probeQueue.head? = some area → old.probeNamed = false →
      h = { old with probeNamed := true, probeWindow := some 1000 }) ∧
    (x.probeQueue.head? ≠ some area ∨ old.probeNamed = true → h = old) ∧
    x.send.az = x.az ∧ x.send.el = x.el ∧ x.send.probeQueue = x.probeQueue) ∧
  (∀ (s : State) (st : StationId),
    let x := s.station st
    (x.retired = true → s.startAtExpiry st = s ∧ s.readAtExpiry st = s) ∧
    (x.retired = false →
      s.readAtExpiry st = (s.readBook st).1 ∧
      ((∀ l a, x.bookIn .pending = some l → (x.book l).armed = some a → s.time.time < a.first) →
        s.startAtExpiry st = s) ∧
      ∀ l a, x.bookIn .pending = some l → (x.book l).armed = some a → a.first ≤ s.time.time →
        let u := s.startAtExpiry st
        let rest (b : Book) : Book :=
          if b.state = .running then { b with state := .idle, cursor := none } else b
        let y := (x.modBook l.other rest).modBook l (fun b => { b with
          state := .running, cursor := some (0, a.first), fault := none })
        let z : Station := { y with
          lastBook := some { kind := .started, letter := l, time := s.time.time },
          shedOrder := false,
          reflector := { y.reflector with tiltUsed := y.reflector.tiltUsed || x.shedOrder } }
        Counts [.bookEvents st] s u ∧ u.blocks = (s.modStation st (fun _ => z)).blocks)) ∧
  (∀ (k : Settle) (b : BookPhase) (st : StationId) (s : State),
    let same (p q : State) := ∀ l, ((p.station st).book l).state = .running ↔
      ((q.station st).book l).state = .running
    let moved := ¬ (same b.before b.started ∧ same b.started b.read)
    let handed (x : Station) (p : Option BookTarget) :=
      if x.bookA = (b.read.station st).bookA ∧ x.bookB = (b.read.station st).bookB then
        p = (b.started.readBook st).2 else p = none
    ((s.station st).retired = true → s.driveStation k b st = s) ∧
    ((s.station st).retired = false → ∃ decided : State, ∃ p : Option BookTarget,
      (moved → decided = s.inputChanged k st) ∧ (¬ moved → decided = s) ∧
      handed (decided.station st) p ∧
      let x := decided.station st
      let z := decided.zone x.cfg.zone
      let computed := decided.modStation st (fun x =>
        (x.computeAxis z p decided.time.time .az).computeAxis z p decided.time.time .el)
      let watched := (computed.monitorAxis k st .az).monitorAxis k st .el
      let counted := (watched.countRelease k st .az).countRelease k st .el
      s.driveStation k b st = (counted.modStation st (fun x => { x with
        az := x.az.advance x.claim.grantedLevel,
        el := x.el.advance x.claim.grantedLevel })).afterAxes k st x)) ∧
  ∀ (a : Axis) (level : Level),
    let on := a.onSource = some true
    let enters (to_ : AxisState) : Axis := { a with
      state := to_, reason := none, hold := none, holdIdle := none, releaseCount := none,
      releaseSeen := none, releaseSource := none }
    let arrives := (a.state = .slewing ∨ a.state = .catchingUp) ∧ on
    let leaves := a.state = .tracking ∧ ¬ on ∧ level ≠ .none
    let rests := a.state = .stowing ∧ on ∧ a.s = 0
    (arrives → a.advance level = enters .tracking) ∧
    (leaves → a.advance level = enters (if level = .slew then .slewing else .catchingUp)) ∧
    (rests → a.advance level = { enters .stowed with
      errorRun := 0, limited := false, windFloor := false }) ∧
    (¬ arrives → ¬ leaves → ¬ rests → a.advance level = a)

/-! ### The demand computation -/

/-- R56: between two points the raw demand of an axis is the interpolation, rounded to the nearest whole
number and a half away from zero: with n the product and d the divisor, the rounded quotient r has |2(rd − n)|
≤ d, and |n| ≤ |rd| where that is an equality; a fixed target is the raw demand as it stands. -/
def Obligations.RawDemandFollowsTheTarget : Prop :=
  (∀ tk p tk1 p1 t : Int, tk < tk1 →
    let n := (p1 - p) * (t - tk)
    let d := tk1 - tk
    let r := interpolate tk p tk1 p1 t - p
    (2 * (r * d - n)).natAbs ≤ d.natAbs ∧
    ((2 * (r * d - n)).natAbs = d.natAbs → n.natAbs ≤ (r * d).natAbs) ∧
    (tk ≤ t → t ≤ tk1 → min p p1 ≤ p + r ∧ p + r ≤ max p p1) ∧ (t = tk → r = 0) ∧
    (tk ≤ t → t < tk1 → d ≤ 600000 → (p1 - p).natAbs ≤ 540000000 →
      n.natAbs ≤ 540000000 * 599999 ∧ 540000000 * 599999 < 2 ^ 63)) ∧
  ∀ (x : Station) (ax : AxisId) (book : Option BookTarget) (t : Nat),
    let d := x.demandOf ax book t
    let of_ (p : Int × Int) := if ax = .az then p.1 else p.2
    (∀ h, (x.axis ax).state = .holding → (x.axis ax).hold = some h → d = h) ∧
    ((x.axis ax).state ≠ .holding →
      (x.target.source = .none → d = (x.axis ax).c) ∧
      (∀ p, x.target.source = .stow → x.target.stow = some p → d = of_ p) ∧
      (∀ p, x.target.source = .shed → x.target.shed = some p → d = of_ p) ∧
      (∀ h, x.target.source = .sweep → x.hold = some h → d = of_ (h.az, h.el)) ∧
      (∀ p, x.target.source = .book → book = some (.fixed p) → d = of_ (p.az, p.el)) ∧
      (∀ p q, x.target.source = .book → book = some (.between p q) →
        d = interpolate p.time (of_ (p.az, p.el)) q.time (of_ (q.az, q.el)) t))

/-- R58: the acceleration a, the bound B = isqrt(2·a·|r|), which is the floor integer square root, and the
bounded step u. -/
def Obligations.BrakingStepCanStop : Prop :=
  ∀ (cfg : AxisConfig) (d c : Int), cfg.amax ≤ 2000000 → (d - c).natAbs < 2 ^ 40 →
    let r := d - c
    let a := cfg.accel
    let b := isqrt (2 * a * r.natAbs)
    let u := brakingStep a r
    (a = cfg.amax / 2500 ∧ a ≤ 800) ∧
    (b * b ≤ 2 * a * r.natAbs ∧ 2 * a * r.natAbs < (b + 1) * (b + 1)) ∧
    u.natAbs = min r.natAbs b ∧ (0 ≤ r → 0 ≤ u) ∧ (r ≤ 0 → u ≤ 0) ∧
    (r = 0 → u = 0) ∧ (a = 0 → b = 0 ∧ u = 0)

/-- R57, R158: the lower bound F and the limited demand. R59 to R63, R65, R66: what one expiry leaves of an
axis that is computed: the step within the window of the step before and within the rate of the grant, the
position within the soft limits, the results, the verdict; an axis in RELEASING does not move; one that is not
computed commands no motion. The computation leaves the error run count, and the release count of an axis in
RELEASING rises by one with it. -/
def Obligations.ComputedExpiryKeepsTheBounds : Prop :=
  (∀ (ax : AxisId) (cfg : AxisConfig) (zone : ZoneState) (floor d : Int), cfg.lmin ≤ cfg.lmax →
     let f := lowerBound ax cfg zone floor
     let l := limitDemand cfg f d
     (ax = .az ∨ zone ≠ .watch → f = cfg.lmin) ∧
     (ax = .el → zone = .watch →
       f = if cfg.lmax < floor then cfg.lmax else max cfg.lmin floor) ∧
     (d < f → l.demand = f ∧ (l.windFloor = true ↔ cfg.lmin < f) ∧
       (l.limited = true ↔ f = cfg.lmin)) ∧
     (cfg.lmax < d → l.demand = cfg.lmax ∧ l.limited = true ∧ l.windFloor = false) ∧
     (f ≤ d → d ≤ cfg.lmax → l.demand = d ∧ l.limited = false ∧ l.windFloor = false)) ∧
  ((∀ cfg : AxisConfig, cfg.stepLimit .slew = cfg.vmax / 50 ∧ cfg.stepLimit .track = cfg.vmax / 500) ∧
   (∀ (x : Station) (z : Zone) (book : Option BookTarget) (t : Nat) (ax : AxisId),
     let a := x.axis ax
     let b := a.compute (x.cfg.axis ax) (lowerBound ax (x.cfg.axis ax) z.state z.cfg.floor)
       x.claim.grantedLevel (x.link.report.map (fun r => r.encoder ax)) (x.demandOf ax book t)
     (x.computeAxis z book t ax).axis ax =
       if a.state = .releasing then { b with releaseCount := a.releaseCount.map (fun n => n + 1) }
       else if a.state.powered = true then b
       else { a with
         s := 0, rate := 0, limited := false, windFloor := false, computed := false }) ∧
   ∀ (a : Axis) (cfg : AxisConfig) (f d : Int) (level : Level) (encoder : Option Int),
     cfg.lmin ≤ cfg.lmax →
     let l := limitDemand cfg f d
     let b := a.compute cfg f level encoder d
     let v : Int := cfg.stepLimit level
     let u := max (-v) (min v (max (a.s - cfg.accel) (min (a.s + cfg.accel)
       (brakingStep cfg.accel (l.demand - a.c)))))
     b.state = a.state ∧ b.s = b.c - a.c ∧ b.rate = 50 * b.s ∧
     b.limitedDemand = some l.demand ∧ b.error = encoder.map (fun e => b.c - e) ∧
     b.onSource = some (decide ((l.demand - b.c).natAbs ≤ cfg.window)) ∧
     b.windFloor = l.windFloor ∧ b.errorRun = a.errorRun ∧ b.releaseCount = a.releaseCount ∧
     (a.state = .releasing → b.c = a.c ∧ b.limited = l.limited) ∧
     (a.state ≠ .releasing →
       b.c = max cfg.lmin (min cfg.lmax (a.c + u)) ∧
       (b.limited = true ↔ l.limited = true ∨ b.c ≠ a.c + u) ∧
       (cfg.lmin ≤ a.c → a.c ≤ cfg.lmax → -v ≤ b.s ∧ b.s ≤ v)))

/-! ### Targets, claims and axes -/

/-- R49, R50, R52, R53: the source and row are those of the first condition that holds; a record that takes a
new source captures the stow or the shed target, and one that keeps its source keeps what it captured. A
decision leaves a record that agrees with it as it was, and else installs the new source, row and targets and
hands the change to the two axes, which answer by R75 and are examined (R70). After a decision, and after
every step that finds it so, the source and row of every station that is not retired are those of R49, where
one table runs at most and only a table that runs holds stations. R181: the shed order is given and withdrawn.
That an event which is an input of both decisions reaches the source first is the model's choice
(notes/assumptions/39.md); an axis that is braked keeps the rate it shows (notes/assumptions/31.md). -/
def Obligations.SourceFollowsTheTable : Prop :=
  (∀ (s : State) (st : StationId),
    let x := s.station st
    let z := (s.zone x.cfg.zone).state
    let c1 := x.retired = true ∨ ∃ t ∈ x.tags, t.scope = .motion ∨ t.scope = .both
    let c2 := z = .stowing ∨ z = .stowed ∨ z = .returnHold
    let c3 := ∃ t ∈ x.tags, t.scope = .service
    let c4 := ∃ h, x.hold = some h ∧
      ((s.table h.table).state = .running ∨ (s.table h.table).state = .settling)
    let c5 := x.bookA.state = .running ∨ x.bookB.state = .running
    let c6 := x.shedOrder = true
    (c1 → s.sourceOf st = (.none, 1)) ∧ (¬ c1 → c2 → s.sourceOf st = (.stow, 2)) ∧
    (¬ c1 → ¬ c2 → c3 → s.sourceOf st = (.none, 3)) ∧
    (¬ c1 → ¬ c2 → ¬ c3 → c4 → s.sourceOf st = (.sweep, 4)) ∧
    (¬ c1 → ¬ c2 → ¬ c3 → ¬ c4 → c5 → s.sourceOf st = (.book, 5)) ∧
    (¬ c1 → ¬ c2 → ¬ c3 → ¬ c4 → ¬ c5 → c6 → s.sourceOf st = (.shed, 6)) ∧
    (¬ c1 → ¬ c2 → ¬ c3 → ¬ c4 → ¬ c5 → ¬ c6 → s.sourceOf st = (.none, 7))) ∧
  (∀ (x : Station) (row : Nat),
    x.retarget .stow row = { source := .stow, row := row, shed := none, stow :=
      if x.target.source = .stow then x.target.stow else some (x.az.c, x.cfg.stowEl) } ∧
    x.retarget .shed row = { source := .shed, row := row, stow := none, shed :=
      if x.target.source = .shed then x.target.shed else some (x.az.c, x.cfg.shedEl) } ∧
    ∀ src, src ≠ .stow → src ≠ .shed →
      x.retarget src row = { source := src, row := row, stow := none, shed := none }) ∧
  (∀ (k : Settle) (s : State) (st : StationId),
    (s.station st).target.source = (s.sourceOf st).1 →
    (s.station st).target.row = (s.sourceOf st).2 → s.decideSource k st = s) ∧
  (∀ (k : Settle) (s : State) (st : StationId),
    let d := s.sourceOf st
    let x := s.station st
    (x.retired = true → s.decideSource k st = s) ∧
    (x.retired = false → x.target.source ≠ d.1 ∨ x.target.row ≠ d.2 →
      s.decideSource k st = s.changeAxes k st (fun x =>
        let y : Station := { x with target := x.retarget d.1 d.2,
                                    az := x.az.answerSource d.1 d.2 x.cfg.holdIdle,
                                    el := x.el.answerSource d.1 d.2 x.cfg.holdIdle }
        let examine (ax : AxisId) (y : Station) := y.modAxis ax (fun a =>
          a.examine ax (y.cfg.axis ax) y.target y.link)
        if d.2 = 1 then y else examine .el (examine .az y))) ∧
    s.inputChanged k st = (s.decideSource k st).judgeShed k st ∧
    (Law.sweeps s → x.retired = false → let t := s.decideSource settle st
      ((t.station st).target.source, (t.station st).target.row) = t.sourceOf st) ∧
    let due := s.shedConditions st = true
    (x.shedOrder = true ↔ due) ∧ s.judgeShed k st = s ∨
      x.shedOrder = false ∧ due ∧ s.judgeShed k st =
        (s.modStation st (fun x => { x with shedOrder := true })).decideSource k st ∨
      x.shedOrder = true ∧ ¬ due ∧ s.judgeShed k st =
        (s.modStation st (fun x => { x with
          shedOrder := false, reflector := { x.reflector with tiltUsed := true } })).decideSource
            k st) ∧
  (∀ (a : Axis) (source : Source) (row seconds : Nat),
    let b := a.answerSource source row seconds
    let clear (to_ : AxisState) (hold : Option Int) (holdIdle : Timer) : Axis := { a with
      state := to_, reason := none, hold := hold, holdIdle := holdIdle, releaseCount := none,
      releaseSeen := none, releaseSource := none }
    let brakes := b = { clear .braked none none with
      s := 0, errorRun := 0, limited := false, windFloor := false }
    let st := a.state
    let runs := st = .slewing ∨ st = .catchingUp ∨ st = .tracking
    (source = .none → row ≠ 1 →
      (st = .awaitingPower ∨ st = .stowed → brakes) ∧
      (runs ∨ st = .stowing → b = clear .holding (some a.c) (some (1000 * seconds)))) ∧
    (source = .stow → runs ∨ st = .holding → b = clear .stowing none none) ∧
    (source = .book ∨ source = .sweep ∨ source = .shed →
      (st = .holding ∨ st = .stowing → b = clear .tracking none none) ∧
      (st = .stowed → brakes)) ∧
    (st = .retired ∨ st = .braked ∨ st = .releasing ∨ st = .faulted ∨ source = .none ∧ row = 1 ∨
      source = .none ∧ st = .holding ∨
      source = .stow ∧ (st = .awaitingPower ∨ st = .stowing ∨ st = .stowed) ∨
      (source = .book ∨ source = .sweep ∨ source = .shed) ∧ (st = .awaitingPower ∨ runs) → b = a)) ∧
  ∀ s t : State, Law.source s → step s = .next t → Law.source t

/-- R77, R78: the needs of the two axes, the claim and the granted level that follow from them, and a claim
that has changed handed to PB; nothing else of the station changes. That a TRACKING axis needs TRACK whatever
its verdict, and that the verdict of a RELEASING axis counts once it has been given since the entry, is the
model's reading (notes/assumptions/10.md). That a change of a station's axes forms the claim once, both axes
having changed, is its reading too (notes/assumptions/16.md). An axis that comes to await power is judged
(R71, R78): once the watts granted reach the watts wanted it is RELEASING from its encoder position, or
FAULTED with the reason OUTSIDE. R74: the answers to a rise of the grant, to a fall of a grant of which the
station still wants more, and to a fall that TE asked for, at which no axis changes state
(notes/assumptions/30.md); AZ moves on before EL (notes/assumptions/41.md); an axis that is braked keeps the
rate it shows (notes/assumptions/31.md). R92, R93: PB takes a drive claim into its lists: the class is
converted first; a claim withdrawn, one no higher than the grant, and one above it. -/
def Obligations.ClaimFollowsTheNeeds : Prop :=
  (∀ a : Axis,
    (a.state = .awaitingPower ∨ a.state = .slewing ∨ a.state = .catchingUp → a.needNow = .slew) ∧
    (a.state = .tracking ∨ a.state = .holding → a.needNow = .track) ∧
    (a.state = .stowing → a.needNow = if a.onSource = some true then .track else .slew) ∧
    (a.state = .releasing → a.needNow =
      if a.onSource = some true ∧ 0 < a.releaseCount.getD 0 then .track else .slew) ∧
    (a.state = .retired ∨ a.state = .braked ∨ a.state = .stowed ∨ a.state = .faulted →
      a.needNow = .none)) ∧
  (∀ x : Station,
    let na := x.az.needNow
    let ne := x.el.needNow
    let slew := (if na = .none then 0 else x.cfg.az.slewWatts) +
      (if ne = .none then 0 else x.cfg.el.slewWatts)
    let track := (if na = .none then 0 else x.cfg.az.trackWatts) +
      (if ne = .none then 0 else x.cfg.el.trackWatts)
    let powered := (if x.az.state.powered then x.cfg.az.slewWatts else 0) +
      (if x.el.state.powered then x.cfg.el.slewWatts else 0)
    x.reform = { x with
      az := { x.az with need := na }, el := { x.el with need := ne },
      claim := {
        cls := if x.target.source = .stow then .stow else .move,
        level := if na = .slew ∨ ne = .slew then .slew
          else if na = .track ∨ ne = .track then .track else .none,
        wanted := if na = .slew ∨ ne = .slew then slew
          else if na = .track ∨ ne = .track then track else 0,
        track := track, granted := x.claim.granted,
        grantedLevel := if x.claim.granted = 0 then .none
          else if powered ≤ x.claim.granted then .slew else .track } }) ∧
  (∀ (k : Settle) (s : State) (st : StationId),
    let t := s.modStation st Station.reform
    let old := (s.station st).claim
    let new := (t.station st).claim
    s.formClaim k st =
      if old.cls = new.cls ∧ old.level = new.level ∧ old.wanted = new.wanted ∧
          old.track = new.track then t
      else k (t.leave (.drive st
        { cls := new.cls, wanted := new.wanted, track := new.track }))) ∧
  (∀ (k : Settle) (s : State) (st : StationId) (f : Station → Station),
    let t := (s.modStation st f).formClaim k st
    let awaits := ∃ ax, ((f (s.station st)).axis ax).state = .awaitingPower ∧
      ((s.station st).axis ax).state ≠ .awaitingPower
    (awaits → s.changeAxes k st f = k (t.leave (.awaiting st))) ∧
    (¬ awaits → s.changeAxes k st f = t)) ∧
  (∀ (k : Settle) (s : State) (st : StationId),
    let x := s.station st
    (x.claim.wanted ≤ x.claim.granted → s.judgeAwaiting k st =
      ((s.releaseAxis k st .az).releaseAxis k st .el).formClaim k st) ∧
    (x.claim.granted < x.claim.wanted → s.judgeAwaiting k st = s) ∧
    ∀ ax, let a := x.axis ax
      let cfg := x.cfg.axis ax
      (∀ r, a.state = .awaitingPower → x.link.report = some r →
        (cfg.lmin ≤ r.encoder ax → r.encoder ax ≤ cfg.lmax → s.releaseAxis k st ax =
          s.modAxis st ax (fun a => { a with
            state := .releasing, reason := none, c := r.encoder ax, s := 0, hold := none,
            holdIdle := none, releaseCount := some 0, releaseSeen := some false, releaseSource := none,
            errorRun := 0 })) ∧
        (r.encoder ax < cfg.lmin ∨ cfg.lmax < r.encoder ax →
          s.releaseAxis k st ax = s.faultAxis k st ax .outside)) ∧
      (a.state ≠ .awaitingPower → s.releaseAxis k st ax = s)) ∧
  (∀ (k : Settle) (s : State) (st : StationId) (watts : Nat),
    let x := s.station st
    let powered := (if x.az.state.powered then x.cfg.az.slewWatts else 0) +
      (if x.el.state.powered then x.cfg.el.slewWatts else 0)
    let level : Level := if watts = 0 then .none else if powered ≤ watts then .slew else .track
    let t := s.modStation st (fun x => { x with claim := { x.claim with
      granted := watts, grantedLevel := level } })
    let u := s.driveGrant k st watts
    let enters (to_ : AxisState) (a : Axis) : Axis := { a with
      state := to_, reason := none, hold := none, holdIdle := none, releaseCount := none,
      releaseSeen := none, releaseSource := none }
    let moves (f : Axis → Axis) := t.modStation st (fun x => { x with az := f x.az, el := f x.el })
    let rises (a : Axis) : Axis :=
      if a.state = .catchingUp ∧ level = .slew then enters .slewing a else a
    let falls (a : Axis) : Axis :=
      if a.state = .slewing ∧ level = .track then enters .catchingUp a else a
    let brakes (a : Axis) : Axis := if a.state.powered = true then { enters .braked a with
      s := 0, errorRun := 0, limited := false, windFloor := false } else a
    let examine (ax : AxisId) (y : Station) := y.modAxis ax (fun a =>
      a.examine ax (y.cfg.axis ax) y.target y.link)
    let moving := x.az.state.powered = true ∨ x.el.state.powered = true
    (x.claim.granted < watts → u = ((moves rises).judgeAwaiting k st).formClaim k st) ∧
    (watts < x.claim.granted → watts < x.claim.wanted →
      (watts = 0 → moving → u = (t.changeAxes k st (fun x => examine .el (examine .az { x with
        az := brakes x.az, el := brakes x.el }))).axesChanged k st) ∧
      (watts ≠ 0 ∨ ¬ moving → u = (moves falls).formClaim k st)) ∧
    (watts ≤ x.claim.granted → watts = x.claim.granted ∨ x.claim.wanted ≤ watts → u = t)) ∧
  (∀ (st : StationId) (claim : DriveClaim) (r : PowerRun), Waiting.inOrder r.power.waiting →
    let c := Claimant.station st
    let p := r.power
    let held := p.granted c
    let addition := claim.wanted - held
    let gone := p.waiting.filter (fun w => w.claimant != c)
    let takes (q : Power) (changed : Prop) := ∃ l, r.takeDrive st claim = { r with
      power := q, touched := l } ∧ (changed → l = Claimant.once r.touched c) ∧
        (¬ changed → l = r.touched)
    (claim.wanted = 0 → takes { p with
      grants := p.grants.filter (fun g => g.claimant != c), waiting := gone,
      claims := p.claims.set st DriveClaim.none } (held ≠ 0)) ∧
    (0 < claim.wanted → claim.wanted ≤ held → takes { p with
      grants := p.grants.map (fun g => if g.claimant = c then
        { g with cls := claim.cls, watts := claim.wanted } else g),
      waiting := gone, claims := p.claims.set st claim } (claim.wanted ≠ held)) ∧
    (held < claim.wanted →
      let raised (l : List Waiting) := takes { p with
        grants := p.grants.map (fun g => if g.claimant = c then { g with cls := claim.cls } else g),
        waiting := l, claims := p.claims.set st claim } False
      let kept (w : Waiting) := p.waiting.find? (fun w => w.claimant == c) = some w ∧
        w.cls = claim.cls ∧ addition ≤ w.addition
      (∀ w, kept w → raised (p.waiting.map (fun w =>
        if w.claimant = c then { w with addition := addition } else w))) ∧
      ((∀ w, ¬ kept w) → raised (Waiting.behind c claim.cls addition p.waiting))))

/-- R70: a BRAKED axis examined; any other axis is left as it is. R76, R83: a hold-idle timer that has run
out, and a recovery that is not refused, brake the axis, which is then examined; what follows is settled in
the same event: the station's claim and WP's tests, for a recovery the judgement of being able to move. A
recovery is refused NOT_NOW where R83 says so. A hold-idle timer that does not stand at 0 has no run-out
(notes/assumptions/13.md), and an axis that is braked keeps the rate it shows (31.md): the model's choices. -/
def Obligations.BrakedAxesAreExamined : Prop :=
  (∀ (a : Axis) (ax : AxisId) (cfg : AxisConfig) (t : Target) (l : Link),
     let b := a.examine ax cfg t l
     (a.state ≠ .braked ∨ t.source = .none ∨ l.up = false ∨ l.report = none ∨
       (∃ r, l.report = some r ∧ r.ready ax = false) → b = a) ∧
     (∀ r, a.state = .braked → l.up = true → l.report = some r → r.ready ax = true →
       (t.source = .book ∨ t.source = .sweep ∨ t.source = .shed →
         b.state = .awaitingPower ∧ b.needNow = .slew ∧ b.c = a.c) ∧
       (∀ p : Int × Int, t.source = .stow → t.stow = some p → cfg.lmin ≤ cfg.lmax →
         let target := if ax = .az then p.1 else p.2
         let d := max cfg.lmin (min cfg.lmax target)
         let met := (cfg.lmin ≤ a.c ∧ a.c ≤ cfg.lmax) ∧ (d - a.c).natAbs ≤ cfg.window
         (met → b.state = .stowed ∧ b.needNow = .none ∧ b.c = a.c) ∧
         (¬ met → b.state = .awaitingPower ∧ b.needNow = .slew ∧ b.c = a.c)))) ∧
  (∀ (s : State) (st : StationId) (ax : AxisId),
     let x := s.station st
     let a := x.axis ax
     let braked := s.modAxis st ax (fun a => { a with
       state := .braked, reason := none, s := 0, hold := none, holdIdle := none,
       releaseCount := none, releaseSeen := none, releaseSource := none, errorRun := 0,
       limited := false, windFloor := false })
     let examined (x : Station) := x.modAxis ax (fun a =>
       let b : Axis := { a with
         state := .braked, reason := none, s := 0, hold := none, holdIdle := none,
         releaseCount := none, releaseSeen := none, releaseSource := none, errorRun := 0,
         limited := false, windFloor := false }
       b.examine ax (x.cfg.axis ax) x.target x.link)
     let changed := s.changeAxes settle st examined
     (a.state = .holding → a.holdIdle = some 0 →
       ∃ u, exec (.holdIdleExpiry st ax) s = .next (s.publish u) ∧ Settled braked u ∧
         u = changed.axesChanged settle st) ∧
     (a.state ≠ .holding ∨ a.holdIdle ≠ some 0 → exec (.holdIdleExpiry st ax) s = .next s) ∧
     ∀ (page : PageId) (target : BitVec 16) (axis : BitVec 8), s.exchange.inFlight = none →
       target.toNat = st.val → x.retired = false → axis.toNat = (if ax = .az then 0 else 1) →
       let refused := a.state ≠ .faulted ∨ x.link.up = false ∨ x.link.report = none ∨
         ∃ r, x.link.report = some r ∧ (r.ready ax = false ∨ r.limitSwitch ax = true)
       (refused → exec (.recoverAxis page target axis) s = .next (s.answer page .notNow [])) ∧
       (¬ refused → ∃ u, exec (.recoverAxis page target axis) s =
         .next (s.publish (u.answer page .done [])) ∧ Settled braked u ∧
         u = changed.ableToMove settle st))

/-- R72, R79, R80: at each expiry the release count of an axis in RELEASING rises by one, and the error run
count stands until the monitor judges it. At an expiry the monitor of a moving axis counts expiries in a row
beyond the error limit, and faults it at the tenth; an axis in RELEASING whose release is not reported faults
at its 50th expiry. The axis becomes FAULTED with the reason and stays so through all that follows, with class
AXIS latched; where the condition does not hold nothing happens. What follows is the claim, AXIS_FAULTS, the
abandonment of the station's sweep record, and the join of its zone's exposed set, in this order. An axis that
has been judged in RELEASING and whose release was seen before leaves by the table of R72, on the source at
the moment of the report (R75); that the latest report counts, and the granted level is that of the expiry, is
the model's reading (notes/assumptions/42.md); off source at granted level NONE it stays, its count held
(notes/assumptions/17.md). That the two faults are commands of their own is the model's choice
(notes/assumptions/14.md). -/
def Obligations.AxisMonitorsFault : Prop :=
  (∀ (a : Axis) (limit : Nat) (e : Int), a.error = some e →
    (e.natAbs ≤ limit → a.monitor limit = ({ a with errorRun := 0 }, false)) ∧
    (limit < e.natAbs → a.errorRun < 9 →
      a.monitor limit = ({ a with errorRun := a.errorRun + 1 }, false)) ∧
    (limit < e.natAbs → 9 ≤ a.errorRun → (a.monitor limit).2 = true)) ∧
  (∀ (x : Station) (z : Zone) (book : Option BookTarget) (t : Nat) (ax : AxisId),
    let a := x.axis ax
    let b := (x.computeAxis z book t ax).axis ax
    b.state = a.state ∧ b.errorRun = a.errorRun ∧
    (a.state = .releasing → b.releaseCount = a.releaseCount.map (fun n => n + 1)) ∧
    (a.state ≠ .releasing → b.releaseCount = a.releaseCount)) ∧
  (∀ (k : Settle) (s : State) (st : StationId) (ax : AxisId),
    let x := s.station st
    let a := x.axis ax
    let m := a.monitor (x.cfg.axis ax).errorLimit
    let judged := a.state = .releasing ∧ ∃ n, a.releaseCount = some n ∧ 0 < n
    (a.state.moving = false → s.monitorAxis k st ax = s) ∧
    (a.state.moving = true →
      (m.2 = true → s.monitorAxis k st ax = s.faultAxis k st ax .tracking) ∧
      (m.2 = false → s.monitorAxis k st ax = s.modAxis st ax (fun _ => m.1))) ∧
    (¬ judged → s.countRelease k st ax = s) ∧
    (judged → a.releaseSeen = some true →
      let goes (b : Axis) := s.countRelease k st ax = s.modAxis st ax (fun _ => b)
      let enters (to_ : AxisState) (hold : Option Int) (holdIdle : Timer) := goes { a with
        state := to_, reason := none, hold := hold, holdIdle := holdIdle, releaseCount := none,
        releaseSeen := none, releaseSource := none }
      let src := a.releaseSource.getD x.target.source
      (src = .stow → enters .stowing none none) ∧
      (src = .none → enters .holding (some a.c) (some (1000 * x.cfg.holdIdle))) ∧
      (src ≠ .stow → src ≠ .none →
        (a.onSource = some true → enters .tracking none none) ∧
        (a.onSource ≠ some true →
          (x.claim.grantedLevel = .slew → enters .slewing none none) ∧
          (x.claim.grantedLevel = .track → enters .catchingUp none none) ∧
          (x.claim.grantedLevel = .none →
            goes { a with releaseCount := a.releaseCount.map (fun n => min n 49) })))) ∧
    (judged → a.releaseSeen ≠ some true →
      (a.releaseCount.getD 0 < 50 → s.countRelease k st ax = s) ∧
      (50 ≤ a.releaseCount.getD 0 → s.countRelease k st ax = s.faultAxis k st ax .brake)) ∧
    ∀ r, s.faultAxis k st ax r = (((s.modAxis st ax (fun a => { a with
      state := .faulted, reason := some r, rate := 0, s := 0, hold := none, holdIdle := none,
      releaseCount := none, releaseSeen := none, releaseSource := none, errorRun := 0,
      limited := false, windFloor := false })).formClaim k st).bump (.axisFaults st)
        |>.abandon k st .fault).joinExposed k st .fault) ∧
  ∀ (s : State) (st : StationId) (ax : AxisId),
    let a := (s.station st).axis ax
    let faulted (r : AxisFault) := s.modAxis st ax (fun a => { a with
      state := .faulted, reason := some r, rate := 0, s := 0, hold := none, holdIdle := none,
      releaseCount := none, releaseSeen := none, releaseSource := none, errorRun := 0,
      limited := false, windFloor := false })
    let trips := a.state.moving = true ∧ 9 ≤ a.errorRun ∧
      ∃ e, a.error = some e ∧ ((s.station st).cfg.axis ax).errorLimit < e.natAbs
    let late := a.state = .releasing ∧ a.releaseSeen ≠ some true ∧ 49 ≤ a.releaseCount.getD 0
    let after (r : AxisFault) := (((faulted r).formClaim settle st).bump (.axisFaults st)
      |>.abandon settle st .fault).joinExposed settle st .fault
    (trips → ∃ u, exec (.trackingFault st ax) s = .next (s.publish u) ∧
      Settled (faulted .tracking) u ∧ u = after .tracking ∧ u.exchange.summary.getLsbD 3 = true) ∧
    (¬ trips → exec (.trackingFault st ax) s = .next s) ∧
    (late → ∃ u, exec (.brakeTimeout st ax) s = .next (s.publish u) ∧
      Settled (faulted .brake) u ∧ u = after .brake ∧ u.exchange.summary.getLsbD 3 = true) ∧
    (¬ late → exec (.brakeTimeout st ax) s = .next s)

/-- R7, R84, R145: each number of CONFIGURE_STATION is brought to the nearer end of its range, and the answer
says so where one was out of it; the five checks in order; a request that passes puts the whole clamped
configuration in place, moves the station between the member sets, and what follows is settled in the take:
the zone it leaves is tested, a zone that stows treats it as it treats a member, and a STOWED zone that would
wait for it enters STOWING; then its source, its claim, and WP's tests. Which numbers are read signed is the
model's inference (notes/assumptions/24.md). A STOWED axis stays STOWED at the take whatever the new source;
that it answers the next change of source by R75 (notes/assumptions/43.md) and that the shed order is not
judged at the take (54.md) are the model's readings. That the test of a STOWED new zone looks at the station's
axes after its source is decided and its BRAKED axes are examined is the model's choice
(notes/assumptions/48.md), and so is the one claim for both axes (16.md). -/
def Obligations.ConfigureStationChecksAndReplaces : Prop :=
  (∀ raw : RawStationConfig,
    let c := RawStation.config raw
    let carried (ax : AxisId) := if ax = .az then raw.az else raw.el
    let lo (ax : AxisId) : Int := if ax = .az then -270000000 else 0
    let hi (ax : AxisId) : Int := if ax = .az then 270000000 else 92000000
    (∀ ax, let r := carried ax
      let a := c.axis ax
      a.lmin = max (lo ax) (min (hi ax) r.lmin.toInt) ∧
      a.lmax = max (lo ax) (min (hi ax) r.lmax.toInt) ∧
      (a.vmax : Int) = max 0 (min 3000000 r.vmax.toInt) ∧ a.amax = min 2000000 r.amax.toNat ∧
      (a.errorLimit : Int) = max 1000 (min 1000000 r.errorLimit.toInt) ∧
      (a.window : Int) = max 0 (min 100000 r.window.toInt) ∧
      a.slewWatts = min 20000 r.slewWatts.toNat ∧ a.trackWatts = min 20000 r.trackWatts.toNat) ∧
    c.stowEl = max 0 (min 92000000 raw.stowEl.toInt) ∧
    c.shedEl = max 0 (min 92000000 raw.shedEl.toInt) ∧
    c.holdIdle = max 1 (min 3600 raw.holdIdle.toNat) ∧
    (raw.zone.toNat ≤ 3 → c.zone.val = raw.zone.toNat) ∧
    (let ref (b : BitVec 8) := if b = 0xFF then none else some b.toNat
     c.snow = ref raw.snow ∧ c.surface = ref raw.surface ∧ c.precip = ref raw.precip) ∧
    (RawStation.clamped raw = false ↔
      (∀ ax, let r := carried ax
        (lo ax ≤ r.lmin.toInt ∧ r.lmin.toInt ≤ hi ax) ∧
        (lo ax ≤ r.lmax.toInt ∧ r.lmax.toInt ≤ hi ax) ∧
        (0 ≤ r.vmax.toInt ∧ r.vmax.toInt ≤ 3000000) ∧ r.amax.toNat ≤ 2000000 ∧
        (1000 ≤ r.errorLimit.toInt ∧ r.errorLimit.toInt ≤ 1000000) ∧
        (0 ≤ r.window.toInt ∧ r.window.toInt ≤ 100000) ∧ r.slewWatts.toNat ≤ 20000 ∧
        r.trackWatts.toNat ≤ 20000) ∧
      (0 ≤ raw.stowEl.toInt ∧ raw.stowEl.toInt ≤ 92000000) ∧
      (0 ≤ raw.shedEl.toInt ∧ raw.shedEl.toInt ≤ 92000000) ∧
      1 ≤ raw.holdIdle.toNat ∧ raw.holdIdle.toNat ≤ 3600)) ∧
  (∀ (s : State) (page : PageId) (target : BitVec 16) (raw : RawStationConfig) (st : StationId),
    s.exchange.inFlight = none → target.toNat = st.val → (s.station st).retired = false →
    let x := s.station st
    let cfg := RawStation.config raw
    let admits (a : Axis) := a.state = .braked ∨ a.state = .stowed ∨ a.state = .faulted
    let badRef (b : BitVec 8) := b ≠ 0xFF ∧ 15 < b.toNat
    let bad := 3 < raw.zone.toNat ∨ badRef raw.snow ∨ badRef raw.surface ∨ badRef raw.precip
    let inconsistent := ∃ ax, (cfg.axis ax).lmax < (cfg.axis ax).lmin ∨
      (cfg.axis ax).slewWatts < (cfg.axis ax).trackWatts
    let outside := ∃ ax, (x.axis ax).state = .stowed ∧
      ((x.axis ax).c < (cfg.axis ax).lmin ∨ (cfg.axis ax).lmax < (x.axis ax).c)
    let refused (r : Result) :=
      exec (.configureStation page target raw) s = .next (s.answer page r [])
    (¬ (admits x.az ∧ admits x.el) → refused .notNow) ∧
    (admits x.az → admits x.el → bad ∨ inconsistent → refused .badValue) ∧
    (admits x.az → admits x.el → ¬ bad → ¬ inconsistent → outside → refused .notNow) ∧
    (admits x.az → admits x.el → ¬ bad → ¬ inconsistent → ¬ outside →
      let own := s.modStation st (fun x => { x with cfg := cfg })
      let moved := if x.cfg.zone = cfg.zone then own else
        (own.modZone x.cfg.zone (fun z => { z with
          members := z.members.filter (fun y => y != st),
          exposed := z.exposed.filter (fun e => e.1 != st) })).modZone cfg.zone
            (fun z => { z with members := insertStation st z.members })
      ∃ u, Settled moved u ∧
        u = (((own.moveMember settle st x.cfg.zone).redecideSource settle st).formClaim settle
          st).axesChanged settle st ∧ exec (.configureStation page target raw) s =
        .next (s.publish (u.answer page
          (if RawStation.clamped raw then .doneClamped else .done) [])))) ∧
  (∀ (k : Settle) (s : State) (st : StationId),
    let d := s.sourceOf st
    let x := s.station st
    let same := x.target.source = d.1 ∧ x.target.row = d.2
    (x.retired = true ∨ same → s.redecideSource k st = s) ∧
    (x.retired = false → ¬ same → s.redecideSource k st = s.changeAxes k st (fun x =>
      let answers (a : Axis) := if a.state = .stowed then a else
        a.answerSource d.1 d.2 x.cfg.holdIdle
      let y : Station := { x with target := x.retarget d.1 d.2, az := answers x.az,
                                  el := answers x.el }
      let examine (ax : AxisId) (y : Station) := y.modAxis ax (fun a =>
        a.examine ax (y.cfg.axis ax) y.target y.link)
      if d.1 = .none ∧ d.2 = 1 then y else examine .el (examine .az y)))) ∧
  ∀ (k : Settle) (s : State) (st : StationId) (old : ZoneId),
    let new := (s.station st).cfg.zone
    (old = new → s.moveMember k st old = s) ∧
    (old ≠ new →
      let left := (s.modZone old (fun z => { z with
        members := z.members.filter (fun y => y != st),
        exposed := z.exposed.filter (fun e => e.1 != st) })).stowedTest k old
      let joined := left.modZone new (fun z => { z with members := insertStation st z.members })
      let u := joined.stowMember k st
      let waits := (u.zone new).state = .stowed ∧
        ((u.station st).az.state ≠ .stowed ∨ (u.station st).el.state ≠ .stowed) ∧
        (u.zone new).exposedReason st = none
      ((joined.zone new).state.stows = false → s.moveMember k st old = joined) ∧
      ((joined.zone new).state.stows = true →
        (waits → s.moveMember k st old = u.enterStowing k new) ∧
        (¬ waits → s.moveMember k st old = u)))

/-! ### Track books -/

/-- R33, R44, R45: the checks of ARM_BOOK at its take and the validation it starts, which leaves the request
in flight; DISARM_BOOK makes the PENDING book IDLE; STOP_BOOK makes the RUNNING book IDLE and hands the change
to target selection, which decides the source again within the take (R50); that the source is decided before
the shed order is judged is the model's choice (notes/assumptions/39.md). -/
def Obligations.BookRequestsArmDisarmAndStop : Prop :=
  ∀ (s : State) (page : PageId) (target : BitVec 16) (st : StationId),
    s.exchange.inFlight = none → target.toNat = st.val → (s.station st).retired = false →
    (∀ (letter : BitVec 8) (number : BitVec 16) (l : Letter),
      letter.toNat = (if l = .a then 0 else 1) →
      let arm := Instr.armBook page target letter number
      (s.time.state = .unset → exec arm s = .next (s.answer page .timeUnset [])) ∧
      (s.time.state ≠ .unset → ((s.station st).book l).state = .running →
        exec arm s = .next (s.answer page .bookBusy [])) ∧
      (s.time.state ≠ .unset → ((s.station st).book l).state ≠ .running →
        ∃ t, exec arm s = .next t ∧ t.tallies = s.tallies ∧
          t.exchange = { s.exchange with
            inFlight := some { page := page, request := .armBook st } } ∧
          (∀ a, ¬ Layout.isOwn a → Memory.read t.mem a = Memory.read s.mem a) ∧
          t.blocks = (s.modStation st (fun x => { x with validation := some {
            letter := l, number := number.toNat, checked := 0,
            headerNumber := Memory.bookNumber s.mem st l,
            headerCount := Memory.pointCount s.mem st l, first := 0, previous := 0,
            timer := some 1 } })).blocks)) ∧
    ((s.station st).bookIn .pending = none →
      exec (.disarmBook page target) s = .next (s.answer page .notNow [])) ∧
    (∀ l, (s.station st).bookIn .pending = some l →
      ∃ t, exec (.disarmBook page target) s = .next t ∧ Answers page .done [] [] s t ∧
        t.blocks = (s.modBook st l (fun b => { b with state := .idle })).blocks) ∧
    ((s.station st).bookIn .running = none →
      exec (.stopBook page target) s = .next (s.answer page .notNow [])) ∧
    (∀ l, (s.station st).bookIn .running = some l → ∃ u,
      exec (.stopBook page target) s = .next (s.publish (u.answer page .done [])) ∧
      u = (s.modBook st l (fun b => { b with state := .idle, cursor := none })).inputChanged
        settle st ∧
      Settled (s.modBook st l (fun b => { b with state := .idle, cursor := none })) u ∧
      (s.noTable → ((u.station st).book l).state = .idle))

/-- R34: a group of points is checked in order of index, each for SPACING after the first of the book, then
AZ_RANGE, then EL_RANGE: the check gives the first failure, or the time of the last point. R34 to R36: one
completion event: the header before the first group, then up to 16 points; the first failure is answered with
its place and reason; a group that is not the last leaves the next one a millisecond away; the last is
followed by the two further checks and by the acceptance. A completion whose timer does not stand at 0 has no
effect (notes/assumptions/13.md). -/
def Obligations.ValidationChecksPointsInGroups : Prop :=
  (∀ (m : Mem) (st : StationId) (l : Letter) (n i : Nat) (previous : Option Nat),
     let p k := Memory.point m st l k
     let before k := if k = i then previous else some (p (k - 1)).time
     let spacing k := ∃ t, before k = some t ∧ ((p k).time < t + 20 ∨ t + 600000 < (p k).time)
     let az k := (p k).az < -270000000 ∨ 270000000 < (p k).az
     let el k := (p k).el < 0 ∨ 92000000 < (p k).el
     let good k := ¬ spacing k ∧ ¬ az k ∧ ¬ el k
     (∀ j r, Memory.checkPoints m st l n i previous = .error (j, r) ↔
       (i ≤ j ∧ j < i + n) ∧ (∀ k, i ≤ k → k < j → good k) ∧
       (spacing j ∧ r = .spacing ∨ ¬ spacing j ∧ az j ∧ r = .azRange ∨
         ¬ spacing j ∧ ¬ az j ∧ el j ∧ r = .elRange)) ∧
     (∀ last, Memory.checkPoints m st l n i previous = .ok last ↔
       (∀ k, i ≤ k → k < i + n → good k) ∧
       last = if n = 0 then previous else some (p (i + n - 1)).time)) ∧
  ((∀ (s : State), (∀ page st v, s.exchange.inFlight = some { page := page, request := .armBook st } →
       (s.station st).validation = some v → v.timer ≠ some 0) →
     exec .validationCompletion s = .next s) ∧
   ∀ (s : State) (page : PageId) (st : StationId) (v : Validation),
     s.exchange.inFlight = some { page := page, request := .armBook st } →
     (s.station st).validation = some v → v.timer = some 0 →
     let ended := s.modStation st (fun x => { x with validation := none })
     let miscounted := v.headerCount = 0 ∨ 128 < v.headerCount
     let wrong := v.headerNumber = 0 ∨ v.headerNumber ≠ v.number
     let size := min 16 (v.headerCount - v.checked)
     let points := Memory.checkPoints s.mem st v.letter size v.checked
       (if v.checked = 0 then none else some v.previous)
     let a (last : Option Nat) : Armed := {
       number := v.number, count := v.headerCount,
       first := if v.checked = 0 then Memory.pointTime s.mem st v.letter 0 else v.first,
       last := last.getD v.previous }
     let answers (r : Result) (data : List Byte) := ∃ t,
       exec .validationCompletion s = .next t ∧ t.blocks = ended.blocks ∧ Answers page r data [] s t
     (v.checked = 0 → miscounted → answers .bookInvalid [0xFF, 1]) ∧
     (v.checked = 0 → ¬ miscounted → wrong → answers .bookInvalid [0xFF, 2]) ∧
     (v.checked ≠ 0 ∨ ¬ miscounted ∧ ¬ wrong →
       (∀ i r, points = .error (i, r) → answers .bookInvalid
         [BitVec.ofNat 8 i, if r = .spacing then 3 else if r = .azRange then 4 else 5]) ∧
       (∀ last, points = .ok last → v.checked + size < v.headerCount → ∃ t,
         exec .validationCompletion s = .next t ∧ Counts [] s t ∧
         t.blocks = (s.modStation st (fun x => { x with validation := some { v with
           checked := v.checked + size, first := (a last).first,
           previous := (a last).last, timer := some 1 } })).blocks) ∧
       (∀ last, points = .ok last → v.headerCount ≤ v.checked + size →
         (((s.station st).book v.letter).state = .running → answers .bookBusy []) ∧
         (((s.station st).book v.letter).state ≠ .running → (a last).last ≤ s.time.time →
           answers .bookStale (Bytes.ofNat 6 (a last).last)) ∧
         (((s.station st).book v.letter).state ≠ .running → s.time.time < (a last).last →
           let other := ((s.station st).book v.letter.other).state = .pending
           ∃ t, exec .validationCompletion s = .next t ∧
             Answers page .done (Bytes.ofNat 1 (a last).count ++ Bytes.ofNat 6 (a last).first ++
               Bytes.ofNat 6 (a last).last) (if other then [.bookEvents st] else []) s t ∧
             t.blocks = (s.modStation st (fun x =>
               let x := if other then { x.modBook v.letter.other
                   (fun b => { b with state := .idle }) with
                 lastBook := some { kind := .superseded, letter := v.letter.other,
                                    time := s.time.time } } else x
               { x.modBook v.letter (fun _ => { state := .pending, armed := some (a last),
                                                cursor := none, fault := none }) with
                 validation := none })).blocks))))

/-- R39 to R41: the cursor search gives the last point at or before t from its start on, never past point n −
2; the RUNNING book read at an expiry becomes SPENT at t_last, supplies point 0 ahead of t₀, and else the two
points about t; a point that fails its check makes it FAULTED. -/
def Obligations.RunningBookIsReadByTheCursor : Prop :=
  (∀ (m : Mem) (st : StationId) (l : Letter) (t n fuel j : Nat), n ≤ fuel + j →
    let k := Memory.search m st l t n fuel j
    j ≤ k ∧ (j ≤ n - 2 → k ≤ n - 2) ∧
    (∀ i, j < i → i ≤ k → Memory.pointTime m st l i ≤ t) ∧
    (k + 1 ≤ n - 2 → t < Memory.pointTime m st l (k + 1))) ∧
  (∀ (s : State) (st : StationId),
    let x := s.station st
    (x.bookIn .running = none → s.readBook st = (s, none)) ∧
    ∀ l a c, x.bookIn .running = some l → (x.book l).armed = some a → (x.book l).cursor = some c →
      s.readBook st = s.readArmed st l a c) ∧
  ∀ (s : State) (st : StationId) (l : Letter) (a : Armed) (cursor : Nat × Nat),
    let t := s.time.time
    let r := s.readArmed st l a cursor
    let ends (kind : BookEventKind) (b : Book) := r.2 = none ∧
      (r.1.station st).book l = b ∧ Counts [.bookEvents st] s r.1 ∧
      (r.1.station st).lastBook = some { kind := kind, letter := l, time := t }
    let b := (s.station st).book l
    let faulted i e := ends .faulted { b with
      state := .faulted, cursor := none, fault := some (.point i, e) }
    let runs k c g := r = (s.modBook st l (fun b => { b with cursor := some (k, c) }), some g)
    let inRange (p : Point) := (-270000000 ≤ p.az ∧ p.az ≤ 270000000) ∧ 0 ≤ p.el ∧ p.el ≤ 92000000
    (a.last ≤ t → ends .spent { b with state := .spent, cursor := none }) ∧
    (t < a.last → t < a.first →
      let p := Memory.point s.mem st l 0
      (inRange p → p.time = a.first → runs 0 a.first (.fixed p)) ∧
      (inRange p → p.time ≠ a.first → faulted 0 .anchor) ∧
      (¬ inRange p → ∃ e, (e = .azRange ∨ e = .elRange) ∧ faulted 0 e)) ∧
    (t < a.last → a.first ≤ t →
      let k := Memory.search s.mem st l t a.count 128 (if cursor.2 ≤ t then cursor.1 else 0)
      let p := Memory.point s.mem st l k
      let q := Memory.point s.mem st l (k + 1)
      let from_ := inRange p ∧ (k = 0 → p.time = a.first) ∧ p.time ≤ t
      let spaced := p.time + 20 ≤ q.time ∧ q.time ≤ p.time + 600000
      let to_ := spaced ∧ t < q.time ∧ inRange q ∧ (k + 1 = a.count - 1 → q.time = a.last)
      (from_ → to_ → runs k p.time (.between p q)) ∧
      (¬ from_ → ∃ e, faulted k e) ∧
      (from_ → ¬ to_ → ∃ e, faulted (k + 1) e) ∧
      (from_ → ¬ spaced → faulted (k + 1) .spacing) ∧
      (from_ → spaced → q.time ≤ t → faulted (k + 1) .order))

/-! ### The feeder power budget -/

/-- R86 to R88: SET_BUDGET and a change of FEEDER_ALARM put their figures in place; where the budget in force
is the same nothing further happens, and else PB acts on it in the same event, after which the granted total
is within the budget in force. R97 to R99: the revocation takes HEAT grants whole, then the SLEW part of MOVE
grants, then MOVE grants whole, then STOW grants whole, each newest first and until the total fits: what each
taking does, and the order among them. R87, R100: one whole change of PB applies, revokes and runs the round
(a change that alters neither list runs none: notes/assumptions/9.md), raises its tallies in the order made,
and reports each changed grant once. That a grant which falls and rises within one change is reported once, at
the place of its first change, and that what is handed to PB in an event is settled from a list of work within
that event, are the model's choices (notes/assumptions/44.md, 6.md). -/
def Obligations.BudgetChangesAreSettled : Prop :=
  (∀ (now : Nat) (g : Grant) (r : PowerRun), Waiting.inOrder r.power.waiting →
    let p := r.power
    let claim := p.claim g.claimant
    let without := p.grants.filter (fun h => h.claimant != g.claimant)
    let taken (l : List Grant) (cls : ClaimClass) (addition : Nat) (kind : PowerKind) (watts : Nat)
        (t : Tally) : PowerRun := {
      power := { p with
        grants := l, waiting := Waiting.behind g.claimant cls addition p.waiting,
        last := some { kind := kind, claimant := g.claimant, watts := watts, time := now } },
      tallies := r.tallies ++ [t], touched := Claimant.once r.touched g.claimant }
    (∀ kind, r.shed now kind g = taken without .heat g.watts kind g.watts .sheds) ∧
    (claim.track ≠ 0 → r.revokeSlew now g = taken
      (p.grants.map (fun h => if h.claimant = g.claimant then { h with watts := claim.track } else h))
      .move (claim.wanted - claim.track) .slewPart (g.watts - claim.track) .revocations) ∧
    (claim.track = 0 → r.revokeSlew now g =
      taken without .move claim.wanted .slewPart g.watts .revocations) ∧
    ∀ kind, r.revokeWhole now kind g = taken without g.cls claim.wanted kind g.watts .revocations) ∧
  (∀ (act : Grant → PowerRun → PowerRun) (g : Grant) (rest : List Grant) (r : PowerRun),
    PowerRun.revokeStep act [] r = r ∧
    (r.power.total ≤ r.power.inForce → PowerRun.revokeStep act (g :: rest) r = r) ∧
    (r.power.inForce < r.power.total →
      PowerRun.revokeStep act (g :: rest) r = PowerRun.revokeStep act rest (act g r))) ∧
  (∀ (now : Nat) (r : PowerRun), Law.oneGrant r.power →
    let p := r.power
    let q := (r.revoke now).power
    let slew (g : Grant) := g.cls = .move ∧ (p.claim g.claimant).track < g.watts
    let of_ (cls : ClaimClass) (p : Power) :=
      (p.grants.filter (fun g => g.cls == cls)).map Grant.claimant
    (p.total ≤ p.inForce → r.revoke now = r) ∧ q.total ≤ q.inForce ∧ q.inForce = p.inForce ∧
    ((∃ g ∈ q.grants, g.cls = .heat) → ∀ g ∈ p.grants, g.cls ≠ .heat → g ∈ q.grants) ∧
    ((∃ g ∈ p.grants, slew g ∧ g ∈ q.grants) →
      ∀ g ∈ p.grants, g.cls = .stow ∨ g.cls = .move ∧ ¬ slew g → g ∈ q.grants) ∧
    ((∃ g ∈ q.grants, g.cls = .move) → ∀ g ∈ p.grants, g.cls = .stow → g ∈ q.grants) ∧
    (∀ cls, cls ≠ .move ∨ (∀ g ∈ p.grants, (p.claim g.claimant).track ≠ 0) →
      of_ cls q <+: of_ cls p) ∧
    ∀ g h, [g, h].Sublist p.grants → slew g → slew h → h ∈ q.grants → g ∈ q.grants) ∧
  (∀ (now : Nat) (w : Work) (p : Power),
    let start : PowerRun := { power := p, tallies := [], touched := [] }
    let r := p.change now w
    let ends (a : PowerRun) := (a.power.grants = p.grants → a.power.waiting = p.waiting → r = a) ∧
      (a.power.grants ≠ p.grants ∨ a.power.waiting ≠ p.waiting →
        r = PowerRun.round now a.power.turns a)
    (∀ st claim, w = .drive st claim → ends (start.takeDrive st claim)) ∧
    (∀ st area watts, w = .heat st area watts → ends (start.takeHeat st area watts)) ∧
    (∀ st area, w = .heatWithdraw st area → ends (start.dropHeat st area)) ∧
    (w = .budget → p.total ≤ p.inForce → r = PowerRun.round now p.turns start) ∧
    (w = .budget → p.inForce < p.total →
      r = PowerRun.round now (start.revoke now).power.turns (start.revoke now))) ∧
  (∀ (w : Work) (s : State),
    (∀ st, w = .awaiting st → State.deliver w s = s.judgeAwaiting Settle.later st) ∧
    ((∀ st, w ≠ .awaiting st) →
      let r := s.power.change s.time.time w
      State.deliver w s = eachOf r.touched (State.report Settle.later)
        (r.tallies.foldl State.bump { s with power := r.power })) ∧
    (s.work = [] → settle s = s ∧
      let t := State.deliver w s
      (t.work = [] → settle (s.leave w) = t))) ∧
  (∀ p : Power, p.inForce = if p.alarm then p.emergency else p.normal) ∧
  ∀ s : State,
    let acts (p : Power) (u : State) := u = settle ({ s with power := p }.leave .budget) ∧
      Settled ({ s with power := p }.leave .budget) u ∧
      (s.work = [] → Law.oneGrant p → u.power.total ≤ u.power.inForce)
    (∀ level : Bool,
      let p := { s.power with alarm := level }
      (p.inForce = s.power.inForce → ∃ t, exec (.feederAlarmChange level) s = .next t ∧
        t.blocks = { s.blocks with power := p } ∧ Counts [] s t) ∧
      (p.inForce ≠ s.power.inForce → ∃ u,
        exec (.feederAlarmChange level) s = .next (s.publish u) ∧ acts p u)) ∧
    ∀ (page : PageId) (normal emergency : BitVec 32), s.exchange.inFlight = none →
      let p := { s.power with
        normal := min 400000 normal.toNat, emergency := min 400000 emergency.toNat }
      let r : Result :=
        if 400000 < normal.toNat ∨ 400000 < emergency.toNat then .doneClamped else .done
      (p.inForce = s.power.inForce → ∃ t, exec (.setBudget page normal emergency) s = .next t ∧
        t.blocks = { s.blocks with power := p } ∧ Answers page r [] [] s t) ∧
      (p.inForce ≠ s.power.inForce → ∃ u,
        exec (.setBudget page normal emergency) s = .next (s.publish (u.answer page r [])) ∧
        acts p u)

/-- R90, R91, R95, R96: a granting round over a waiting list in serving order ends with the list empty or its
head not fitting, with no heat grant left where that head is a STOW claim; it keeps the order, the one entry
of each claimant and the budget, and takes no watts from a grant that is not HEAT. Turn by turn: a head that
fits leaves the waiting list and its grant rises by the addition in place, or joins the back of the grant
list; for a STOW head that does not fit the newest heat grant is shed, waits again at the back of rank 3, and
is recorded and counted; any other head ends the round. The one place of a claimant among the changed grants
is that of its first change (notes/assumptions/44.md). -/
def Obligations.GrantingRoundEndsStuck : Prop :=
  (∀ (now n : Nat) (r : PowerRun), Waiting.inOrder r.power.waiting →
    let p := r.power
    (p.waiting = [] → PowerRun.round now (n + 1) r = r) ∧
    ∀ w rest, p.waiting = w :: rest →
      let fits := p.total + w.addition ≤ p.inForce
      let holds := ∃ g ∈ p.grants, g.claimant = w.claimant
      let served (l : List Grant) := PowerRun.round now (n + 1) r = PowerRun.round now n { r with
        power := { p with grants := l, waiting := rest },
        touched := Claimant.once r.touched w.claimant }
      (fits → holds → served (p.grants.map (fun g => if g.claimant = w.claimant then
        { g with watts := g.watts + w.addition } else g))) ∧
      (fits → ¬ holds → served
        (p.grants ++ [{ claimant := w.claimant, cls := w.cls, watts := w.addition }])) ∧
      (∀ older g newer, ¬ fits → w.cls = .stow → p.grants = older ++ g :: newer → g.cls = .heat →
        (∀ h ∈ newer, h.cls ≠ .heat) →
        PowerRun.round now (n + 1) r = PowerRun.round now n {
          power := { p with
            grants := p.grants.filter (fun h => h.claimant != g.claimant),
            waiting := Waiting.behind g.claimant .heat g.watts p.waiting,
            last := some { kind := .shedForStow, claimant := g.claimant, watts := g.watts,
                           time := now } },
          tallies := r.tallies ++ [.sheds], touched := Claimant.once r.touched g.claimant }) ∧
      (¬ fits → w.cls ≠ .stow ∨ (∀ g ∈ p.grants, g.cls ≠ .heat) →
        PowerRun.round now (n + 1) r = r)) ∧
  ∀ (now : Nat) (p : Power), Law.oneGrant p →
    Waiting.inOrder p.waiting →
    let r := PowerRun.round now p.turns { power := p, tallies := [], touched := [] }
    (r.power.waiting = [] ∨ ∃ w rest, r.power.waiting = w :: rest ∧
      r.power.inForce < r.power.total + w.addition ∧
      (w.cls = .stow → ∀ g ∈ r.power.grants, g.cls ≠ .heat)) ∧
    Waiting.inOrder r.power.waiting ∧ Law.oneGrant r.power ∧
    (p.total ≤ p.inForce → r.power.total ≤ r.power.inForce) ∧
    (∀ g ∈ p.grants, g.cls ≠ .heat → ∃ h ∈ r.power.grants,
      h.claimant = g.claimant ∧ h.cls = g.cls ∧ g.watts ≤ h.watts) ∧
    (∀ t ∈ r.tallies, t = .sheds) ∧
    (r.power.normal = p.normal ∧ r.power.emergency = p.emergency ∧ r.power.alarm = p.alarm)

/-- R90: PB's law stands after every step that finds it standing: one grant entry for each claimant, and the
granted total within the budget in force, unless a budget change is still to be acted on: that an event keeps
what it has still to settle in a list of work, which no step leaves filled but past the model's bound of 4,096
pieces, is the model's choice (notes/assumptions/6.md). -/
def Obligations.EveryStepKeepsThePowerLaw : Prop :=
  ∀ s t : State, Law.power s → step s = .next t → Law.power t

/-! ### Joint slews -/

/-- R106, R107: with n entries ahead of the first marker, a snapshot fails as EMPTY where n is 0, and else at
the first entry that fails a check, with its index: ORDER, then ACTION, then the ranges of a GOTO target, AZ
before EL (that ORDER comes before ACTION and AZ_RANGE before EL_RANGE is the model's reading:
notes/assumptions/56.md); where all n pass, it holds them in the order of the table, the settle limits brought
to the nearer end of 1 to 600 seconds, and is marked clamped where the limit of a flagged entry was out of
range. R107, R108: the checks of LAUNCH_SWEEP in order; a launch that passes replaces the table record and
changes no other. -/
def Obligations.LaunchSweepChecksAndArmsTheTable : Prop :=
  (∀ (m : Mem) (t : TableId) (n : Nat),
     let raw (k : Nat) := Memory.entry m t k
     n ≤ 32 → (∀ k < n, (raw k).offset ≠ 65535) → n = 32 ∨ (raw n).offset = 65535 →
     let order (k : Nat) := ∃ i, k = i + 1 ∧ (raw k).offset < (raw i).offset
     let unnamed (k : Nat) := (raw k).action = 0 ∨ 5 < (raw k).action
     let az (k : Nat) := (raw k).action = 3 ∧ ((raw k).az < -270000000 ∨ 270000000 < (raw k).az)
     let el (k : Nat) := (raw k).action = 3 ∧ ((raw k).el < 0 ∨ 92000000 < (raw k).el)
     let good (k : Nat) := ¬ order k ∧ ¬ unnamed k ∧ ¬ az k ∧ ¬ el k
     let fails (k : Nat) (r : TableReason) := order k ∧ r = .order ∨
       ¬ order k ∧ unnamed k ∧ r = .action ∨ ¬ order k ∧ az k ∧ r = .azRange ∨
       ¬ order k ∧ ¬ az k ∧ el k ∧ r = .elRange
     (∀ j r, Memory.snapshot m t = .error (j, r) ↔
       n = 0 ∧ j = 0 ∧ r = .empty ∨ j < n ∧ fails j r ∧ ∀ k < j, good k) ∧
     (0 < n → (∀ k < n, good k) →
       ∃ (l : List SweepEntry) (clamped : Bool), Memory.snapshot m t = .ok (l, clamped) ∧
         l.length = n ∧
         (clamped = true ↔
           ∃ k < n, (raw k).settle = true ∧ ((raw k).limit < 1 ∨ 600 < (raw k).limit)) ∧
         ∀ (k : Nat) (e : SweepEntry), l[k]? = some e →
           e.offset = (raw k).offset ∧ e.stations = (raw k).stations ∧
           Code.action (raw k).action = some e.action ∧ e.az = (raw k).az ∧ e.el = (raw k).el ∧
           e.settle = (raw k).settle ∧ e.limit = max 1 (min 600 (raw k).limit))) ∧
  (∀ (s : State) (page : PageId) (target : BitVec 16) (source : BitVec 8) (start : BitVec 48)
       (timeout : BitVec 32) (x : TableId) (src : StartSource), s.exchange.inFlight = none →
     target.toNat = x.val → Code.startSource source.toNat = some src →
     let launch := Instr.launchSweep page target source start timeout
     let inUse := (s.table x).state = .armed ∨ (s.table x).state = .running ∨
       (s.table x).state = .settling
     let untimed := src = .atTime ∧ s.time.state = .unset
     (inUse → exec launch s = .next (s.answer page .sweepBusy [])) ∧
     (¬ inUse → untimed → exec launch s = .next (s.answer page .timeUnset [])) ∧
     (¬ inUse → ¬ untimed →
       (∀ f, Memory.snapshot s.mem x = .error f → exec launch s =
         .next (s.answer page .tableInvalid
           [BitVec.ofNat 8 f.1, BitVec.ofNat 8 (Code.ofTableReason f.2)])) ∧
       ∀ l clamped, Memory.snapshot s.mem x = .ok (l, clamped) →
         let limit := max 1 (min 3600 timeout.toNat)
         ∃ t, exec launch s = .next t ∧
           Answers page (if clamped = true ∨ limit ≠ timeout.toNat then .doneClamped else .done)
             [BitVec.ofNat 8 l.length] [] s t ∧
           t.blocks = (s.modTable x (fun _ => {
             state := .armed, snapshot := some l,
             launch := some { source := src, time := start.toNat, timeout := limit },
             strobe := if src = .strobe then some (1000 * limit) else none, startDue := false,
             late := false, sweepStart := none, next := 0, issues := 0, skips := 0, abandons := 0,
             timeouts := 0, ended := none })).blocks))

/-- R122: CANCEL_SWEEP of a table that is ARMED, RUNNING or SETTLING makes it CANCELLED with its end record,
counts SWEEP_ENDS, and what follows is settled in the take; of any other it is answered NOT_NOW. R119, R121: a
settle timer that runs out while the record is WAITING or MOVING in a run passes the record as SETTLED with
the mark and counts it in the table; a SETTLING table all of whose records are then through becomes DONE. At
either end the holds of the table are released in order of station number, the timers of its run stop, the end
record is set and SWEEP_ENDS counts it, before a table that is start due starts LATE (R111); both commands end
the table so. A settle timer that has not run out has none (notes/assumptions/13.md). The model's choices are
that a table is judged for its end as soon as a station is abandoned (50.md), that a hold beside a record that
is not live stands (55.md), and that a released hold reaches the source before the shed order (39.md). R118 to
R120: the judgement of a record at an expiry, by whether its station has begun and is on source, and the
abandonment of a live record, with its count and its hold cleared, at which the table is judged for its end. -/
def Obligations.SweepsEndByCancelAndBySettling : Prop :=
  (∀ (s : State) (page : PageId) (target : BitVec 16) (x : TableId), s.exchange.inFlight = none →
     target.toNat = x.val →
     let inUse := (s.table x).state = .armed ∨ (s.table x).state = .running ∨
       (s.table x).state = .settling
     (¬ inUse → exec (.cancelSweep page target) s = .next (s.answer page .notNow [])) ∧
     (inUse → ∃ u, exec (.cancelSweep page target) s =
         .next (s.publish (u.answer page .done [])) ∧
       u = s.cancelTable settle x true ∧
       Kept (fun _ => False) False (s.modTable x (fun y => { y with
         state := .cancelled, strobe := none, startDue := false,
         ended := some (.cancelled, s.time.time) })) u ∧
       u.exchange.summary.getLsbD 7 = true ∧
       ∀ st, (∀ h, (u.station st).hold = some h → h.table ≠ x) ∧
         ((u.station st).progress.table = some x → (u.station st).progress.timer = none))) ∧
  (∀ (s : State) (st : StationId),
     let p := (s.station st).progress
     let due (x : TableId) := p.table = some x ∧ p.timer = some 0 ∧
       (p.state = .waiting ∨ p.state = .moving) ∧
       ((s.table x).state = .running ∨ (s.table x).state = .settling)
     ((∀ x, ¬ due x) → exec (.settleTimeout st) s = .next s) ∧
     ∀ x, due x →
       let own := (s.modStation st (fun y => { y with progress := { y.progress with
         state := .settled, timer := none, mark := true } })).modTable x
           (fun y => { y with timeouts := y.timeouts + 1 })
       let through := ∀ y : StationId, (own.station y).progress.table = some x →
         (own.station y).progress.state = .notNamed ∨
         (own.station y).progress.state = .skipped ∨ (own.station y).progress.state = .abandoned ∨
         (own.station y).progress.state = .settled ∨
         (own.station y).progress.state = .moving ∧ (own.station y).progress.settle = false
       ((s.table x).state = .running ∨ ¬ through → ∃ t, exec (.settleTimeout st) s = .next t ∧
         Counts [] s t ∧ t.blocks = own.blocks) ∧
       ((s.table x).state = .settling → through →
         ∃ u, exec (.settleTimeout st) s = .next (s.publish u) ∧ u = own.judgeEnd settle 2 x ∧
           Kept (fun _ => False) False (own.modTable x (fun y => { y with
             state := .done, strobe := none, startDue := false,
             ended := some (.done, s.time.time) })) u ∧
           u.exchange.summary.getLsbD 7 = true)) ∧
  (∀ (k : Settle) (s : State) (x : TableId),
     let y := if x = 0 then 1 else 0
     let all := List.finRange 16
     let closes (state : TableState) (kind : EndKind) (u : State) := ∃ v w : State,
       v = eachOf all (fun st s =>
         if (s.station st).hold.any (fun h => h.table == x) then
           (s.modStation st (fun z => { z with hold := none })).inputChanged k st else s)
           (s.modTable x (fun t => { t with state := state, strobe := none, startDue := false })) ∧
       w = eachOf all (fun st s => s.modStation st (fun z => { z with
         progress := { z.progress with
           timer := if z.progress.table = some x then none else z.progress.timer } })) v ∧
       u = (w.modTable x (fun t => { t with ended := some (kind, w.time.time) })).bump .sweepEnds
     let late (u : State) := (u.table y).state = .armed ∧ (u.table y).startDue = true
     let ran := (s.table x).state = .running ∨ (s.table x).state = .settling
     let through := ∀ st : StationId, (s.station st).progress.table = some x →
       (s.station st).progress.state = .notNamed ∨ (s.station st).progress.state = .skipped ∨
       (s.station st).progress.state = .abandoned ∨ (s.station st).progress.state = .settled ∨
       (s.station st).progress.state = .moving ∧ (s.station st).progress.settle = false
     let ends := (s.table x).state = .settling ∧ through
     (∃ u, closes .cancelled .cancelled u ∧
       (ran → late u → s.cancelTable k x true = (u.beginTable k y true).judgeEnd k 2 y) ∧
       (¬ (ran ∧ late u) → s.cancelTable k x true = u) ∧ s.cancelTable k x false = u) ∧
     ∀ n, (¬ ends → s.judgeEnd k (n + 1) x = s) ∧
       (ends → ∃ u, closes .done .done u ∧
         (late u → s.judgeEnd k (n + 1) x = (u.beginTable k y true).judgeEnd k n y) ∧
         (¬ late u → s.judgeEnd k (n + 1) x = u))) ∧
  (∀ (k : Settle) (s : State) (st : StationId) (x : TableId),
     let z := s.station st
     let p := z.progress
     let own (q : Progress) := s.modStation st (fun z => { z with progress := q })
     let cleared (s : State) := if (s.station st).hold = none then s else
       (s.modStation st (fun z => { z with hold := none })).inputChanged k st
     let dropped (r : SweepReason) := cleared ((own { p with
       state := .abandoned, reason := some r, timer := none }).modTable x
         (fun t => { t with abandons := t.abandons + 1 }))
     let live := p.table = some x ∧ (p.state = .waiting ∨ p.state = .moving ∨ p.state = .settled) ∧
       ((s.table x).state = .running ∨ (s.table x).state = .settling)
     let past (a : Axis) := a.state ≠ .braked ∧ a.state ≠ .awaitingPower ∧ a.state ≠ .releasing
     let begun := z.claim.grantedLevel ≠ .none ∧ past z.az ∧ past z.el
     let onSource := ∀ ax, (z.axis ax).computed = true ∧ (z.axis ax).onSource = some true
     let untargeted := p.state = .waiting ∧ z.target.source = .none ∧ z.target.row = 7
     let moves := ¬ untargeted ∧ (p.state = .moving ∨ p.state = .waiting ∧ begun)
     (∀ r, (live → s.abandon k st r = (dropped r).judgeEnd k 2 x) ∧
       (p.table = none → s.abandon k st r = s) ∧
       (p.table = some x → ¬ live → s.abandon k st r = s)) ∧
     (p.table ≠ some x → s.judgeRecord k x st = s) ∧
     (p.table = some x →
       (untargeted → s.judgeRecord k x st = dropped .noTarget) ∧
       (moves → p.settle = true → onSource →
         s.judgeRecord k x st = own { p with state := .settled, timer := none }) ∧
       (moves → ¬ (p.settle = true ∧ onSource) →
         s.judgeRecord k x st = own { p with state := .moving }) ∧
       (¬ untargeted → ¬ moves → s.judgeRecord k x st = s)) ∧
     (((s.table x).state = .running ∨ (s.table x).state = .settling) → s.judgeTable k x =
       ((eachOf (List.finRange 16) (State.judgeRecord k x) s).judgeIssue k x).judgeEnd k 2 x))

/-- R109 to R112: a rising edge of SWEEP_STROBE starts a table that waits for it while the other does not run,
and makes it start due while the other runs; an edge that finds no table waiting does nothing; the edge stops
the strobe timer of a table that waits, whose start then arrives, T0's before T1's; a strobe timer that runs
out ends its ARMED table as EXPIRED. A taken pulse is the start of a table that waits for it, and an expiry
that of a table whose start time has come. Where two starts fall together the model takes that of T0 first
(DESIGN CHOICE, notes/assumptions/37.md): T1 becomes start due, or starts in its turn where T0 has ended at
once. R112 to R117: a table that starts is RUNNING from that array time with every record NOT_NAMED, and its
entries are issued while they are due and the entry before is through: each station of an entry in order of
number, the skip test first and then the action, with the engagement of a book as R43 gives it. That a table
which starts has start due cleared is the model's reading (notes/assumptions/57.md). The model's choices are
the entry, action and settle flag of a NOT_NAMED record (notes/assumptions/45.md), that the record is WAITING,
its timer runs and the issue is counted before the hold or the engagement is answered (46.md), that a book or
a hold that changes reaches the source before the shed order (39.md), and that a strobe timer which does not
stand at 0 has no run-out (13.md). -/
def Obligations.StrobeStartsOrExpiresTheTable : Prop :=
  (∀ (k : Settle) (s : State) (x : TableId),
    let y := if x = 0 then 1 else 0
    let now := s.time.time
    let waits := (s.table x).state = .armed ∧ (s.table x).startDue = false
    let other := (s.table y).state = .running ∨ (s.table y).state = .settling
    let source (l : StartSource) := ∃ a, (s.table x).launch = some a ∧ a.source = l ∧
      (l = .atTime → a.time ≤ now)
    (¬ waits → s.arriveStart k x = s) ∧
    (waits → other → s.arriveStart k x = s.modTable x (fun t => { t with startDue := true })) ∧
    (waits → ¬ other → s.arriveStart k x = (s.beginTable k x false).judgeEnd k 2 x) ∧
    (source .nextPulse → s.pulseTable k x = s.arriveStart k x) ∧
    (¬ source .nextPulse → s.pulseTable k x = s) ∧
    (source .atTime → s.arriveAtTime k x = s.arriveStart k x) ∧
    (¬ source .atTime → s.arriveAtTime k x = s) ∧
    (∀ late, s.beginTable k x late =
      (eachOf (List.finRange 16) (fun st s => s.modStation st (fun z => { z with
        progress := { table := some x, state := .notNamed, reason := none, entry := 0,
                      action := none, settle := false, timer := none, mark := false } }))
        (s.modTable x (fun t => { t with
          state := .running, startDue := false, late := late, sweepStart := some now,
          next := 0 }))).judgeIssue k x) ∧
    ((s.table x).state ≠ .running → s.judgeIssue k x = s) ∧
    ((s.table x).state = .running → s.judgeIssue k x =
      s.issueFrom k x (((s.table x).snapshot.getD []).drop (s.table x).next) (s.table x).next) ∧
    ∀ (n : Nat),
      s.issueFrom k x [] n = s.modTable x (fun t => { t with state := .settling }) ∧
      ∀ (e : SweepEntry) (l : List SweepEntry),
        let through (p : Progress) := p.state = .skipped ∨ p.state = .abandoned ∨
          p.state = .settled ∨ p.state = .moving ∧ p.settle = false
        let due := (∃ t, (s.table x).sweepStart = some t ∧ t + 100 * e.offset ≤ now) ∧
          ∀ st, let p := (s.station st).progress
            p.table = some x → p.state ≠ .notNamed → p.entry + 1 = n → through p
        (¬ due → s.issueFrom k x (e :: l) n = s) ∧
        (due → s.issueFrom k x (e :: l) n = State.issueFrom k x l (n + 1)
          ((eachOf ((List.finRange 16).filter (fun st => e.stations.getLsbD st.val))
            (State.issueTo k x n e) s).modTable x (fun t => { t with next := n + 1 })))) ∧
  (∀ (k : Settle) (s : State) (x : TableId) (n : Nat) (e : SweepEntry) (st : StationId),
    let z := s.station st
    let blown := (s.zone z.cfg.zone).state.stows = true
    let broken := z.az.state = .faulted ∨ z.el.state = .faulted
    let record (state : RecordState) (r : Option SweepReason) (timer : Timer) : Progress := {
      table := some x, state := state, reason := r, entry := n, action := some e.action,
      settle := e.settle, timer := timer, mark := false }
    let skipped (r : SweepReason) (s : State) := (s.modStation st (fun z => { z with
      progress := record .skipped (some r) none })).modTable x
        (fun t => { t with skips := t.skips + 1 })
    let issued (state : RecordState) := (s.modStation st (fun z => { z with
      progress := record state none
        (if e.settle = true ∧ state ≠ .settled then some (1000 * e.limit) else none) })).modTable x
        (fun t => { t with issues := t.issues + 1 })
    let held (s : State) (h : Option SweepHold) :=
      (s.modStation st (fun z => { z with hold := h })).inputChanged k st
    let acts := z.retired = false ∧ z.tags = [] ∧ ¬ blown ∧ ¬ broken
    let u := s.issueTo k x n e st
    (z.retired = true → u = skipped .retired s) ∧
    (z.retired = false → z.tags ≠ [] → u = skipped .locked s) ∧
    (z.retired = false → z.tags = [] → blown → u = skipped .wind s) ∧
    (z.retired = false → z.tags = [] → ¬ blown → broken → u = skipped .fault s) ∧
    (acts →
      (e.action = .goto →
        u = held (issued .waiting) (some { table := x, az := e.az, el := e.el })) ∧
      (e.action = .hold →
        u = held (issued .waiting) (some { table := x, az := z.az.c, el := z.el.c })) ∧
      (e.action = .release → z.hold = none → u = issued .settled) ∧
      (e.action = .release → z.hold ≠ none → u = held (issued .settled) none) ∧
      ∀ l, e.action = (match l with
          | Letter.a => Action.engageA
          | Letter.b => Action.engageB) →
        ((s.engage k st l).2 = false → u = skipped .book s) ∧
        ((s.engage k st l).2 = true → u = ((issued .waiting).engage k st l).1))) ∧
  (∀ (k : Settle) (s : State) (st : StationId) (l : Letter),
    let b := (s.station st).book l
    let r := s.engage k st l
    let gives (b : Book) : Book :=
      if b.state = .running then { b with state := .idle, cursor := none } else b
    let runs (b : Book) : Book :=
      { b with state := .running, cursor := b.armed.map (fun a => (0, a.first)), fault := none }
    let starts (s : State) : State := (s.modStation st (fun x =>
      { (x.modBook l.other gives).modBook l runs with
        lastBook := some { kind := .started, letter := l, time := s.time.time } })).bump
          (.bookEvents st)
    (b.state = .pending → r = ((starts s).inputChanged k st, true)) ∧
    (b.state = .running → r = (s, true)) ∧
    (b.state = .spent ∨ b.state = .faulted → r = (s, false)) ∧
    (b.state = .idle →
      (Memory.wholeBook s.mem st l = none → r = (s, false)) ∧
      ∀ a, Memory.wholeBook s.mem st l = some a → r =
        ((starts (s.modBook st l (fun b => { b with armed := some a }))).inputChanged k st,
          true)) ∧
    let count := Memory.pointCount s.mem st l
    let number := Memory.bookNumber s.mem st l
    let headed := (1 ≤ count ∧ count ≤ 128) ∧ number ≠ 0
    (¬ headed → Memory.wholeBook s.mem st l = none) ∧
    (∀ f, Memory.checkPoints s.mem st l count 0 none = .error f →
      Memory.wholeBook s.mem st l = none) ∧
    (∀ last, headed → Memory.checkPoints s.mem st l count 0 none = .ok (some last) →
      Memory.wholeBook s.mem st l = some {
        number := number, count := count, first := Memory.pointTime s.mem st l 0,
        last := last })) ∧
  (∀ s : State, (∀ n, s.time.sincePulse = some n → 500 ≤ n) →
    let waits (x : TableId) := (s.table x).state = .armed ∧ (s.table x).startDue = false ∧
      ∃ l, (s.table x).launch = some l ∧ l.source = .nextPulse
    let runs (x : TableId) := (s.table x).state = .running ∨ (s.table x).state = .settling
    let v := ({ s with time := { s.time with sincePulse := some 0 } }).pulseTime
    exec .sitePulse s =
      .next (s.publish ((v.pulseTable settle 0).pulseTable settle 1)) ∧
    v.blocks = { s.blocks with time := v.time } ∧
    ∀ t, exec .sitePulse s = .next t →
      (∀ x y : TableId, x ≠ y → waits x → runs y → (t.table x).state = .armed ∧
        (t.table x).startDue = true) ∧
      (∀ x y : TableId, x ≠ y → waits x → ¬ runs y → x = 0 ∨ ¬ waits y →
        (t.table x).state ≠ .armed ∧ (t.table x).sweepStart = some t.time.time ∧
        (t.table x).late = false) ∧
      (waits 0 → waits 1 →
        (t.table 1).state = .armed ∧ (t.table 1).startDue = true ∨
        (t.table 1).state ≠ .armed ∧ (t.table 1).late = false ∧ (t.table 0).state = .done)) ∧
  ∀ s : State,
    let waits (x : TableId) := (s.table x).state = .armed ∧ (s.table x).startDue = false ∧
      (s.table x).strobe ≠ none
    let runs (x : TableId) := (s.table x).state = .running ∨ (s.table x).state = .settling
    (∀ (k : Settle) (x : TableId),
      (waits x → s.strobe k x =
        (s.modTable x (fun x => { x with strobe := none })).arriveStart k x) ∧
      (¬ waits x → s.strobe k x = s)) ∧
    exec .sweepStrobe s = .next (s.publish ((s.strobe settle 0).strobe settle 1)) ∧
    (¬ waits 0 → ¬ waits 1 → exec .sweepStrobe s = .next s) ∧
    (∀ x y : TableId, x ≠ y → waits x → runs y → ∃ t, exec .sweepStrobe s = .next t ∧
      Counts [] s t ∧ t.blocks = (s.modTable x (fun x => { x with
        startDue := true, strobe := none })).blocks) ∧
    (∀ x y : TableId, x ≠ y → waits x → ¬ runs y → x = 0 ∨ ¬ waits y →
      ∃ u, exec .sweepStrobe s = .next (s.publish u) ∧ Apart s u ∧
        (u.table x).state ≠ .armed ∧ (u.table x).sweepStart = some s.time.time ∧
        (u.table x).late = false) ∧
    (waits 0 → waits 1 → ∃ u, exec .sweepStrobe s = .next (s.publish u) ∧
      ((u.table 1).state = .armed ∧ (u.table 1).startDue = true ∨
        (u.table 1).state ≠ .armed ∧ (u.table 1).late = false ∧ (u.table 0).state = .done)) ∧
    ∀ x : TableId,
      ((s.table x).state = .armed → (s.table x).strobe = some 0 →
        ∃ t, exec (.strobeTimeout x) s = .next t ∧ Counts [.sweepEnds] s t ∧
          t.blocks = (s.modTable x (fun x => { x with
            state := .expired, strobe := none,
            ended := some (.expired, s.time.time) })).blocks) ∧
      ((s.table x).state ≠ .armed ∨ (s.table x).strobe ≠ some 0 →
        exec (.strobeTimeout x) s = .next s)

/-! ### Weather sensing -/

/-- R129, R130, R132 to R134: a reply that is not good changes nothing; a good one marks its stage answered
and is taken by the stage's state: a seed, a sample, a first or second sample in FAULT, or the fault code.
R135: the three flags judged on the values f, x and b with the hysteresis h: HIGH stands from f ≥ high until f
< high − h, LOW from f ≤ low until f > low + h, GUST from x − b ≥ gust until x − b < gust − h; a flag without
a threshold is clear; GUST alone is what a recalibration judges. -/
def Obligations.GoodRepliesFeedTheirStage : Prop :=
  (∀ (g : Stage) (f x b : Int), g.f = some f → g.x = some x → g.b = some b →
    let j := g.judgeFlags
    let h : Int := g.cfg.hysteresis
    j = { g with high := j.high, low := j.low, gust := j.gust } ∧
    g.rejudgeGust = { g with gust := j.gust } ∧
    (g.cfg.high = none → j.high = false) ∧ (g.cfg.low = none → j.low = false) ∧
    (g.cfg.gust = none → j.gust = false) ∧
    (∀ v, g.cfg.high = some v →
      (g.high = false → (j.high = true ↔ v ≤ f)) ∧ (g.high = true → (j.high = false ↔ f < v - h))) ∧
    (∀ v, g.cfg.low = some v →
      (g.low = false → (j.low = true ↔ f ≤ v)) ∧ (g.low = true → (j.low = false ↔ v + h < f))) ∧
    ∀ v, g.cfg.gust = some v →
      (g.gust = false → (j.gust = true ↔ v ≤ x - b)) ∧
      (g.gust = true → (j.gust = false ↔ x - b < v - h))) ∧
  ∀ (s : State) (frame : Frame),
    let n := (frame.getD 1 0).toNat
    let x := Frame.sampleValue frame
    let good (g : Stage) := frame.length = 6 ∧ frame = Frame.seal (frame.take 4) ∧
      frame.getD 0 0 = s.sensing.pass ∧ s.sensing.stages[n]? = some g ∧ g.answered = false
    ((∀ g, ¬ good g) → exec (.sampleReply frame) s = .next s) ∧
    ∀ g, good g →
      let put (h : Stage) := ∃ t, exec (.sampleReply frame) s = .next t ∧ Counts [] s t ∧
        t.blocks = (s.modSensing (fun w => { w with stages := w.stages.set n h })).blocks
      let heard := { g with answered := true, missed := 0 }
      let seeded := Stage.judgeFlags { heard with
        state := .live, f := some x, b := some x, x := some x, skip := 0, freeze := 0,
        reseed := none, reason := none }
      (x ≠ -32768 → g.state = .unseeded → put seeded) ∧
      (∀ f, x ≠ -32768 → g.state = .live → g.f = some f →
        put (Stage.judgeFlags { heard with
          x := some x, f := some (f + (x - f) / (2 ^ g.cfg.kf : Int)) })) ∧
      (x ≠ -32768 → g.state = .fault → g.reseed = some 0 →
        put { heard with reseed := some 1, x := some x }) ∧
      (x ≠ -32768 → g.state = .fault → g.reseed = some 1 → put seeded) ∧
      (x = -32768 → g.state = .fault → put { heard with reseed := some 0 }) ∧
      (x = -32768 → g.state ≠ .fault → ∃ t, exec (.sampleReply frame) s = .next t ∧
        Counts [.stageFaults] s t ∧ t.blocks = (s.modSensing (fun w => { w with
          last := some { kind := .faultCode, stage := n, time := s.time.time },
          stages := w.stages.set n { heard with
            state := .fault, high := false, low := false, gust := false, skip := 0, freeze := 0,
            reseed := some 0, reason := some .faultCode } })).blocks)

/-- R131, R136, R137: the pass-end work of one stage: a stage in FAULT loses its reseed count where it was
missed; any other is missed, and faults at the third miss in a row; a LIVE stage that answered steps its
baseline every M passes, or counts frozen passes up to the forced recalibration. R142: these, and the entry
into the QUIET rate, as rows of their own: each happens where its condition stands, with its last sensing
event and its tally, and else nothing does. That these four act as commands of their own, where their
condition stands, is the model's choice (DESIGN CHOICE, notes/assumptions/14.md). -/
def Obligations.PassEndWorksEachStage : Prop :=
  (∀ g : Stage,
     let frozen := g.high = true ∨ g.gust = true
     let count := min 4095 (g.freeze + 1)
     (g.state = .fault → g.passEnd = ({ g with
       reseed := if g.answered then g.reseed else some 0 }, none)) ∧
     (g.state ≠ .fault → g.answered = false → g.missed < 2 →
       g.passEnd = ({ g with missed := g.missed + 1 }, none)) ∧
     (g.state ≠ .fault → g.answered = false → 2 ≤ g.missed →
       g.passEnd = ({ g with
         state := .fault, high := false, low := false, gust := false, missed := 0, skip := 0,
         freeze := 0, reseed := some 0, reason := some .misses }, some .misses)) ∧
     (g.state = .unseeded → g.answered = true → g.passEnd = (g, none)) ∧
     (g.state = .live → g.answered = true → ¬ frozen → g.skip + 1 < g.cfg.skip →
       g.passEnd = ({ g with skip := g.skip + 1, freeze := 0 }, none)) ∧
     (∀ f b, g.state = .live → g.answered = true → ¬ frozen → g.cfg.skip ≤ g.skip + 1 →
       g.f = some f → g.b = some b → g.passEnd = ({ g with
         b := some (b + (f - b) / (2 ^ g.cfg.ks : Int)), skip := 0, freeze := 0 }, none)) ∧
     (g.state = .live → g.answered = true → frozen →
       (g.cfg.freezeLimit = 0 ∨ count < g.cfg.freezeLimit →
         g.passEnd = ({ g with freeze := count }, none)) ∧
       (g.cfg.freezeLimit ≠ 0 → g.cfg.freezeLimit ≤ count → g.passEnd = (Stage.rejudgeGust
         { g with b := g.f, freeze := 0, skip := 0 }, some .recalibration)))) ∧
  (∀ s : State,
     let quiet := s.sensing.rate = .full ∧ 239 ≤ s.sensing.quietCount ∧
       (∀ g ∈ s.sensing.stages, g.high = false ∧ g.gust = false) ∧
       ∀ z, (s.zone z).state = .calm ∨ (s.zone z).state = .unwatched
     (quiet → ∃ t, exec .quietRateEntry s = .next t ∧ Counts [] s t ∧ t.blocks =
       (s.modSensing (fun w => { w with quietCount := 240, rate := .quiet })).blocks) ∧
     (¬ quiet → exec .quietRateEntry s = .next s) ∧
     ∀ i : StageId,
       let misses (g : Stage) := s.sensing.stages[i.val]? = some g ∧ g.state ≠ .fault ∧
         g.answered = false ∧ 2 ≤ g.missed
       let answered (g : Stage) := s.sensing.stages[i.val]? = some g ∧ g.state = .live ∧
         g.answered = true
       let steps (g : Stage) := answered g ∧ g.high = false ∧ g.gust = false ∧
         g.cfg.skip ≤ g.skip + 1
       let forced (g : Stage) := answered g ∧ (g.high = true ∨ g.gust = true) ∧
         g.cfg.freezeLimit ≠ 0 ∧ g.cfg.freezeLimit ≤ g.freeze + 1
       let put (i : Instr) (l : List Tally) (f : Sensing → Sensing) := ∃ t,
         exec i s = .next t ∧ Counts l s t ∧ t.blocks = (s.modSensing f).blocks
       ((∀ g, ¬ misses g) → exec (.stageMisses i) s = .next s) ∧
       (∀ g, misses g → put (.stageMisses i) [.stageFaults] (fun w => { w with
         last := some { kind := .misses, stage := i.val, time := s.time.time },
         stages := w.stages.set i.val { g with
           state := .fault, high := false, low := false, gust := false, missed := 0, skip := 0,
           freeze := 0, reseed := some 0, reason := some .misses } })) ∧
       ((∀ g, ¬ steps g) → exec (.baselineStep i) s = .next s) ∧
       (∀ g f b, steps g → g.f = some f → g.b = some b →
         put (.baselineStep i) [] (fun w => { w with stages := w.stages.set i.val { g with
           b := some (b + (f - b) / (2 ^ g.cfg.ks : Int)), skip := 0, freeze := 0 } })) ∧
       ((∀ g, ¬ forced g) → exec (.forcedRecalibration i) s = .next s) ∧
       (∀ g, forced g → put (.forcedRecalibration i) [.recalibrations] (fun w => { w with
         last := some { kind := .recalibration, stage := i.val, time := s.time.time },
         stages := w.stages.set i.val
           (Stage.rejudgeGust { g with b := g.f, freeze := 0, skip := 0 }) })))

/-- R127, R128, R131, R140, R142: one pass boundary: the work of every stage with its tallies, the rate, the
pending list loaded or refused with the answer, and the next pass with its requests. R143, R147 to R149, R168:
on the stages as that work left them every zone is judged for its weather, its blindness and its causes, then
every zone evaluated, then the auto demands and the shed order of every station judged. R140, R141: the list
in exchange memory is refused at the first record that fails, with its number and reason, KIND before CHANNEL
where it fails both (the model's reading, notes/assumptions/51.md), and else loaded with its numbers brought
to the nearer end of their ranges; a stage of the same number, channel and kind is carried with its flags
judged again, any other begins anew. Before the pass timer has run out nothing happens
(notes/assumptions/13.md). That HC takes the stations from S0 to S15, each with its two zones and then its
shed order, and that a region which shows no change is not written again, are the model's choices
(notes/assumptions/49.md, 47.md). -/
def Obligations.PassBoundaryEndsAndStartsAPass : Prop :=
  (∀ s : State,
    (s.sensing.timer ≠ 0 → exec .passBoundary s = .next s) ∧
    (s.sensing.timer = 0 → ∃ t, exec .passBoundary s = .next t ∧
      let w := s.sensing
      let v := t.sensing
      let worked := w.stages.map (fun g => g.passEnd.1)
      let quiet := (∀ g ∈ worked, g.high = false ∧ g.gust = false) ∧
        ∀ z, (s.zone z).state = .calm ∨ (s.zone z).state = .unwatched
      let raised (kind : SensingKind) :=
        BitVec.ofNat 16 (w.stages.filter (fun g => g.passEnd.2 == some kind)).length
      let kept := v.stages = worked.map (fun g => { g with answered := false })
      v.pass = w.pass + 1 ∧ (∀ g ∈ v.stages, g.answered = false) ∧
      v.requests.length = v.stages.length ∧
      (∀ (i : Nat) (g : Stage), v.stages[i]? = some g →
        v.requests[i]? = some (Frame.sampleRequest v.pass i g.cfg)) ∧
      (quiet → v.quietCount = min 240 (w.quietCount + 1) ∧
        (v.rate = .quiet ↔ w.rate = .quiet ∨ 239 ≤ w.quietCount)) ∧
      (¬ quiet → v.quietCount = 0 ∧ v.rate = .full) ∧
      v.timer = (if v.rate = .full then 250 else 2000) ∧
      t.tally .stageFaults = s.tally .stageFaults + (raised .misses + raised .faultCode) ∧
      t.tally .recalibrations = s.tally .recalibrations + raised .recalibration ∧
      (w.pendingCount = none → kept ∧ v.pendingCount = none ∧
        t.exchange.inFlight = s.exchange.inFlight ∧
        ∀ a, ¬ Layout.isOwn a → Memory.read t.mem a = Memory.read s.mem a) ∧
      (∀ n c page, w.pendingCount = some (n, c) → n ≤ 16 →
        s.exchange.inFlight = some { page := page, request := .configureSensing } →
        v.pendingCount = none ∧ t.exchange.inFlight = none ∧
        t.pageState page = PageState.answered ∧
        (∀ f, Memory.stageList s.mem n 0 = .error f → kept ∧
          Memory.nat t.mem (Layout.page page + 8) 4 = 4 ∧
          Memory.bytes t.mem (Layout.page page + 12) 16 = Status.region 16
            [BitVec.ofNat 8 f.1, if f.2 = .kind then 1 else 2]) ∧
        (∀ l d, Memory.stageList s.mem n 0 = .ok (l, d) → v.stages.map Stage.cfg = l ∧
          (∀ (i : Nat) (g : Stage), v.stages[i]? = some g →
            let carried (o : Stage) := worked[i]? = some o ∧ o.cfg.channel = g.cfg.channel ∧
              o.cfg.kind = g.cfg.kind
            (∀ o, carried o →
              let fitted := { o with cfg := g.cfg, skip := 0 }
              (o.state = .live → g = { fitted.judgeFlags with answered := false }) ∧
              (o.state ≠ .live → g = { fitted with answered := false })) ∧
            ((∀ o, ¬ carried o) → g = {
              cfg := g.cfg, state := .unseeded, f := none, b := none, x := none, high := false,
              low := false, gust := false, answered := false, missed := 0, skip := 0, freeze := 0,
              reseed := none, reason := none })) ∧
          Memory.nat t.mem (Layout.page page + 8) 4 = (if d || c then 1 else 0) ∧
          Memory.bytes t.mem (Layout.page page + 12) 16 = Status.region 16
            [BitVec.ofNat 8 l.length]) ∧
        ∀ a, ¬ Layout.isOwn a → ¬ Layout.isAnswer page a →
          Memory.read t.mem a = Memory.read s.mem a) ∧
      t = s.publish ((eachOf (List.finRange 16) (State.heatPassEnd settle)
        (eachOf (List.finRange 4) (State.evaluate settle true)
          (eachOf (List.finRange 4) (fun z s => s.modZone z (fun x => x.judgeWeather
            (x.cfg.stages.filterMap (fun n => s.usableStage n .windSpeed)))) s.passWork))).loadList
              |>.modSensing Sensing.startPass) ∧
      (let heard := s.modSensing (fun w => { w with stages := worked })
       (∀ z, let x := t.zone z
         let j := (s.zone z).judgeWeather
           ((s.zone z).cfg.stages.filterMap (fun n => heard.usableStage n .windSpeed))
         x.cfg = j.cfg ∧ x.speed = j.speed ∧ x.gust = j.gust ∧ x.gustStow = j.gustStow ∧
         x.blind = j.blind ∧ x.blindTimer = j.blindTimer ∧ x.order = j.order ∧
         x.causes = { speed := j.speed.any (fun v => decide ((j.cfg.stow : Int) ≤ v)),
                      gustStow := j.gustStow, blind := j.blind, site := s.lines.siteStow,
                      order := j.order }) ∧
       ∀ st area, let h := (s.station st).heater area
         let g := (t.station st).heater area
         (h.mode = .auto → (s.station st).retired = false →
           (g.auto, g.sensorMissing) = heard.autoDemand st area) ∧
         (h.mode ≠ .auto → g.auto = h.auto ∧ g.sensorMissing = h.sensorMissing)) ∧
      t.time = s.time ∧ t.lines = s.lines ∧ t.exchange.queue = s.exchange.queue ∧
      ∀ st, (t.station st).cfg = (s.station st).cfg ∧ (t.station st).tags = (s.station st).tags ∧
        (t.station st).link = (s.station st).link)) ∧
  (∀ (m : Mem) (n : Nat), n ≤ 16 →
    let byte (i k : Nat) := Memory.nat m (Layout.stage i + k) 1
    let word (i k : Nat) := Memory.nat m (Layout.stage i + k) 2
    let level (i bit k : Nat) :=
      if (byte i 5).testBit bit then some (Memory.int m (Layout.stage i + k) 2) else none
    let unnamed (i : Nat) := byte i 1 = 0 ∨ 5 < byte i 1
    let fails (i : Nat) (r : ListReason) := unnamed i ∧ r = .kind ∨
      ¬ unnamed i ∧ 15 < byte i 0 ∧ r = .channel
    let past (i : Nat) := 4 < byte i 2 ∨ byte i 3 < 2 ∨ 8 < byte i 3 ∨ byte i 4 < 1 ∨
      16 < byte i 4 ∨ 4095 < word i 6 ∨ 4095 < word i 8
    (∀ j r, Memory.stageList m n 0 = .error (j, r) ↔
      j < n ∧ fails j r ∧ ∀ i < j, ∀ r, ¬ fails i r) ∧
    ((∀ i < n, ∀ r, ¬ fails i r) → ∃ (l : List StageConfig) (d : Bool),
      Memory.stageList m n 0 = .ok (l, d) ∧ l.length = n ∧ (d = true ↔ ∃ i < n, past i) ∧
      ∀ (i : Nat) (c : StageConfig), l[i]? = some c →
        Code.stageKind (byte i 1) = some c.kind ∧ c = {
          channel := byte i 0, kind := c.kind, kf := min 4 (byte i 2),
          ks := max 2 (min 8 (byte i 3)), skip := max 1 (min 16 (byte i 4)),
          freezeLimit := min 4095 (word i 6), hysteresis := min 4095 (word i 8),
          high := level i 0 10, low := level i 1 12, gust := level i 2 14 })) ∧
  ∀ (k : Settle) (s : State) (st : StationId),
    s.heatPassEnd k st = ((s.judgeAuto k st .reflector).judgeAuto k st .feed).judgeShed k st ∧
    ∀ area, let h := (s.station st).heater area
      (h.mode ≠ .auto ∨ (s.station st).retired = true → s.judgeAuto k st area = s) ∧
      (h.mode = .auto → (s.station st).retired = false →
        let d := s.autoDemand st area
        let ends := h.auto = true ∧ h.state = .on ∧ h.meltOff = none
        s.judgeAuto k st area = s.changeCall k st area (fun h => { h with
          auto := d.1, sensorMissing := d.2,
          meltOff := if d.1 = true then none else if ends then some 600000 else h.meltOff }))

/-- R138 to R140: CONFIGURE_SENSING stores its clamped count and stays in flight; RECALIBRATE recalibrates
every LIVE stage and answers their number. -/
def Obligations.SensingRequestsPendOrRecalibrate : Prop :=
  ∀ (s : State) (page : PageId), s.exchange.inFlight = none →
    (∀ count : BitVec 8, ∃ t, exec (.configureSensing page count) s = .next t ∧
      t.blocks = (s.modSensing (fun w => { w with
        pendingCount := some (min 16 count.toNat, decide (16 < count.toNat)) })).blocks ∧
      t.exchange = { s.exchange with
        inFlight := some { page := page, request := .configureSensing } } ∧
      t.tallies = s.tallies ∧
      ∀ a, ¬ Layout.isOwn a → Memory.read t.mem a = Memory.read s.mem a) ∧
    (∃ t, exec (.recalibrate page) s = .next t ∧
      Answers page .done [BitVec.ofNat 8
        (s.sensing.stages.filter (fun g => g.state == .live)).length] [] s t ∧
      t.blocks = (s.modSensing (fun w => { w with stages := w.stages.map (fun g =>
        if g.state = .live then Stage.rejudgeGust { g with b := g.f, freeze := 0, skip := 0 }
        else g) })).blocks)

/-! ### Wind protection -/

/-- R149, R150, R151, R156, R161: the evaluation of a zone records the causes present and moves it by its
state: into STOWING on a cause, into RETURN_HOLD from STOWING or STOWED without one, between CALM and WATCH by
its weather, and in RETURN_HOLD at a pass end its hold timer starts again; what follows for its members is
settled in the same event. R151, R152: at the entry into STOWING each member in order of number is abandoned
by its sweep, its moving axes enter STOWING, its source is decided and its claim formed, and it joins the
exposed set where it cannot move; then the zone's event is set and counted and its stowed test made. That no
stowed test is made while the entry is under way is the model's reading (notes/assumptions/20.md); that the
shed orders of the members are judged from S0 on, once the entry is counted, is its choice (49.md), and so is
the moment at which a SETTLING table is judged for a member abandoned (50.md). -/
def Obligations.ZoneEvaluationFollowsItsCauses : Prop :=
  (∀ (k : Settle) (s : State) (st : StationId),
    let a := s.abandon k st .wind
    let stows (b : Axis) : Axis :=
      if b.state = .slewing ∨ b.state = .catchingUp ∨ b.state = .tracking ∨ b.state = .holding then
        { b with state := .stowing, reason := none, hold := none, holdIdle := none,
                 releaseCount := none, releaseSeen := none, releaseSource := none }
      else b
    let t := ((a.modStation st (fun x => { x with az := stows x.az, el := stows x.el })).decideSource
      k st).formClaim k st
    let x := t.station st
    let z := t.zone x.cfg.zone
    let locked := ∃ g ∈ x.tags, g.scope = .motion ∨ g.scope = .both
    let broken := x.az.state = .faulted ∨ x.el.state = .faulted
    let may := st ∈ z.members ∧ z.exposedReason st = none ∧
      (x.az.state ≠ .stowed ∨ x.el.state ≠ .stowed)
    let joined (r : ExposeReason) := t.modZone x.cfg.zone (fun z => { z with
      exposed := z.exposed ++ [(st, r)] })
    (may → locked → s.stowMember k st = joined .locked) ∧
    (may → ¬ locked → broken → s.stowMember k st = joined .fault) ∧
    (¬ may ∨ ¬ locked ∧ ¬ broken → s.stowMember k st = t)) ∧
  (∀ (k : Settle) (s : State) (z : ZoneId),
    let entered := { s with entering := some z }.modZone z (fun x => { x with
      state := .stowing, holdTimer := none, deadline := some (1000 * x.cfg.deadline) })
    let treated := eachOf (s.zone z).members (State.stowMember k) entered
    let noted := (treated.modZone z (fun x => { x with last := some {
      deadline := false, left := (s.zone z).state, entered := x.state, causes := x.causes,
      time := treated.time.time } })).bump (.zoneChanges z)
    s.enterStowing k z =
      { eachOf (noted.zone z).members (State.judgeShed k) noted with
        entering := s.entering }.stowedTest k z) ∧
  ∀ (s : State) (z : ZoneId) (passEnd : Bool),
    let x := s.zone z
    let u := s.evaluate settle passEnd z
    let speedAt (level : Nat) := ∃ v, x.speed = some v ∧ (level : Int) ≤ v
    let causes : Causes := {
      speed := x.speed.any (fun v => decide ((x.cfg.stow : Int) ≤ v)), gustStow := x.gustStow,
      blind := x.blind, site := s.lines.siteStow, order := x.order }
    let judged := s.modZone z (fun y => { y with causes := causes })
    let enters (to_ : ZoneState) (hold deadline : Timer) :=
      let noted := (judged.modZone z (fun y => { y with
        state := to_, holdTimer := hold, deadline := deadline,
        last := some { deadline := false, left := x.state, entered := to_, causes := causes,
                       time := s.time.time } })).bump (.zoneChanges z)
      Settled noted u ∧ u = eachOf x.members (State.judgeShed settle) noted
    (causes.any = true →
      (x.state = .stowing ∨ x.state = .stowed → u = judged) ∧
      (x.state ≠ .stowing → x.state ≠ .stowed → Settled (judged.modZone z (fun y => { y with
        state := .stowing, holdTimer := none, deadline := some (1000 * y.cfg.deadline) })) u ∧
        u = judged.enterStowing settle z ∧ u.exchange.summary.getLsbD 9 = true)) ∧
    (causes.any = false →
      (x.state = .unwatched → u = judged) ∧
      (x.state = .stowing ∨ x.state = .stowed →
        enters .returnHold (some (1000 * x.cfg.returnHold)) none) ∧
      (x.state = .calm → speedAt x.cfg.watch ∨ x.gust = true →
        enters .watch x.holdTimer x.deadline) ∧
      (x.state = .calm → ¬ speedAt x.cfg.watch → x.gust = false → u = judged) ∧
      (x.state = .watch → (∃ v, x.speed = some v ∧ v < (x.cfg.release : Int)) → x.gust = false →
        enters .calm x.holdTimer x.deadline) ∧
      (x.state = .watch → x.speed = none ∨ speedAt x.cfg.release ∨ x.gust = true → u = judged) ∧
      (x.state = .returnHold → passEnd = true → speedAt x.cfg.release →
        u = judged.modZone z (fun y => { y with
          holdTimer := some (1000 * x.cfg.returnHold) })) ∧
      (x.state = .returnHold → passEnd = false ∨ ¬ speedAt x.cfg.release → u = judged))

/-- R148, R159, R160: STOW_ZONE and RELEASE_ZONE set and clear the stow order flag, the blind timer's run-out
sets blind, and a change of SITE_STOW changes a cause of every zone; each zone concerned is then evaluated. A
zone with a stow cause is then STOWING or STOWED. R149, R150, R156: after a fall of SITE_STOW a zone with
another cause goes on stowing, and one without goes by its state and weather. The blind timer that does not
stand at 0 has no run-out (notes/assumptions/13.md). -/
def Obligations.ZoneOrdersAndLinesEvaluate : Prop :=
  (∀ (s : State) (page : PageId) (target : BitVec 16) (z : ZoneId), s.exchange.inFlight = none →
    target.toNat = z.val →
    let run (i : Instr) (order : Bool) (u : State) :=
      u = (s.modZone z (fun x => { x with order := order })).evaluate settle false z ∧
      exec i s = .next (s.publish (u.answer page .done
        [BitVec.ofNat 8 (Code.ofZoneState (u.zone z).state)])) ∧
      (u.zone z).order = order ∧
      ((u.zone z).causes.any = true →
        (u.zone z).state = .stowing ∨ (u.zone z).state = .stowed)
    (∃ u, run (.stowZone page target) true u ∧
      ((u.zone z).state = .stowing ∨ (u.zone z).state = .stowed)) ∧
    ∃ u, run (.releaseZone page target) false u) ∧
  (∀ (s : State) (z : ZoneId),
    ((s.zone z).blindTimer ≠ some 0 → exec (.blindTimerExpiry z) s = .next s) ∧
    ((s.zone z).blindTimer = some 0 → ∃ u, exec (.blindTimerExpiry z) s = .next (s.publish u) ∧
      u = (s.modZone z (fun x => { x with blindTimer := none, blind := true })).evaluate
        settle false z ∧ (u.zone z).blind = true ∧ (u.zone z).blindTimer = none ∧
      ((u.zone z).state = .stowing ∨ (u.zone z).state = .stowed))) ∧
  (∀ (s : State) (level : Bool),
    (s.lines.siteStow = level → exec (.siteStowChange level) s = .next s) ∧
    (s.lines.siteStow ≠ level → ∃ u, exec (.siteStowChange level) s = .next (s.publish u) ∧
      u = eachOf (List.finRange 4) (State.evaluate settle false)
        { s with lines := { s.lines with siteStow := level } } ∧
      u.lines = { s.lines with siteStow := level } ∧ u.time = s.time ∧ u.sensing = s.sensing ∧
      (∀ a, ¬ Layout.isOwn a → Memory.read u.mem a = Memory.read s.mem a) ∧
      ∀ z, (u.zone z).causes.site = level ∧ (u.zone z).cfg = (s.zone z).cfg ∧
        (level = true → (u.zone z).state = .stowing ∨ (u.zone z).state = .stowed) ∧
        (level = false → (u.zone z).causes.any = true →
          (u.zone z).state = .stowing ∨ (u.zone z).state = .stowed) ∧
        (level = false → (u.zone z).causes.any = false →
          let x := s.zone z
          let speedAt (level : Nat) := ∃ v, x.speed = some v ∧ (level : Int) ≤ v
          let rises := speedAt x.cfg.watch ∨ x.gust = true
          let falls := (∃ v, x.speed = some v ∧ v < (x.cfg.release : Int)) ∧ x.gust = false
          (x.state = .stowing ∨ x.state = .stowed → (u.zone z).state = .returnHold) ∧
          (x.state = .returnHold ∨ x.state = .unwatched → (u.zone z).state = x.state) ∧
          (x.state = .calm → (u.zone z).state = if rises then .watch else .calm) ∧
          (x.state = .watch → (u.zone z).state = if falls then .calm else .watch))))

/-- R154, R155, R157, R161: the deadline run-out of a STOWING zone exposes every member that is neither stowed
nor exposed, and the zone becomes STOWED; the hold run-out of a zone in RETURN_HOLD returns it by its weather
with no member exposed; what follows for the members is settled in the same event. R153, R155: a tag or a
fault puts a member of a stowing zone that is not stowed into the exposed set, once and with its first reason;
a member that is stowed leaves it, and so does one with the reason LOCKED or FAULT that is able to move; after
each the zone is tested: a STOWING zone whose members outside the set are all stowed becomes STOWED, a STOWED
one with such a member that is not stowed enters STOWING again. That no stowed test is made while the entry
into STOWING is under way, the premise of the deadline clause as well, is the model's reading (DEDUCED,
notes/assumptions/20.md); the order of the members' shed orders and the timers that do not stand at 0 are its
choices (49.md, 13.md). -/
def Obligations.ZoneTimersStowAndReturn : Prop :=
  (∀ (k : Settle) (s : State) (z : ZoneId),
    let x := s.zone z
    let passes := ∀ st ∈ x.members, x.exposedReason st ≠ none ∨
      (s.station st).az.state = .stowed ∧ (s.station st).el.state = .stowed
    let arrives := x.state = .stowing ∧ s.entering ≠ some z ∧ passes
    let again := x.state = .stowed ∧ ¬ passes
    let moved := s.modZone z (fun y => { y with state := .stowed, deadline := none })
    let noted := (moved.modZone z (fun y => { y with last := some {
      deadline := false, left := .stowing, entered := .stowed, causes := y.causes,
      time := s.time.time } })).bump (.zoneChanges z)
    (arrives → s.stowedTest k z = eachOf (noted.zone z).members (State.judgeShed k) noted) ∧
    (¬ arrives → s.stowedTest k z = s) ∧ (again → s.testZone k z = s.enterStowing k z) ∧
    (¬ again → s.testZone k z = s.stowedTest k z)) ∧
  (∀ (k : Settle) (s : State) (st : StationId),
    let x := s.station st
    let n := x.cfg.zone
    let z := s.zone n
    let stowed := x.az.state = .stowed ∧ x.el.state = .stowed
    let joins := st ∈ z.members ∧ z.exposedReason st = none ∧ ¬ stowed
    let left := s.modZone n (fun z => { z with exposed := z.exposed.filter (fun e => e.1 != st) })
    let able := (∀ t ∈ x.tags, t.scope ≠ .motion ∧ t.scope ≠ .both) ∧ x.az.state ≠ .faulted ∧
      x.el.state ≠ .faulted
    let freed := able ∧ (z.exposedReason st = some .locked ∨ z.exposedReason st = some .fault)
    (∀ r, (joins → s.expose st r = s.modZone n (fun z => { z with
        exposed := z.exposed ++ [(st, r)] })) ∧ (¬ joins → s.expose st r = s) ∧
      (z.state.stows = true → s.joinExposed k st r = (s.expose st r).testZone k n) ∧
      (z.state.stows = false → s.joinExposed k st r = s)) ∧
    (stowed → s.axesChanged k st = left.testZone k n) ∧
    (¬ stowed → s.axesChanged k st = s.testZone k n) ∧
    (freed → s.ableToMove k st = left.axesChanged k st) ∧
    (¬ freed → s.ableToMove k st = s.axesChanged k st)) ∧
  ∀ (s : State) (z : ZoneId),
    let x := s.zone z
    let late := x.state = .stowing ∧ x.deadline = some 0
    let returns := x.state = .returnHold ∧ x.holdTimer = some 0
    let stowed (st : StationId) := (s.station st).az.state = .stowed ∧
      (s.station st).el.state = .stowed
    (¬ late → exec (.stowDeadlineExpiry z) s = .next s) ∧
    (late → s.entering ≠ some z → x.members.Nodup →
      (∀ st ∈ x.members, (s.station st).cfg.zone = z) →
      let joiners := x.members.filter (fun st =>
        (x.exposedReason st).isNone && !decide (stowed st))
      let exposed := s.modZone z (fun y => { y with
        deadline := none, exposed := y.exposed ++ joiners.map (fun st => (st, .deadline)),
        last := if joiners = [] then y.last else some {
          deadline := true, left := .stowing, entered := .stowing, causes := y.causes,
          time := s.time.time } })
      ∃ u, exec (.stowDeadlineExpiry z) s = .next (s.publish u) ∧
        u = (if joiners = [] then exposed else exposed.bump (.exposures z)).stowedTest settle z ∧
        u.tally (.exposures z) = s.tally (.exposures z) + (if joiners = [] then 0 else 1) ∧
        u.exchange.summary.getLsbD 9 = true ∧
        ((u.zone z).state = .stowing ∨ (u.zone z).state = .stowed) ∧
        ∃ v, Settled v u ∧ v.blocks = (s.modZone z (fun y => { y with
          state := .stowed, deadline := none,
          exposed := y.exposed ++ joiners.map (fun st => (st, .deadline)),
          last := some { deadline := false, left := .stowing, entered := .stowed,
                         causes := y.causes, time := s.time.time } })).blocks) ∧
    (¬ returns → exec (.returnHoldExpiry z) s = .next s) ∧
    (returns →
      let to_ : ZoneState := if x.cfg.stages = [] then .unwatched
        else if x.speed = none ∨ x.gust = true ∨
          x.speed.any (fun v => decide ((x.cfg.watch : Int) ≤ v)) = true then .watch else .calm
      ∃ v u, exec (.returnHoldExpiry z) s = .next (s.publish u) ∧
        let left := s.modZone z (fun y => { y with
          state := to_, holdTimer := none, exposed := [] })
        let noted := (v.modZone z (fun y => { y with
          last := some { deadline := false, left := .returnHold, entered := to_,
                         causes := x.causes, time := s.time.time } })).bump (.zoneChanges z)
        Settled left v ∧ v = eachOf x.members (State.decideSource settle) left ∧
        Settled noted u ∧ u = eachOf x.members (State.judgeShed settle) noted)

/-- R7, R146 to R149: each number of CONFIGURE_ZONE is brought to the nearer end of its range, a stage listed
twice is kept once, and the answer says so where a number was out of range; the weather judgement and the
blind judgement on the live wind stages; the checks of the request; one that passes puts the clamped
configuration in place, judges the weather and the blind timer from the stages as they stand, evaluates the
zone, and then takes an UNWATCHED zone that has stages to CALM and on by its weather, and a zone in CALM or
WATCH that has none to UNWATCHED. R150, R161: without a stow cause, the state that the take ends in, how often
it counts ZONE_CHANGES, its timers and its last event. That the watch, stow, release and gust stow levels are
read unsigned is the model's inference (notes/assumptions/24.md), and that a stage listed twice keeps its
first place is its choice (52.md). The shed orders of the members are judged after each change of state is
counted (notes/assumptions/49.md). -/
def Obligations.ConfigureZoneReplacesAndEvaluates : Prop :=
  (∀ raw : RawZoneConfig,
    let c := RawZone.config raw
    let listed := [raw.stage0.toNat, raw.stage1.toNat, raw.stage2.toNat, raw.stage3.toNat].take
      raw.count.toNat
    c = { stages := listed.foldl (fun l n => if n ∈ l then l else l ++ [n]) [],
          watch := min 32767 raw.watch.toNat, stow := min 32767 raw.stow.toNat,
          release := min 32767 raw.release.toNat,
          gustStow := max 1 (min 32767 raw.gustStow.toNat),
          returnHold := max 60 (min 7200 raw.returnHold.toNat),
          deadline := max 30 (min 1800 raw.deadline.toNat),
          blindTimeout := max 1 (min 600 raw.blindTimeout.toNat),
          floor := max 0 (min 92000000 raw.floor.toInt) } ∧
    (RawZone.clamped raw = false ↔ raw.watch.toNat ≤ 32767 ∧ raw.stow.toNat ≤ 32767 ∧
      raw.release.toNat ≤ 32767 ∧ (1 ≤ raw.gustStow.toNat ∧ raw.gustStow.toNat ≤ 32767) ∧
      (60 ≤ raw.returnHold.toNat ∧ raw.returnHold.toNat ≤ 7200) ∧
      (30 ≤ raw.deadline.toNat ∧ raw.deadline.toNat ≤ 1800) ∧
      (1 ≤ raw.blindTimeout.toNat ∧ raw.blindTimeout.toNat ≤ 600) ∧
      0 ≤ raw.floor.toInt ∧ raw.floor.toInt ≤ 92000000)) ∧
  (∀ (z : Zone) (live : List Stage),
    let j := z.judgeWeather live
    let starts := z.cfg.stages ≠ [] ∧ live = []
    j = { z with speed := j.speed, gust := j.gust, gustStow := j.gustStow, blind := j.blind,
                 blindTimer := j.blindTimer } ∧
    (j.speed = none ↔ ∀ g ∈ live, g.f = none) ∧
    (∀ v, j.speed = some v ↔
      (∃ g ∈ live, g.f = some v) ∧ ∀ g ∈ live, ∀ w, g.f = some w → w ≤ v) ∧
    (j.gust = true ↔ ∃ g ∈ live, g.gust = true) ∧
    (j.gustStow = true ↔ ∃ g ∈ live, ∃ x b, g.x = some x ∧ g.b = some b ∧
      (z.cfg.gustStow : Int) ≤ x - b) ∧
    (starts → j.blind = z.blind ∧
      (z.blind = false → z.blindTimer = none → j.blindTimer = some (1000 * z.cfg.blindTimeout)) ∧
      (z.blind = true ∨ z.blindTimer ≠ none → j.blindTimer = z.blindTimer)) ∧
    (¬ starts → j.blind = false ∧ j.blindTimer = none)) ∧
  (∀ (s : State) (n : Nat) (kind : StageKind) (g : Stage), s.usableStage n kind = some g ↔
    s.sensing.stages[n]? = some g ∧ g.state = .live ∧ g.cfg.kind = kind) ∧
  ∀ (s : State) (page : PageId) (target : BitVec 16) (raw : RawZoneConfig) (z : ZoneId),
    s.exchange.inFlight = none → target.toNat = z.val →
    let cfg := RawZone.config raw
    let listed := [raw.stage0.toNat, raw.stage1.toNat, raw.stage2.toNat, raw.stage3.toNat].take
      raw.count.toNat
    let bad := 4 < raw.count.toNat ∨ ∃ n ∈ listed, 15 < n
    let ordered := cfg.release ≤ cfg.watch ∧ cfg.watch ≤ cfg.stow
    (bad ∨ ¬ ordered →
      exec (.configureZone page target raw) s = .next (s.answer page .badValue [])) ∧
    (¬ bad → ordered → ∃ u : State, exec (.configureZone page target raw) s =
        .next (s.publish (u.answer page (if RawZone.clamped raw then .doneClamped else .done)
          [BitVec.ofNat 8 (Code.ofZoneState (u.zone z).state)])) ∧
      let judged := { s.zone z with cfg := cfg }.judgeWeather (cfg.stages.filterMap
        (fun n => s.usableStage n .windSpeed))
      let evaluated := (s.modZone z (fun _ => judged)).evaluate settle false z
      let moves (to_ : ZoneState) (v : State) : State :=
        let noted := (v.modZone z (fun y => { y with
          state := to_,
          last := some { deadline := false, left := (v.zone z).state, entered := to_,
                         causes := y.causes, time := v.time.time } })).bump (.zoneChanges z)
        eachOf (noted.zone z).members (State.judgeShed settle) noted
      let e := (evaluated.zone z).state
      let windy := (∃ v, judged.speed = some v ∧ (cfg.watch : Int) ≤ v) ∨ judged.gust = true
      let stilled := (∃ v, judged.speed = some v ∧ v < (cfg.release : Int)) ∧ judged.gust = false
      (e = .unwatched → cfg.stages ≠ [] → windy → u = moves .watch (moves .calm evaluated)) ∧
      (e = .unwatched → cfg.stages ≠ [] → ¬ windy → u = moves .calm evaluated) ∧
      (e = .calm ∨ e = .watch → cfg.stages = [] → u = moves .unwatched evaluated) ∧
      (e = .stowing ∨ e = .stowed ∨ e = .returnHold ∨ e = .unwatched ∧ cfg.stages = [] ∨
        (e = .calm ∨ e = .watch) ∧ cfg.stages ≠ [] → u = evaluated) ∧
      (u.zone z).cfg = cfg ∧ (u.zone z).speed = judged.speed ∧ (u.zone z).gust = judged.gust ∧
      (u.zone z).gustStow = judged.gustStow ∧ (u.zone z).blind = judged.blind ∧
      (u.zone z).blindTimer = judged.blindTimer ∧ (u.zone z).order = (s.zone z).order ∧
      (u.zone z).causes = judged.causesNow s.lines.siteStow ∧
      ((u.zone z).causes.any = true →
        (u.zone z).state = .stowing ∨ (u.zone z).state = .stowed) ∧
      ((u.zone z).causes.any = false →
        ((s.zone z).state.stows = true → (u.zone z).state = .returnHold) ∧
        ((s.zone z).state.stows = false → cfg.stages = [] → (u.zone z).state = .unwatched) ∧
        let old := s.zone z
        let ends (to_ left : ZoneState) (changes : BitVec 16) (hold deadline : Timer) :=
          (u.zone z).state = to_ ∧
          u.tally (.zoneChanges z) = s.tally (.zoneChanges z) + changes ∧
          (u.zone z).holdTimer = hold ∧ (u.zone z).deadline = deadline ∧
          (u.zone z).last = if changes = 0 then old.last else some {
            deadline := false, left := left, entered := to_, causes := (u.zone z).causes,
            time := s.time.time }
        let stays (to_ left : ZoneState) (changes : BitVec 16) :=
          ends to_ left changes old.holdTimer old.deadline
        (old.state = .stowing ∨ old.state = .stowed →
          ends .returnHold old.state 1 (some (1000 * cfg.returnHold)) none) ∧
        (old.state = .returnHold → stays .returnHold old.state 0) ∧
        (old.state = .unwatched → cfg.stages = [] → stays .unwatched old.state 0) ∧
        (old.state = .unwatched → cfg.stages ≠ [] → windy → stays .watch .calm 2) ∧
        (old.state = .unwatched → cfg.stages ≠ [] → ¬ windy → stays .calm old.state 1) ∧
        (old.state = .calm ∨ old.state = .watch → cfg.stages = [] →
          stays .unwatched old.state 1) ∧
        (old.state = .calm → cfg.stages ≠ [] → windy → stays .watch old.state 1) ∧
        (old.state = .calm → cfg.stages ≠ [] → ¬ windy → stays .calm old.state 0) ∧
        (old.state = .watch → cfg.stages ≠ [] → stilled → stays .calm old.state 1) ∧
        (old.state = .watch → cfg.stages ≠ [] → ¬ stilled → stays .watch old.state 0)) ∧
      (∀ y, y ≠ z → (u.zone y).cfg = (s.zone y).cfg ∧ (u.zone y).order = (s.zone y).order) ∧
      u.time = s.time ∧ u.sensing = s.sensing ∧
      ∀ a, ¬ Layout.isOwn a → Memory.read u.mem a = Memory.read s.mem a)

/-! ### Snow and ice melting -/

/-- R171. -/
def Obligations.ResistancesAreClassified : Prop :=
  (∀ r : Nat,
    (Verdict.of r = .short ↔ r < 20) ∧ (Verdict.of r = .good .c ↔ 230 ≤ r ∧ r ≤ 300) ∧
    (Verdict.of r = .good .b ↔ 350 ≤ r ∧ r ≤ 450) ∧
    (Verdict.of r = .good .a ↔ 700 ≤ r ∧ r ≤ 900) ∧ (Verdict.of r = .open ↔ 4000 < r) ∧
    (Verdict.of r = .invalid ↔ 20 ≤ r ∧ r ≤ 4000 ∧ ¬ (230 ≤ r ∧ r ≤ 300) ∧
      ¬ (350 ≤ r ∧ r ≤ 450) ∧ ¬ (700 ≤ r ∧ r ≤ 900))) ∧
  (HeatClass.c.watts = 6000 ∧ HeatClass.b.watts = 4000 ∧ HeatClass.a.watts = 2000) ∧
  (HeatClass.c.rated = 1500 ∧ HeatClass.b.rated = 1000 ∧ HeatClass.a.rated = 500) ∧
  ∀ (h : Heater),
    (h.cls = some .a → (h.below 50 = true ↔ h.current < 250) ∧
      (h.above 125 = true ↔ 625 < h.current) ∧ (h.above 160 = true ↔ 800 < h.current)) ∧
    (h.cls = some .b → (h.below 50 = true ↔ h.current < 500) ∧
      (h.above 125 = true ↔ 1250 < h.current) ∧ (h.above 160 = true ↔ 1600 < h.current)) ∧
    (h.cls = some .c → (h.below 50 = true ↔ h.current < 750) ∧
      (h.above 125 = true ↔ 1875 < h.current) ∧ (h.above 160 = true ↔ 2400 < h.current))

/-- R165, R169, R170, R173: a change of what a zone's heat call follows from: while the call stays as it was
nothing follows; a rise sends an IDLE zone to a probe and a READY one to claim, where it may; an end sends a
zone that claims to READY. What follows for PB and the shed order is settled in the same event. R94, R164,
R173: a zone that comes to claim claims the watts of its class, at the back of rank 3, and one that ceases to
claim has its grant and its waiting entry removed, in the same event: its state changes first, which the spec
leaves open (notes/assumptions/11.md). That PB settles the claim before the shed order is judged is the
model's choice (58.md). -/
def Obligations.HeatCallChangesAreAnswered : Prop :=
  (∀ (st : StationId) (area : Area) (watts : Nat) (r : PowerRun), Waiting.inOrder r.power.waiting →
    let c := Claimant.heater st area
    let p := r.power
    r.takeHeat st area watts = { r with power := { p with
      waiting := Waiting.behind c .heat (watts - p.granted c) p.waiting } } ∧
    r.dropHeat st area = { r with
      power := { p with grants := p.grants.filter (fun g => g.claimant != c),
                        waiting := p.waiting.filter (fun w => w.claimant != c) },
      touched := if p.granted c = 0 then r.touched else Claimant.once r.touched c }) ∧
  (∀ (k : Settle) (s : State) (st : StationId) (area : Area) (f : Heater → Heater),
    let h := (s.station st).heater area
    let g := f h
    let claims (h : Heater) := h.state = .waitingPower ∨ h.state = .energizing ∨ h.state = .on ∨
      h.state = .shed
    let changed := s.modStation st (fun x => { x.modHeater area f with
      probeQueue := if g.state = .probing then
          (if h.state = .probing then x.probeQueue else x.probeQueue.erase area ++ [area])
        else x.probeQueue.erase area })
    let ends (t : State) :=
      (area = .reflector → h.state ≠ g.state → s.changeHeater k st area f = t.judgeShed k st) ∧
      (area = .feed ∨ h.state = g.state → s.changeHeater k st area f = t)
    (claims h → ¬ claims g → ends (k (changed.leave (.heatWithdraw st area)))) ∧
    (∀ cls, ¬ claims h → claims g → g.cls = some cls →
      ends (k (changed.leave (.heat st area cls.watts)))) ∧
    ((claims h ↔ claims g) → ends changed)) ∧
  (∀ (k : Settle) (s : State) (st : StationId),
    let x := s.station st
    let may (area : Area) := (x.heater area).call = true ∧ (∀ t ∈ x.tags, t.scope = .motion) ∧
      x.link.up = true ∧ x.retired = false
    s.judgeHeatBoth k st = (s.judgeHeat k st .reflector).judgeHeat k st .feed ∧ ∀ area,
      let h := x.heater area
      s.judgeHeat k st area = (s.judgeProbe k st area).judgeClaim k st area ∧
      (h.state = .idle → may area → s.judgeProbe k st area = s.changeHeater k st area (fun h => {
        h with state := .probing, probeNamed := false })) ∧
      (h.state ≠ .idle ∨ ¬ may area → s.judgeProbe k st area = s) ∧
      (h.state = .ready → may area → s.judgeClaim k st area = s.changeHeater k st area (fun h => {
        h with state := .waitingPower })) ∧
      (h.state ≠ .ready ∨ ¬ may area → s.judgeClaim k st area = s)) ∧
  (∀ h : Heater, h.call = true ↔ (h.mode = .manual ∧ h.manual = true) ∨
    (h.mode = .auto ∧ (h.auto = true ∨ h.meltOff ≠ none))) ∧
  ∀ (s : State) (st : StationId) (area : Area) (f : Heater → Heater),
    (∀ h, (f h).state = h.state) →
    let x := s.station st
    let h := x.heater area
    let u := s.changeCall settle st area f
    let put (g : Heater → Heater) (queue : List Area) := s.modStation st (fun x =>
      { x.modHeater area g with probeQueue := queue })
    let may := (∀ t ∈ x.tags, t.scope = .motion) ∧ x.link.up = true ∧ x.retired = false
    let claims := h.state = .waitingPower ∨ h.state = .energizing ∨ h.state = .on ∨
      h.state = .shed
    let ended (h : Heater) : Heater := if h.state = .waitingPower ∨ h.state = .energizing ∨
        h.state = .on ∨ h.state = .shed then { h with
          state := .ready, energize := none, overload := none, openElement := none, onRun := none,
          onRunOut := false } else h
    ((f h).call = h.call → u = put f x.probeQueue) ∧
    (h.call = false → (f h).call = true →
      u = (s.modHeater st area f).judgeHeat settle st area ∧
      (h.state = .idle → may → Settled (put (fun h => { f h with
        state := .probing, probeNamed := false }) (x.probeQueue.erase area ++ [area])) u) ∧
      (h.state = .ready → may → Settled (put (fun h => { f h with state := .waitingPower })
        (x.probeQueue.erase area)) u) ∧
      (h.state ≠ .idle ∧ h.state ≠ .ready ∨ ¬ may → u = put f x.probeQueue)) ∧
    (h.call = true → (f h).call = false →
      u = (s.modHeater st area f).changeHeater settle st area ended ∧
      (claims → Settled (put (fun h => { f h with
        state := .ready, energize := none, overload := none, openElement := none, onRun := none,
        onRunOut := false }) (x.probeQueue.erase area)) u) ∧
      (¬ claims → u = put f
        (if h.state = .probing then x.probeQueue else x.probeQueue.erase area)))

/-- R167, R169, R170: HEAT_ON and HEAT_OFF set and clear the manual demand of a MANUAL zone, the melt-off
run-out stops its timer, and the heat call is answered; PROBE_HEATER probes an IDLE or READY zone that may be
probed; any other case of the three requests is answered NOT_NOW. A melt-off timer that does not stand at 0
has no run-out (notes/assumptions/13.md). That the zone's state changes before its claim is withdrawn or filed
is the model's reading (notes/assumptions/11.md), and that PB settles the claim before the shed order is
judged is its choice (58.md). -/
def Obligations.HeatDemandsAndProbes : Prop :=
  ∀ (s : State) (st : StationId) (area : Area),
    let x := s.station st
    let h := x.heater area
    let state (u : State) := BitVec.ofNat 8 (Code.ofHeatState ((u.station st).heater area).state)
    (h.meltOff ≠ some 0 → exec (.meltOffExpiry st area) s = .next s) ∧
    (h.meltOff = some 0 → exec (.meltOffExpiry st area) s = .next (s.publish
      (s.changeCall settle st area (fun h => { h with meltOff := none })))) ∧
    ∀ (page : PageId) (target : BitVec 16), s.exchange.inFlight = none → x.retired = false →
      target.toNat = 2 * st.val + (if area = .reflector then 0 else 1) →
      let may := (∀ t ∈ x.tags, t.scope = .motion) ∧ x.link.up = true
      let refused (i : Instr) := exec i s = .next (s.answer page .notNow [])
      (h.mode ≠ .manual →
        refused (.heatOn page target) ∧ refused (.heatOff page target)) ∧
      (h.mode = .manual → ∃ u v : State,
        exec (.heatOn page target) s = .next (s.publish (u.answer page .done [state u])) ∧
        u = s.changeCall settle st area (fun h => { h with manual := true }) ∧
        exec (.heatOff page target) s = .next (s.publish (v.answer page .done [state v])) ∧
        v = s.changeCall settle st area (fun h => { h with manual := false }) ∧
        ((u.station st).heater area).manual = true ∧
        ((v.station st).heater area).manual = false) ∧
      (¬ ((h.state = .idle ∨ h.state = .ready) ∧ may) → refused (.probeHeater page target)) ∧
      (h.state = .idle ∨ h.state = .ready → may → ∃ u,
        exec (.probeHeater page target) s = .next (s.publish (u.answer page .done [2])) ∧
        Settled (s.modStation st (fun x => { x.modHeater area (fun h => { h with
          state := .probing, cls := none, probeNamed := false }) with
            probeQueue := x.probeQueue.erase area ++ [area] })) u ∧
        u = s.changeHeater settle st area (fun h => { h with
          state := .probing, cls := none, probeNamed := false }))

/-- R166, R168: SET_HEAT_MODE to OFF takes the zone out of every state with its timers, class, demands and
faults; from OFF the zone enters IDLE and is judged for a probe; between MANUAL and AUTO it keeps its state
and its heat call is answered; to its own mode nothing changes. The auto demand is read from the usable
stages. That the zone's state changes before its claim is withdrawn or filed is the model's reading
(notes/assumptions/11.md), and that PB settles the claim before the shed order is judged is its choice
(58.md). -/
def Obligations.HeatModeChanges : Prop :=
  (∀ (s : State) (st : StationId),
    let c := (s.station st).cfg
    let usable (ref : Option Nat) (kind : StageKind) (g : Stage) := ∃ n, ref = some n ∧
      s.sensing.stages[n]? = some g ∧ g.state = .live ∧ g.cfg.kind = kind
    let missing (ref : Option Nat) (kind : StageKind) := ref ≠ none ∧ ∀ g, ¬ usable ref kind g
    let cold := ∃ g, usable c.surface .surfaceTemp g ∧ g.low = true
    ((s.autoDemand st .feed).1 = true ↔ cold) ∧
    ((s.autoDemand st .feed).2 = true ↔ missing c.surface .surfaceTemp) ∧
    ((s.autoDemand st .reflector).1 = true ↔ (∃ g, usable c.snow .snowLoad g ∧ g.high = true) ∨
      cold ∧ ∃ g, usable c.precip .precip g ∧ g.high = true) ∧
    ((s.autoDemand st .reflector).2 = true ↔ missing c.snow .snowLoad ∨
      missing c.surface .surfaceTemp ∨ missing c.precip .precip)) ∧
  ∀ (s : State) (page : PageId) (target : BitVec 16) (mode : BitVec 8) (st : StationId)
      (area : Area) (m : HeatMode), s.exchange.inFlight = none → (s.station st).retired = false →
    target.toNat = 2 * st.val + (if area = .reflector then 0 else 1) →
    mode.toNat = (match m with | .off => 0 | .manual => 1 | .auto => 2) →
    let x := s.station st
    let h := x.heater area
    let d := s.autoDemand st area
    let put (g : Heater → Heater) (queue : List Area) := s.modStation st (fun x =>
      { x.modHeater area g with probeQueue := queue })
    let may := (∀ t ∈ x.tags, t.scope = .motion) ∧ x.link.up = true
    let entered (state : HeatState) (h : Heater) : Heater := if m = .auto then
        { h with mode := .auto, state := state, manual := false, auto := d.1,
                 sensorMissing := d.2, probeNamed := state != .probing && h.probeNamed }
      else { h with mode := .manual, state := state, manual := false, auto := false,
                    sensorMissing := false, meltOff := none,
                    probeNamed := state != .probing && h.probeNamed }
    let calls := m = .auto ∧ (d.1 = true ∨ h.meltOff ≠ none)
    ∃ u : State, exec (.setHeatMode page target mode) s = .next (s.publish (u.answer page .done
        [BitVec.ofNat 8 (Code.ofHeatState ((u.station st).heater area).state)])) ∧
      ((u.station st).heater area).mode = m ∧
      (h.mode = m → u = s) ∧
      (let off (h : Heater) : Heater := { h with
         mode := .off, state := .off, cls := none, probeNamed := false, faultCount := 0,
         lastFault := none, manual := false, auto := false, sensorMissing := false,
         probeWindow := none, energize := none, overload := none, openElement := none,
         cooldown := none, meltOff := none, onRun := none, onRunOut := false }
       h.mode ≠ m → m = .off → Settled (put off (x.probeQueue.erase area)) u ∧
         u = s.changeHeater settle st area off) ∧
      (h.mode = .off → m ≠ .off →
        u = (s.changeHeater settle st area (entered .idle)).judgeProbe settle st area ∧
        (calls → may → Settled (put (entered .probing)
          ((x.probeQueue.erase area).erase area ++ [area])) u) ∧
        (¬ (calls ∧ may) → Settled (put (entered .idle) (x.probeQueue.erase area)) u)) ∧
      (h.mode = .manual → m = .auto → u = s.changeCall settle st area (fun h => { h with
        mode := .auto, manual := false, auto := d.1, sensorMissing := d.2 })) ∧
      (h.mode = .auto → m = .manual → u = s.changeCall settle st area (fun h => { h with
        mode := .manual, auto := false, sensorMissing := false, meltOff := none }))

/-- R172, R174 to R176: the four run-outs that fault a zone: an unanswered probe window, an energize window
that ends outside 50 to 125 % of the rated current, the overload and the open-element timers; the zone enters
COOLDOWN, or LATCHED at its third fault, the event is recorded and counted, and what follows is settled in the
same event: the withdrawal of its claim from PB with the change of its state (R94, R176 step 2), before the
event is recorded and counted; that the state, the count and the class change before the claim is withdrawn is
the model's reading (DEDUCED, notes/assumptions/11.md). The value 0 of a NO_RESULT event, the START_FAULT of a
zone that holds no class, and that a timer which does not stand at 0 has no run-out, are the model's choices
(notes/assumptions/22.md, 21.md, 13.md). -/
def Obligations.HeaterRunOutsFault : Prop :=
  ∀ (s : State) (st : StationId) (area : Area),
    let h := (s.station st).heater area
    let good (k : HeatClass) := k.rated ≤ 2 * h.current ∧ 4 * h.current ≤ 5 * k.rated
    let faults (r : HeatFault) (h : Heater) : Heater := { h with
      state := if h.faultCount + 1 = 3 then .latched else .cooldown,
      cooldown := if h.faultCount + 1 = 3 then none else some 60000,
      cls := none, probeNamed := false, faultCount := h.faultCount + 1,
      lastFault := some (r, s.time.time), probeWindow := none, energize := none,
      overload := none, openElement := none, meltOff := none, onRun := none,
      onRunOut := false }
    let faulted (r : HeatFault) := s.modStation st (fun x =>
      { x.modHeater area (faults r) with probeQueue := x.probeQueue.erase area })
    let noted (r : HeatFault) (value : Nat) (v : State) :=
      (v.modStation st (fun x => { x with lastHeat := some {
        reason := r, area := area, value := value, time := s.time.time } })).bump (.heatFaults st)
    let row (i : Instr) (due : Prop) (r : HeatFault) (value : Nat) :=
      (due → ∃ v, Settled (faulted r) v ∧ v = s.changeHeater settle st area (faults r) ∧
        exec i s = .next (s.publish (noted r value v)))
    (∀ (k : Settle) (r : HeatFault) (value : Nat), s.faultHeater k st area r value =
      noted r value (s.changeHeater k st area (faults r))) ∧
    row (.probeWindowExpiry st area) (h.state = .probing ∧ h.probeWindow = some 0) .noResult 0 ∧
    (¬ (h.state = .probing ∧ h.probeWindow = some 0) →
      exec (.probeWindowExpiry st area) s = .next s) ∧
    row (.energizeWindowExpiry st area) (h.state = .energizing ∧ h.energize = some 0 ∧
      ∀ k, h.cls = some k → ¬ good k) .startFault h.current ∧
    (¬ (h.state = .energizing ∧ h.energize = some 0) →
      exec (.energizeWindowExpiry st area) s = .next s) ∧
    row (.overloadExpiry st area) (h.state = .on ∧ h.overload = some 0) .overload h.current ∧
    (¬ (h.state = .on ∧ h.overload = some 0) → exec (.overloadExpiry st area) s = .next s) ∧
    row (.openElementExpiry st area) (h.state = .on ∧ h.openElement = some 0) .openElement
      h.current ∧
    (¬ (h.state = .on ∧ h.openElement = some 0) → exec (.openElementExpiry st area) s = .next s)

/-- R174, R177, R181: an energize window that ends within 50 to 125 % of the rated current puts the zone ON, a
cooldown that ends puts it in IDLE and judges it for a probe, and the ON-run timer that runs out judges the
shed order; what follows is settled in the same event. R181: the four conditions of a shed order, where a mark
of the zone record says that the ON-run timer has run out (the model's, notes/assumptions/8.md); a timer that
does not stand at 0 has no run-out (13.md). R173, R178: a grant that rises from 0 puts a zone that waits or
was shed in ENERGIZING with its window, a grant that falls to 0 sheds a zone that was granted, and a grant
that no zone wants is withdrawn. That the zone's state changes before its claim is withdrawn or filed is the
model's reading (notes/assumptions/11.md). -/
def Obligations.HeaterRunOutsGoOn : Prop :=
  (∀ (s : State) (st : StationId),
    let x := s.station st
    let zone := (s.zone x.cfg.zone).state
    s.shedConditions st = true ↔ x.retired = false ∧
      (x.reflector.state = .on ∧ x.reflector.onRunOut = true ∧ x.reflector.tiltUsed = false) ∧
      (∃ n g, x.cfg.snow = some n ∧ s.sensing.stages[n]? = some g ∧ g.state = .live ∧
        g.cfg.kind = .snowLoad ∧ g.high = true) ∧
      (x.bookA.state ≠ .running ∧ x.bookB.state ≠ .running ∧ x.hold = none) ∧
      (zone = .calm ∨ zone = .unwatched)) ∧
  (∀ (k : Settle) (s : State) (st : StationId) (area : Area) (watts : Nat),
    let h := (s.station st).heater area
    let u := s.heatGrant k st area watts
    let waits := h.state = .waitingPower ∨ h.state = .shed
    let heats := h.state = .energizing ∨ h.state = .on
    (waits → watts ≠ 0 → u = s.changeHeater k st area (fun h => { h with
      state := .energizing, energize := some 2000, overload := none, openElement := none })) ∧
    (heats → watts = 0 → u = s.changeHeater k st area (fun h => { h with
      state := .shed, energize := none, overload := none, openElement := none, onRun := none,
      onRunOut := false })) ∧
    (waits ∧ watts = 0 ∨ heats ∧ watts ≠ 0 → u = s) ∧
    (¬ waits → ¬ heats → watts ≠ 0 → u = k (s.leave (.heatWithdraw st area))) ∧
    (¬ waits → ¬ heats → watts = 0 → u = s)) ∧
  ∀ (s : State) (st : StationId) (area : Area),
    let x := s.station st
    let h := x.heater area
    let put (g : Heater → Heater) (queue : List Area) := s.modStation st (fun x =>
      { x.modHeater area g with probeQueue := queue })
    let may := (∀ t ∈ x.tags, t.scope = .motion) ∧ x.link.up = true ∧ x.retired = false
    (∀ k, h.state = .energizing → h.energize = some 0 → h.cls = some k →
      k.rated ≤ 2 * h.current → 4 * h.current ≤ 5 * k.rated →
      let on (h : Heater) : Heater :=
        let g : Heater := { h with state := .on, energize := none, faultCount := 0 }
        if area = .reflector then { g with
          onRun := some 900000, onRunOut := false, tiltUsed := false } else g
      ∃ u, exec (.energizeWindowExpiry st area) s = .next (s.publish u) ∧
        u = s.changeHeater settle st area on ∧
        (area = .feed → u = put (fun h => { h with
          state := .on, energize := none, faultCount := 0 }) (x.probeQueue.erase area)) ∧
        (area = .reflector → Settled (put (fun h => { h with
          state := .on, energize := none, faultCount := 0, onRun := some 900000,
          onRunOut := false, tiltUsed := false }) (x.probeQueue.erase area)) u)) ∧
    (¬ (h.state = .cooldown ∧ h.cooldown = some 0) →
      exec (.cooldownExpiry st area) s = .next s) ∧
    (h.state = .cooldown → h.cooldown = some 0 →
      ∃ u, exec (.cooldownExpiry st area) s = .next (s.publish u) ∧
        u = (s.changeHeater settle st area (fun h => { h with
          state := .idle, cooldown := none })).judgeProbe settle st area ∧
        (h.call = true → may → Settled (put (fun h => { h with
          state := .probing, cooldown := none, probeNamed := false })
            ((x.probeQueue.erase area).erase area ++ [area])) u) ∧
        (¬ (h.call = true ∧ may) → Settled (put (fun h => { h with
          state := .idle, cooldown := none }) (x.probeQueue.erase area)) u)) ∧
    (¬ (x.reflector.state = .on ∧ x.reflector.onRun = some 0) →
      exec (.onRunExpiry st) s = .next s) ∧
    (x.reflector.state = .on → x.reflector.onRun = some 0 →
      ∃ u, exec (.onRunExpiry st) s = .next (s.publish u) ∧ Settled (s.modStation st (fun x =>
        { x with reflector := { x.reflector with onRun := none, onRunOut := true } })) u ∧
        u = (s.modStation st (fun x => { x with reflector := { x.reflector with
          onRun := none, onRunOut := true } })).judgeShed settle st)

/-! ### Lockouts and retirement -/

/-- R183, R185, R186, R191, R192: the checks of PLACE_TAG and of a panel LOCK in order; a tag that passes is
placed with all its effects: the seven steps of a placement in their order, the list, the axes with the claim,
the heat, the sweep, the wind, the source, and the report. That the zone's state changes before its claim is
withdrawn or filed is the model's reading (notes/assumptions/11.md); that PB settles the withdrawn claim
before the shed order is judged (58.md), and that the fourth step leaves a sweep hold beside a record that is
not live (55.md), are its choices. -/
def Obligations.TagsArePlacedByRequestAndPanel : Prop :=
  (∀ (k : Settle) (s : State) (st : StationId) (t : Tag),
    let motion := t.scope = .motion ∨ t.scope = .both
    let locks (a : Axis) : Axis := if a.state = .awaitingPower ∨ a.state.powered = true then { a with
        state := .braked, reason := none, s := 0, rate := 0, hold := none, holdIdle := none,
        releaseCount := none, releaseSeen := none, releaseSource := none, errorRun := 0,
        limited := false, windFloor := false } else a
    ∃ listed braked dropped left exposed decided : State,
      listed = s.modStation st (fun x => { x with tags := x.tags ++ [t] }) ∧
      (motion → braked = (listed.modStation st (fun x => { x with
        az := locks x.az, el := locks x.el })).formClaim k st) ∧
      (¬ motion → braked = listed) ∧
      (t.scope ≠ .motion → dropped = braked.dropHeat k st) ∧
      (t.scope = .motion → dropped = braked) ∧ left = dropped.abandon k st .locked ∧
      (motion → exposed = left.joinExposed k st .locked) ∧ (¬ motion → exposed = left) ∧
      decided = exposed.decideSource k st ∧
      s.placeTag k st t = (decided.modStation st (fun x => { x with lastLockout := some {
        kind := .placed, what := t.id, party := t.party, time := decided.time.time } })).bump
          (.tagChanges st)) ∧
  (∀ (k : Settle) (s : State) (st : StationId),
    let drops (h : Heater) : Heater :=
      if h.state = .off ∨ h.state = .idle ∨ h.state = .cooldown ∨ h.state = .latched then h
      else { h with state := .idle, cls := none, probeNamed := false, probeWindow := none,
                    energize := none, overload := none, openElement := none, meltOff := none,
                    onRun := none, onRunOut := false }
    s.dropHeat k st = (s.changeHeater k st .reflector drops).changeHeater k st .feed drops) ∧
  (∀ (s : State) (page : PageId) (target : BitVec 16) (kind scope : BitVec 8) (id : BitVec 16)
      (st : StationId) (kd : TagKind) (sc : Scope), s.exchange.inFlight = none →
    target.toNat = st.val → (s.station st).retired = false →
    Code.tagKind kind.toNat = some kd → Code.scope scope.toNat = some sc →
    let place := Instr.placeTag page target kind scope id
    let bad := kd = .ret ∨ kd = .site ∨ id.toNat = 0 ∨ 65533 < id.toNat
    let listed := ∃ t ∈ (s.station st).tags, t.id = id.toNat
    let n := (s.station st).tags.length
    let refused (r : Result) := exec place s = .next (s.answer page r [])
    (bad → refused .badValue) ∧ (¬ bad → listed → refused .tagDuplicate) ∧
    (¬ bad → ¬ listed → 8 ≤ n → refused .tagFull) ∧
    (¬ bad → ¬ listed → n < 8 → ∃ u,
      exec place s = .next (s.publish (u.answer page .done [BitVec.ofNat 8 (n + 1)])) ∧
      u = s.placeTag settle st { id := id.toNat, kind := kd, scope := sc, party := .request,
                                 time := s.time.time } ∧
      Placed st { id := id.toNat, kind := kd, scope := sc, party := .request,
                  time := s.time.time } s u)) ∧
  ∀ (s : State) (frame : Frame),
    let st := s.panelLine.slot
    let good := frame.length = 8 ∧ frame = Frame.seal (frame.take 6) ∧
      (frame.getD 0 0).toNat = st.val ∧ s.panelLine.isOpen = true ∧
      s.panelLine.answered = false ∧ (frame.getD 1 0).toNat = 1
    let id := (frame.getD 4 0).toNat + 256 * (frame.getD 5 0).toNat
    let heard := (s.modPanelLine (fun p => { p with answered := true })).modStation st
      (fun x => { x with panel := { x.panel with lost := false, unanswered := 0 } })
    let acked (a : Ack) (u : State) := u.modStation st
      (fun x => { x with panel := { x.panel with ack := some a } })
    let refused (a : Ack) := ∃ t, exec (.panelLock frame) s = .next t ∧ Counts [] s t ∧
      t.blocks = (acked a heard).blocks
    let x := s.station st
    (¬ good → exec (.panelLock frame) s = .next s) ∧
    (good → x.retired = true → refused .retired) ∧
    (good → x.retired = false →
      (¬ (∃ kd sc, (kd = .personnel ∨ kd = .electrical) ∧
          Code.tagKind (frame.getD 2 0).toNat = some kd ∧
          Code.scope (frame.getD 3 0).toNat = some sc ∧ 1 ≤ id ∧ id ≤ 65533) →
        refused .value) ∧
      ∀ kd sc, kd = .personnel ∨ kd = .electrical →
        Code.tagKind (frame.getD 2 0).toNat = some kd →
        Code.scope (frame.getD 3 0).toNat = some sc → 1 ≤ id → id ≤ 65533 →
        let listed := ∃ t ∈ x.tags, t.id = id
        (listed → refused .duplicate) ∧ (¬ listed → 8 ≤ x.tags.length → refused .full) ∧
        (¬ listed → x.tags.length < 8 → ∃ u,
          exec (.panelLock frame) s = .next (s.publish (acked .accepted u)) ∧
          u = heard.placeTag settle st { id := id, kind := kd, scope := sc, party := .panel,
                                         time := s.time.time } ∧
          Placed st { id := id, kind := kd, scope := sc, party := .panel,
                      time := s.time.time } heard u))

/-- R187 to R189: CLEAR_RETURN and CLEAR_SITE on one station and on ALL: the tags removed, each with all its
effects: the six steps of a removal in their order, the list, the source, the wind, the heat, the pending SITE
tag, and the report; CLEAR_SITE is refused while SITE_STOP is active; a station with nothing to clear is
answered NOT_NOW. -/
def Obligations.ClearingRequestsRemoveTags : Prop :=
  (∀ (k : Settle) (s : State) (st : StationId) (id : Nat) (party : Party),
    let blocks (l : List Tag) := ∃ t ∈ l, t.scope ≠ .motion
    ∃ moved heated sited : State,
      moved = ((s.modStation st (fun x => { x with
        tags := x.tags.filter (fun t => t.id != id) })).decideSource k st).ableToMove k st ∧
      (blocks (s.station st).tags → ¬ blocks (moved.station st).tags →
        heated = (moved.judgeHeat k st .reflector).judgeHeat k st .feed) ∧
      (¬ blocks (s.station st).tags ∨ blocks (moved.station st).tags → heated = moved) ∧
      ((heated.station st).sitePending = true → sited =
        (heated.modStation st (fun x => { x with sitePending := false })).placeTag k st
          { id := 65535, kind := .site, scope := .both, party := .part,
            time := heated.time.time }) ∧
      ((heated.station st).sitePending = false → sited = heated) ∧
      s.removeTag k st id party = (sited.modStation st (fun x => { x with lastLockout := some {
        kind := .removed, what := id, party := party, time := sited.time.time } })).bump
          (.tagChanges st)) ∧
  ∀ (s : State) (page : PageId), s.exchange.inFlight = none →
    let cleared (has : StationId → Bool) (id : Nat) (keep : Bool) (u : State) := Apart s u ∧
      ∀ x, let y := s.station x
        (u.station x).tags = (if has x then
            y.tags.filter (fun t => t.id != id) ++
              (if keep && y.sitePending then [Tag.siteTag s.time.time] else [])
          else y.tags) ∧
        (u.station x).sitePending = (!has x && y.sitePending) ∧
        u.tally (.tagChanges x) = s.tally (.tagChanges x) +
          (if has x = true ∧ y.hasTag id = true then
            (if keep && y.sitePending then 2 else 1) else 0)
    let returns (x : StationId) := !(s.station x).retired && (s.station x).hasTag 65534
    let held (x : StationId) := !(s.station x).retired &&
      ((s.station x).hasTag 65535 || (s.station x).sitePending)
    let unsited (x : StationId) (s : State) :=
      let t := s.modStation x (fun y => { y with sitePending := false })
      if (s.station x).hasTag 65535 then t.removeTag settle x 65535 .request else t
    let number (f : StationId → Bool) := BitVec.ofNat 8 ((List.finRange 16).filter f).length
    (∃ u, exec (.clearReturn page 0xFFFF) s =
        .next (s.publish (u.answer page .done [number returns])) ∧
      u = eachOf ((List.finRange 16).filter returns)
        (fun x s => s.removeTag settle x 65534 .request) s ∧
      cleared returns 65534 true u) ∧
    (s.lines.siteStop = true →
      exec (.clearSite page 0xFFFF) s = .next (s.answer page .notPermitted [])) ∧
    (s.lines.siteStop = false → ∃ u, exec (.clearSite page 0xFFFF) s =
        .next (s.publish (u.answer page .done [number held])) ∧ cleared held 65535 false u ∧
      u = eachOf ((List.finRange 16).filter held) (fun x s => unsited x s) s) ∧
    ∀ (target : BitVec 16) (st : StationId), target.toNat = st.val →
      (s.station st).retired = false →
      let at_ (f : StationId → Bool) (x : StationId) := decide (x = st) && f x
      (returns st = false → exec (.clearReturn page target) s =
        .next (s.answer page .notNow [])) ∧
      (returns st = true → ∃ u, exec (.clearReturn page target) s =
        .next (s.publish (u.answer page .done [])) ∧ Removed st 65534 .request s u ∧
        u = s.removeTag settle st 65534 .request) ∧
      (s.lines.siteStop = true → exec (.clearSite page target) s =
        .next (s.answer page .notPermitted [])) ∧
      (s.lines.siteStop = false → held st = false → exec (.clearSite page target) s =
        .next (s.answer page .notNow [])) ∧
      (s.lines.siteStop = false → held st = true → ∃ u, exec (.clearSite page target) s =
        .next (s.publish (u.answer page .done [])) ∧ cleared (at_ held) 65535 false u ∧
        u = unsited st s)

/-- R187, R191, R192, R194, R197: a panel RELEASE removes a tag with all its effects, by the removal that the
clearing requests make, or is refused; a RETIRE_CONFIRM writes word 2 or is refused; an answer NONE does what
every good answer does, and so does one with a code that is not listed, which is refused for its VALUE (R197);
an answer that is not good, or is of another code, does nothing. -/
def Obligations.PanelAnswersActOrAreRefused : Prop :=
  ∀ (s : State) (frame : Frame),
    let st := s.panelLine.slot
    let code := (frame.getD 1 0).toNat
    let good := frame.length = 8 ∧ frame = Frame.seal (frame.take 6) ∧
      (frame.getD 0 0).toNat = st.val ∧ s.panelLine.isOpen = true ∧
      s.panelLine.answered = false
    let id := (frame.getD 4 0).toNat + 256 * (frame.getD 5 0).toNat
    let heard := (s.modPanelLine (fun p => { p with answered := true })).modStation st
      (fun x => { x with panel := { x.panel with lost := false, unanswered := 0 } })
    let acked (a : Ack) (u : State) := u.modStation st
      (fun x => { x with panel := { x.panel with ack := some a } })
    let does (i : Instr) (l : List Tally) (u : State) := ∃ t, exec i s = .next t ∧
      Counts l s t ∧ t.blocks = u.blocks
    (¬ (good ∧ code = 0) → exec (.panelNone frame) s = .next s) ∧
    (good → code = 0 → does (.panelNone frame) [] heard) ∧
    (¬ (good ∧ 3 < code) → exec (.unlistedPanelAnswer frame) s = .next s) ∧
    (good → 3 < code → does (.unlistedPanelAnswer frame) [] (acked .value heard)) ∧
    (¬ (good ∧ code = 2) → exec (.panelRelease frame) s = .next s) ∧
    (good → code = 2 →
      (id = 65535 → does (.panelRelease frame) [] (acked .notPermitted heard)) ∧
      (id ≠ 65535 → (s.station st).hasTag id = false →
        does (.panelRelease frame) [] (acked .absent heard)) ∧
      (id ≠ 65535 → (s.station st).hasTag id = true → ∃ u,
        exec (.panelRelease frame) s = .next (s.publish (acked .accepted u)) ∧
        Removed st id .panel heard u ∧ u = heard.removeTag settle st id .panel)) ∧
    (¬ (good ∧ code = 3) → exec (.retireConfirm frame) s = .next s) ∧
    (good → code = 3 →
      ((s.station st).fuse2 = true →
        does (.retireConfirm frame) [] (acked .written heard)) ∧
      ((s.station st).fuse2 = false → does (.retireConfirm frame) [.tagChanges st]
        (acked .accepted (heard.modStation st (fun x => { x with
          fuse2 := true, lastLockout := some { kind := .fuseWritten, what := 2, party := .panel,
                                               time := s.time.time } })))))

/-- R186, R190: a rise of SITE_STOP places the SITE tag on every station that is not retired and has none, S0
first, each placement with all its effects before the next, and sets site pending where the list is full; a
fall changes no tag. What a placement's step for the sweep does is the model's choice where a hold stands
beside a record that is not live, and so is the moment at which a SETTLING table is judged
(notes/assumptions/55.md, 50.md). -/
def Obligations.SiteStopTagsEveryStation : Prop :=
  ∀ (s : State) (level : Bool),
    (s.lines.siteStop = level → exec (.siteStopChange level) s = .next s) ∧
    (s.lines.siteStop ≠ level → level = false → ∃ t, exec (.siteStopChange level) s = .next t ∧
      Counts [] s t ∧ t.blocks = { s.blocks with lines := { s.lines with siteStop := level } }) ∧
    (s.lines.siteStop ≠ level → level = true → ∃ u,
      exec (.siteStopChange level) s = .next (s.publish u) ∧
      (let stops (st : StationId) (t : State) : State :=
         if (t.station st).retired = true ∨ (t.station st).hasTag 65535 = true then t
         else if 8 ≤ (t.station st).tags.length then
           t.modStation st (fun x => { x with sitePending := true })
         else t.placeTag settle st { id := 65535, kind := .site, scope := .both, party := .part,
                                     time := t.time.time }
       u = eachOf (List.finRange 16) stops { s with lines := { s.lines with siteStop := level } }) ∧
      Apart { s with lines := { s.lines with siteStop := level } } u ∧
      (∀ x : Tally, x.settles = false → (∀ y, x ≠ .tagChanges y) → u.tally x = s.tally x) ∧
      ∀ st, let x := s.station st
        let skip := x.retired = true ∨ x.hasTag 65535 = true
        (skip → (u.station st).tags = x.tags ∧ (u.station st).sitePending = x.sitePending ∧
          u.tally (.tagChanges st) = s.tally (.tagChanges st)) ∧
        (¬ skip → 8 ≤ x.tags.length → (u.station st).tags = x.tags ∧
          (u.station st).sitePending = true ∧
          u.tally (.tagChanges st) = s.tally (.tagChanges st)) ∧
        (¬ skip → x.tags.length < 8 →
          (u.station st).tags = x.tags ++ [{ id := 65535, kind := .site, scope := .both,
                                             party := .part, time := s.time.time }] ∧
          (u.station st).sitePending = x.sitePending ∧
          u.tally (.tagChanges st) = s.tally (.tagChanges st) + 1 ∧
          ∀ ax, ((u.station st).axis ax).state.moving = false))

/-- R194: RETIRE_STATION writes word 1 of a station where it is unwritten, and is answered FUSE_WRITTEN where
it is written; the answer shows both words; no step, a full reset included, unwrites a fuse word. -/
def Obligations.FuseWordsAreWrittenOnce : Prop :=
  (∀ (s : State) (page : PageId) (target : BitVec 16) (st : StationId),
     s.exchange.inFlight = none → target.toNat = st.val → (s.station st).retired = false →
     let words : Byte := if (s.station st).fuse2 then 3 else 1
     ((s.station st).fuse1 = true → exec (.retireStation page target) s =
       .next (s.answer page .fuseWritten [words])) ∧
     ((s.station st).fuse1 = false → ∃ t, exec (.retireStation page target) s = .next t ∧
       Answers page .done [words] [.tagChanges st] s t ∧
       t.blocks = (s.modStation st (fun x => { x with
         fuse1 := true, lastLockout := some { kind := .fuseWritten, what := 1, party := .request,
                                              time := s.time.time } })).blocks)) ∧
  (∀ s t : State, step s = .next t → Law.fuses s t)

/-- R191, R193: the panel line: the poll that begins a slot with the acknowledgement due, the judgement of the
panel at the slot's end, and the third unanswered poll in a row; before its time none does anything
(notes/assumptions/13.md). Slots of 31.25 ms counted in quarters of a millisecond, 125 to a slot with the rest
carried over, are the model's inference (notes/assumptions/19.md); that the loss of a panel is a command of
its own is its choice (notes/assumptions/14.md). -/
def Obligations.PanelLinePollsAndJudges : Prop :=
  ∀ s : State,
    let p := s.panelLine
    let st := p.slot
    let x := (s.station st).panel
    let does (i : Instr) (l : List Tally) (u : State) := ∃ t, exec i s = .next t ∧
      Counts l s t ∧ t.blocks = u.blocks
    let closed := s.modPanelLine (fun p => { p with isOpen := false })
    let lost (u : State) := u.modStation st (fun x => { x with
      panel := { x.panel with lost := true, unanswered := 0 } })
    let starts := p.isOpen = false ∧ 125 ≤ p.elapsed
    let ends := p.isOpen = true ∧ 125 ≤ p.elapsed
    (¬ starts → exec .panelPoll s = .next s) ∧
    (starts → does .panelPoll [] ((s.modPanelLine (fun p => {
      slot := p.slot + 1, isOpen := true, answered := false, elapsed := p.elapsed - 125,
      poll := Frame.seal [BitVec.ofNat 8 (p.slot + 1).val,
        BitVec.ofNat 8 (Code.ofAck (s.station (p.slot + 1)).panel.ack)] })).modStation (st + 1)
          (fun x => { x with panel := { x.panel with ack := none } }))) ∧
    (¬ ends → exec .panelSlotEnd s = .next s) ∧
    (ends → p.answered = true ∨ x.lost = true → does .panelSlotEnd [] closed) ∧
    (ends → p.answered = false → x.lost = false → x.unanswered < 2 →
      does .panelSlotEnd [] (closed.modStation st (fun x => { x with
        panel := { x.panel with unanswered := x.panel.unanswered + 1 } }))) ∧
    (ends → p.answered = false → x.lost = false → 2 ≤ x.unanswered →
      does .panelSlotEnd [.panelLosses st] (lost closed)) ∧
    ∀ y : StationId,
      let third := y = st ∧ p.isOpen = true ∧ p.answered = false ∧ x.lost = false ∧
        2 ≤ x.unanswered
      (¬ third → exec (.panelLost y) s = .next s) ∧
      (third → does (.panelLost y) [.panelLosses st] (lost s))

/-- R198: the check word starts at 0xFFFF and takes each byte in eight shifts; it stands low byte first at the
end of a frame; two frames of one length that differ in one byte alone have different check words. -/
def Obligations.CheckWordTellsAChangedByte : Prop :=
  CheckWord.of [] = 0xFFFF ∧
  (∀ (body : List Byte) (b : Byte), CheckWord.of (body ++ [b]) =
    Nat.repeat (fun r : BitVec 16 => if r.getLsbD 15 then (r <<< 1) ^^^ 0x1021 else r <<< 1) 8
      (CheckWord.of body ^^^ (b.setWidth 16 <<< 8))) ∧
  (∀ body : List Byte, Frame.seal body =
    body ++ [(CheckWord.of body).setWidth 8, (CheckWord.of body >>> 8).setWidth 8]) ∧
  (∀ (n : Nat) (f : Frame), 2 ≤ n → (Frame.correct n f = true ↔ f.length = n ∧
    f.getD (n - 2) 0 = (CheckWord.of (f.take (n - 2))).setWidth 8 ∧
    f.getD (n - 1) 0 = (CheckWord.of (f.take (n - 2)) >>> 8).setWidth 8)) ∧
  ∀ (front back : List Byte) (a b : Byte),
    CheckWord.of (front ++ a :: back) = CheckWord.of (front ++ b :: back) → a = b

/-! ### What every step keeps -/

/-- Every step keeps the canonical form of exchange memory. That memory is held in this form is the model's
choice (notes/assumptions/2.md). -/
def Obligations.EveryStepKeepsTheMemoryForm : Prop :=
  ∀ s t : State, Law.memory s → step s = .next t → Law.memory t

/-- R183, R190: every step that finds them so leaves the tag lists with at most 8 tags of distinct IDs, and a
site pending flag only on a full list without a SITE tag. -/
def Obligations.EveryStepKeepsTheTagLaw : Prop :=
  ∀ s t : State, Law.tags s → step s = .next t → Law.tags t
end

