-- ==== Sys2Proof/Laws/State.lean ====
section
/-! SUPPORT. The fields of a state after each named update, each true by rfl, and the records read back
after an update. -/

namespace Sys2Proof.Machine

/-! ### modStation -/

@[simp] theorem State.modStation_pending (s : State) (st : StationId) (f : Station → Station) :
    (s.modStation st f).pending = s.pending := rfl
@[simp] theorem State.modStation_mem (s : State) (st : StationId) (f : Station → Station) :
    (s.modStation st f).mem = s.mem := rfl
@[simp] theorem State.modStation_tallies (s : State) (st : StationId) (f : Station → Station) :
    (s.modStation st f).tallies = s.tallies := rfl
@[simp] theorem State.modStation_exchange (s : State) (st : StationId) (f : Station → Station) :
    (s.modStation st f).exchange = s.exchange := rfl
@[simp] theorem State.modStation_time (s : State) (st : StationId) (f : Station → Station) :
    (s.modStation st f).time = s.time := rfl
@[simp] theorem State.modStation_power (s : State) (st : StationId) (f : Station → Station) :
    (s.modStation st f).power = s.power := rfl
@[simp] theorem State.modStation_sensing (s : State) (st : StationId) (f : Station → Station) :
    (s.modStation st f).sensing = s.sensing := rfl
@[simp] theorem State.modStation_tables (s : State) (st : StationId) (f : Station → Station) :
    (s.modStation st f).tables = s.tables := rfl
@[simp] theorem State.modStation_zones (s : State) (st : StationId) (f : Station → Station) :
    (s.modStation st f).zones = s.zones := rfl
@[simp] theorem State.modStation_lines (s : State) (st : StationId) (f : Station → Station) :
    (s.modStation st f).lines = s.lines := rfl
@[simp] theorem State.modStation_panelLine (s : State) (st : StationId) (f : Station → Station) :
    (s.modStation st f).panelLine = s.panelLine := rfl
@[simp] theorem State.modStation_work (s : State) (st : StationId) (f : Station → Station) :
    (s.modStation st f).work = s.work := rfl
@[simp] theorem State.modStation_entering (s : State) (st : StationId) (f : Station → Station) :
    (s.modStation st f).entering = s.entering := rfl
@[simp] theorem State.modStation_freeCount (s : State) (st : StationId) (f : Station → Station) :
    (s.modStation st f).freeCount = s.freeCount := rfl

/-! ### modZone -/

@[simp] theorem State.modZone_pending (s : State) (z : ZoneId) (f : Zone → Zone) :
    (s.modZone z f).pending = s.pending := rfl
@[simp] theorem State.modZone_mem (s : State) (z : ZoneId) (f : Zone → Zone) :
    (s.modZone z f).mem = s.mem := rfl
@[simp] theorem State.modZone_tallies (s : State) (z : ZoneId) (f : Zone → Zone) :
    (s.modZone z f).tallies = s.tallies := rfl
@[simp] theorem State.modZone_exchange (s : State) (z : ZoneId) (f : Zone → Zone) :
    (s.modZone z f).exchange = s.exchange := rfl
@[simp] theorem State.modZone_time (s : State) (z : ZoneId) (f : Zone → Zone) :
    (s.modZone z f).time = s.time := rfl
@[simp] theorem State.modZone_power (s : State) (z : ZoneId) (f : Zone → Zone) :
    (s.modZone z f).power = s.power := rfl
@[simp] theorem State.modZone_sensing (s : State) (z : ZoneId) (f : Zone → Zone) :
    (s.modZone z f).sensing = s.sensing := rfl
@[simp] theorem State.modZone_tables (s : State) (z : ZoneId) (f : Zone → Zone) :
    (s.modZone z f).tables = s.tables := rfl
@[simp] theorem State.modZone_stations (s : State) (z : ZoneId) (f : Zone → Zone) :
    (s.modZone z f).stations = s.stations := rfl
@[simp] theorem State.modZone_lines (s : State) (z : ZoneId) (f : Zone → Zone) :
    (s.modZone z f).lines = s.lines := rfl
@[simp] theorem State.modZone_panelLine (s : State) (z : ZoneId) (f : Zone → Zone) :
    (s.modZone z f).panelLine = s.panelLine := rfl
@[simp] theorem State.modZone_work (s : State) (z : ZoneId) (f : Zone → Zone) :
    (s.modZone z f).work = s.work := rfl
@[simp] theorem State.modZone_entering (s : State) (z : ZoneId) (f : Zone → Zone) :
    (s.modZone z f).entering = s.entering := rfl
@[simp] theorem State.modZone_freeCount (s : State) (z : ZoneId) (f : Zone → Zone) :
    (s.modZone z f).freeCount = s.freeCount := rfl

/-! ### modTable -/

@[simp] theorem State.modTable_pending (s : State) (t : TableId) (f : SweepTable → SweepTable) :
    (s.modTable t f).pending = s.pending := rfl
@[simp] theorem State.modTable_mem (s : State) (t : TableId) (f : SweepTable → SweepTable) :
    (s.modTable t f).mem = s.mem := rfl
@[simp] theorem State.modTable_tallies (s : State) (t : TableId) (f : SweepTable → SweepTable) :
    (s.modTable t f).tallies = s.tallies := rfl
@[simp] theorem State.modTable_exchange (s : State) (t : TableId) (f : SweepTable → SweepTable) :
    (s.modTable t f).exchange = s.exchange := rfl
@[simp] theorem State.modTable_time (s : State) (t : TableId) (f : SweepTable → SweepTable) :
    (s.modTable t f).time = s.time := rfl
@[simp] theorem State.modTable_power (s : State) (t : TableId) (f : SweepTable → SweepTable) :
    (s.modTable t f).power = s.power := rfl
@[simp] theorem State.modTable_sensing (s : State) (t : TableId) (f : SweepTable → SweepTable) :
    (s.modTable t f).sensing = s.sensing := rfl
@[simp] theorem State.modTable_zones (s : State) (t : TableId) (f : SweepTable → SweepTable) :
    (s.modTable t f).zones = s.zones := rfl
@[simp] theorem State.modTable_stations (s : State) (t : TableId) (f : SweepTable → SweepTable) :
    (s.modTable t f).stations = s.stations := rfl
@[simp] theorem State.modTable_lines (s : State) (t : TableId) (f : SweepTable → SweepTable) :
    (s.modTable t f).lines = s.lines := rfl
@[simp] theorem State.modTable_panelLine (s : State) (t : TableId) (f : SweepTable → SweepTable) :
    (s.modTable t f).panelLine = s.panelLine := rfl
@[simp] theorem State.modTable_work (s : State) (t : TableId) (f : SweepTable → SweepTable) :
    (s.modTable t f).work = s.work := rfl
@[simp] theorem State.modTable_entering (s : State) (t : TableId) (f : SweepTable → SweepTable) :
    (s.modTable t f).entering = s.entering := rfl
@[simp] theorem State.modTable_freeCount (s : State) (t : TableId) (f : SweepTable → SweepTable) :
    (s.modTable t f).freeCount = s.freeCount := rfl

/-! ### modExchange -/

@[simp] theorem State.modExchange_pending (s : State) (f : Exchange → Exchange) :
    (s.modExchange f).pending = s.pending := rfl
@[simp] theorem State.modExchange_mem (s : State) (f : Exchange → Exchange) :
    (s.modExchange f).mem = s.mem := rfl
@[simp] theorem State.modExchange_tallies (s : State) (f : Exchange → Exchange) :
    (s.modExchange f).tallies = s.tallies := rfl
@[simp] theorem State.modExchange_time (s : State) (f : Exchange → Exchange) :
    (s.modExchange f).time = s.time := rfl
@[simp] theorem State.modExchange_power (s : State) (f : Exchange → Exchange) :
    (s.modExchange f).power = s.power := rfl
@[simp] theorem State.modExchange_sensing (s : State) (f : Exchange → Exchange) :
    (s.modExchange f).sensing = s.sensing := rfl
@[simp] theorem State.modExchange_tables (s : State) (f : Exchange → Exchange) :
    (s.modExchange f).tables = s.tables := rfl
@[simp] theorem State.modExchange_zones (s : State) (f : Exchange → Exchange) :
    (s.modExchange f).zones = s.zones := rfl
@[simp] theorem State.modExchange_stations (s : State) (f : Exchange → Exchange) :
    (s.modExchange f).stations = s.stations := rfl
@[simp] theorem State.modExchange_lines (s : State) (f : Exchange → Exchange) :
    (s.modExchange f).lines = s.lines := rfl
@[simp] theorem State.modExchange_panelLine (s : State) (f : Exchange → Exchange) :
    (s.modExchange f).panelLine = s.panelLine := rfl
@[simp] theorem State.modExchange_work (s : State) (f : Exchange → Exchange) :
    (s.modExchange f).work = s.work := rfl
@[simp] theorem State.modExchange_entering (s : State) (f : Exchange → Exchange) :
    (s.modExchange f).entering = s.entering := rfl
@[simp] theorem State.modExchange_freeCount (s : State) (f : Exchange → Exchange) :
    (s.modExchange f).freeCount = s.freeCount := rfl

/-! ### modTime -/

@[simp] theorem State.modTime_pending (s : State) (f : TimeUnit → TimeUnit) :
    (s.modTime f).pending = s.pending := rfl
@[simp] theorem State.modTime_mem (s : State) (f : TimeUnit → TimeUnit) :
    (s.modTime f).mem = s.mem := rfl
@[simp] theorem State.modTime_tallies (s : State) (f : TimeUnit → TimeUnit) :
    (s.modTime f).tallies = s.tallies := rfl
@[simp] theorem State.modTime_exchange (s : State) (f : TimeUnit → TimeUnit) :
    (s.modTime f).exchange = s.exchange := rfl
@[simp] theorem State.modTime_power (s : State) (f : TimeUnit → TimeUnit) :
    (s.modTime f).power = s.power := rfl
@[simp] theorem State.modTime_sensing (s : State) (f : TimeUnit → TimeUnit) :
    (s.modTime f).sensing = s.sensing := rfl
@[simp] theorem State.modTime_tables (s : State) (f : TimeUnit → TimeUnit) :
    (s.modTime f).tables = s.tables := rfl
@[simp] theorem State.modTime_zones (s : State) (f : TimeUnit → TimeUnit) :
    (s.modTime f).zones = s.zones := rfl
@[simp] theorem State.modTime_stations (s : State) (f : TimeUnit → TimeUnit) :
    (s.modTime f).stations = s.stations := rfl
@[simp] theorem State.modTime_lines (s : State) (f : TimeUnit → TimeUnit) :
    (s.modTime f).lines = s.lines := rfl
@[simp] theorem State.modTime_panelLine (s : State) (f : TimeUnit → TimeUnit) :
    (s.modTime f).panelLine = s.panelLine := rfl
@[simp] theorem State.modTime_work (s : State) (f : TimeUnit → TimeUnit) :
    (s.modTime f).work = s.work := rfl
@[simp] theorem State.modTime_entering (s : State) (f : TimeUnit → TimeUnit) :
    (s.modTime f).entering = s.entering := rfl
@[simp] theorem State.modTime_freeCount (s : State) (f : TimeUnit → TimeUnit) :
    (s.modTime f).freeCount = s.freeCount := rfl

/-! ### modSensing -/

@[simp] theorem State.modSensing_pending (s : State) (f : Sensing → Sensing) :
    (s.modSensing f).pending = s.pending := rfl
@[simp] theorem State.modSensing_mem (s : State) (f : Sensing → Sensing) :
    (s.modSensing f).mem = s.mem := rfl
@[simp] theorem State.modSensing_tallies (s : State) (f : Sensing → Sensing) :
    (s.modSensing f).tallies = s.tallies := rfl
@[simp] theorem State.modSensing_exchange (s : State) (f : Sensing → Sensing) :
    (s.modSensing f).exchange = s.exchange := rfl
@[simp] theorem State.modSensing_time (s : State) (f : Sensing → Sensing) :
    (s.modSensing f).time = s.time := rfl
@[simp] theorem State.modSensing_power (s : State) (f : Sensing → Sensing) :
    (s.modSensing f).power = s.power := rfl
@[simp] theorem State.modSensing_tables (s : State) (f : Sensing → Sensing) :
    (s.modSensing f).tables = s.tables := rfl
@[simp] theorem State.modSensing_zones (s : State) (f : Sensing → Sensing) :
    (s.modSensing f).zones = s.zones := rfl
@[simp] theorem State.modSensing_stations (s : State) (f : Sensing → Sensing) :
    (s.modSensing f).stations = s.stations := rfl
@[simp] theorem State.modSensing_lines (s : State) (f : Sensing → Sensing) :
    (s.modSensing f).lines = s.lines := rfl
@[simp] theorem State.modSensing_panelLine (s : State) (f : Sensing → Sensing) :
    (s.modSensing f).panelLine = s.panelLine := rfl
@[simp] theorem State.modSensing_work (s : State) (f : Sensing → Sensing) :
    (s.modSensing f).work = s.work := rfl
@[simp] theorem State.modSensing_entering (s : State) (f : Sensing → Sensing) :
    (s.modSensing f).entering = s.entering := rfl
@[simp] theorem State.modSensing_freeCount (s : State) (f : Sensing → Sensing) :
    (s.modSensing f).freeCount = s.freeCount := rfl

/-! ### modPanelLine -/

@[simp] theorem State.modPanelLine_pending (s : State) (f : PanelLine → PanelLine) :
    (s.modPanelLine f).pending = s.pending := rfl
@[simp] theorem State.modPanelLine_mem (s : State) (f : PanelLine → PanelLine) :
    (s.modPanelLine f).mem = s.mem := rfl
@[simp] theorem State.modPanelLine_tallies (s : State) (f : PanelLine → PanelLine) :
    (s.modPanelLine f).tallies = s.tallies := rfl
@[simp] theorem State.modPanelLine_exchange (s : State) (f : PanelLine → PanelLine) :
    (s.modPanelLine f).exchange = s.exchange := rfl
@[simp] theorem State.modPanelLine_time (s : State) (f : PanelLine → PanelLine) :
    (s.modPanelLine f).time = s.time := rfl
@[simp] theorem State.modPanelLine_power (s : State) (f : PanelLine → PanelLine) :
    (s.modPanelLine f).power = s.power := rfl
@[simp] theorem State.modPanelLine_sensing (s : State) (f : PanelLine → PanelLine) :
    (s.modPanelLine f).sensing = s.sensing := rfl
@[simp] theorem State.modPanelLine_tables (s : State) (f : PanelLine → PanelLine) :
    (s.modPanelLine f).tables = s.tables := rfl
@[simp] theorem State.modPanelLine_zones (s : State) (f : PanelLine → PanelLine) :
    (s.modPanelLine f).zones = s.zones := rfl
@[simp] theorem State.modPanelLine_stations (s : State) (f : PanelLine → PanelLine) :
    (s.modPanelLine f).stations = s.stations := rfl
@[simp] theorem State.modPanelLine_lines (s : State) (f : PanelLine → PanelLine) :
    (s.modPanelLine f).lines = s.lines := rfl
@[simp] theorem State.modPanelLine_work (s : State) (f : PanelLine → PanelLine) :
    (s.modPanelLine f).work = s.work := rfl
@[simp] theorem State.modPanelLine_entering (s : State) (f : PanelLine → PanelLine) :
    (s.modPanelLine f).entering = s.entering := rfl
@[simp] theorem State.modPanelLine_freeCount (s : State) (f : PanelLine → PanelLine) :
    (s.modPanelLine f).freeCount = s.freeCount := rfl

/-! ### modPower -/

@[simp] theorem State.modPower_pending (s : State) (f : Power → Power) :
    (s.modPower f).pending = s.pending := rfl
@[simp] theorem State.modPower_mem (s : State) (f : Power → Power) :
    (s.modPower f).mem = s.mem := rfl
@[simp] theorem State.modPower_tallies (s : State) (f : Power → Power) :
    (s.modPower f).tallies = s.tallies := rfl
@[simp] theorem State.modPower_exchange (s : State) (f : Power → Power) :
    (s.modPower f).exchange = s.exchange := rfl
@[simp] theorem State.modPower_time (s : State) (f : Power → Power) :
    (s.modPower f).time = s.time := rfl
@[simp] theorem State.modPower_sensing (s : State) (f : Power → Power) :
    (s.modPower f).sensing = s.sensing := rfl
@[simp] theorem State.modPower_tables (s : State) (f : Power → Power) :
    (s.modPower f).tables = s.tables := rfl
@[simp] theorem State.modPower_zones (s : State) (f : Power → Power) :
    (s.modPower f).zones = s.zones := rfl
@[simp] theorem State.modPower_stations (s : State) (f : Power → Power) :
    (s.modPower f).stations = s.stations := rfl
@[simp] theorem State.modPower_lines (s : State) (f : Power → Power) :
    (s.modPower f).lines = s.lines := rfl
@[simp] theorem State.modPower_panelLine (s : State) (f : Power → Power) :
    (s.modPower f).panelLine = s.panelLine := rfl
@[simp] theorem State.modPower_work (s : State) (f : Power → Power) :
    (s.modPower f).work = s.work := rfl
@[simp] theorem State.modPower_entering (s : State) (f : Power → Power) :
    (s.modPower f).entering = s.entering := rfl
@[simp] theorem State.modPower_freeCount (s : State) (f : Power → Power) :
    (s.modPower f).freeCount = s.freeCount := rfl

/-! ### store -/

@[simp] theorem State.store_pending (s : State) (a : Nat) (l : List Byte) :
    (s.store a l).pending = s.pending := rfl
@[simp] theorem State.store_tallies (s : State) (a : Nat) (l : List Byte) :
    (s.store a l).tallies = s.tallies := rfl
@[simp] theorem State.store_exchange (s : State) (a : Nat) (l : List Byte) :
    (s.store a l).exchange = s.exchange := rfl
@[simp] theorem State.store_time (s : State) (a : Nat) (l : List Byte) :
    (s.store a l).time = s.time := rfl
@[simp] theorem State.store_power (s : State) (a : Nat) (l : List Byte) :
    (s.store a l).power = s.power := rfl
@[simp] theorem State.store_sensing (s : State) (a : Nat) (l : List Byte) :
    (s.store a l).sensing = s.sensing := rfl
@[simp] theorem State.store_tables (s : State) (a : Nat) (l : List Byte) :
    (s.store a l).tables = s.tables := rfl
@[simp] theorem State.store_zones (s : State) (a : Nat) (l : List Byte) :
    (s.store a l).zones = s.zones := rfl
@[simp] theorem State.store_stations (s : State) (a : Nat) (l : List Byte) :
    (s.store a l).stations = s.stations := rfl
@[simp] theorem State.store_lines (s : State) (a : Nat) (l : List Byte) :
    (s.store a l).lines = s.lines := rfl
@[simp] theorem State.store_panelLine (s : State) (a : Nat) (l : List Byte) :
    (s.store a l).panelLine = s.panelLine := rfl
@[simp] theorem State.store_work (s : State) (a : Nat) (l : List Byte) :
    (s.store a l).work = s.work := rfl
@[simp] theorem State.store_entering (s : State) (a : Nat) (l : List Byte) :
    (s.store a l).entering = s.entering := rfl
@[simp] theorem State.store_freeCount (s : State) (a : Nat) (l : List Byte) :
    (s.store a l).freeCount = s.freeCount := rfl

/-! ### leave -/

@[simp] theorem State.leave_pending (s : State) (w : Work) :
    (s.leave w).pending = s.pending := rfl
@[simp] theorem State.leave_mem (s : State) (w : Work) :
    (s.leave w).mem = s.mem := rfl
@[simp] theorem State.leave_tallies (s : State) (w : Work) :
    (s.leave w).tallies = s.tallies := rfl
@[simp] theorem State.leave_exchange (s : State) (w : Work) :
    (s.leave w).exchange = s.exchange := rfl
@[simp] theorem State.leave_time (s : State) (w : Work) :
    (s.leave w).time = s.time := rfl
@[simp] theorem State.leave_power (s : State) (w : Work) :
    (s.leave w).power = s.power := rfl
@[simp] theorem State.leave_sensing (s : State) (w : Work) :
    (s.leave w).sensing = s.sensing := rfl
@[simp] theorem State.leave_tables (s : State) (w : Work) :
    (s.leave w).tables = s.tables := rfl
@[simp] theorem State.leave_zones (s : State) (w : Work) :
    (s.leave w).zones = s.zones := rfl
@[simp] theorem State.leave_stations (s : State) (w : Work) :
    (s.leave w).stations = s.stations := rfl
@[simp] theorem State.leave_lines (s : State) (w : Work) :
    (s.leave w).lines = s.lines := rfl
@[simp] theorem State.leave_panelLine (s : State) (w : Work) :
    (s.leave w).panelLine = s.panelLine := rfl
@[simp] theorem State.leave_entering (s : State) (w : Work) :
    (s.leave w).entering = s.entering := rfl
@[simp] theorem State.leave_freeCount (s : State) (w : Work) :
    (s.leave w).freeCount = s.freeCount := rfl

/-! ### bump -/

@[simp] theorem State.bump_pending (s : State) (t : Tally) :
    (s.bump t).pending = s.pending := rfl
@[simp] theorem State.bump_time (s : State) (t : Tally) :
    (s.bump t).time = s.time := rfl
@[simp] theorem State.bump_power (s : State) (t : Tally) :
    (s.bump t).power = s.power := rfl
@[simp] theorem State.bump_sensing (s : State) (t : Tally) :
    (s.bump t).sensing = s.sensing := rfl
@[simp] theorem State.bump_tables (s : State) (t : Tally) :
    (s.bump t).tables = s.tables := rfl
@[simp] theorem State.bump_zones (s : State) (t : Tally) :
    (s.bump t).zones = s.zones := rfl
@[simp] theorem State.bump_stations (s : State) (t : Tally) :
    (s.bump t).stations = s.stations := rfl
@[simp] theorem State.bump_lines (s : State) (t : Tally) :
    (s.bump t).lines = s.lines := rfl
@[simp] theorem State.bump_panelLine (s : State) (t : Tally) :
    (s.bump t).panelLine = s.panelLine := rfl
@[simp] theorem State.bump_work (s : State) (t : Tally) :
    (s.bump t).work = s.work := rfl
@[simp] theorem State.bump_entering (s : State) (t : Tally) :
    (s.bump t).entering = s.entering := rfl
@[simp] theorem State.bump_freeCount (s : State) (t : Tally) :
    (s.bump t).freeCount = s.freeCount := rfl

/-! ### The changed field -/

@[simp] theorem State.modExchange_exchange (s : State) (f : Exchange → Exchange) :
    (s.modExchange f).exchange = f s.exchange := rfl
@[simp] theorem State.modTime_time (s : State) (f : TimeUnit → TimeUnit) :
    (s.modTime f).time = f s.time := rfl
@[simp] theorem State.modSensing_sensing (s : State) (f : Sensing → Sensing) :
    (s.modSensing f).sensing = f s.sensing := rfl
@[simp] theorem State.modPanelLine_panelLine (s : State) (f : PanelLine → PanelLine) :
    (s.modPanelLine f).panelLine = f s.panelLine := rfl
@[simp] theorem State.modPower_power (s : State) (f : Power → Power) :
    (s.modPower f).power = f s.power := rfl
@[simp] theorem State.store_mem (s : State) (a : Nat) (l : List Byte) :
    (s.store a l).mem = Memory.store s.mem a l := rfl
@[simp] theorem State.leave_work (s : State) (w : Work) : (s.leave w).work = s.work ++ [w] := rfl
@[simp] theorem State.bump_mem (s : State) (t : Tally) :
    (s.bump t).mem = Memory.store s.mem t.address (Bytes.ofNat 2 (s.tally t + 1).toNat) := rfl
@[simp] theorem State.bump_exchange (s : State) (t : Tally) :
    (s.bump t).exchange = { s.exchange with summary := s.exchange.summary ||| t.cls.bit } := rfl

/-! ### Stations, zones and tables read back -/

@[simp] theorem State.station_modStation (s : State) (st st' : StationId)
    (f : Station → Station) :
    (s.modStation st f).station st' = if st = st' then f (s.station st) else s.station st' := by
  simp [State.station, State.modStation, Vector.getElem_set, Fin.ext_iff]

@[simp] theorem State.zone_modZone (s : State) (z z' : ZoneId) (f : Zone → Zone) :
    (s.modZone z f).zone z' = if z = z' then f (s.zone z) else s.zone z' := by
  simp [State.zone, State.modZone, Vector.getElem_set, Fin.ext_iff]

@[simp] theorem State.table_modTable (s : State) (t t' : TableId)
    (f : SweepTable → SweepTable) :
    (s.modTable t f).table t' = if t = t' then f (s.table t) else s.table t' := by
  simp [State.table, State.modTable, Vector.getElem_set, Fin.ext_iff]

/-- Two states with the same stations agree on each station; and so for zones, tables and tallies. -/
theorem State.station_congr {s t : State} (h : t.stations = s.stations) (st : StationId) :
    t.station st = s.station st := by rw [State.station, State.station, h]

theorem State.zone_congr {s t : State} (h : t.zones = s.zones) (z : ZoneId) :
    t.zone z = s.zone z := by rw [State.zone, State.zone, h]

theorem State.table_congr {s t : State} (h : t.tables = s.tables) (x : TableId) :
    t.table x = s.table x := by rw [State.table, State.table, h]

theorem State.tally_congr {s t : State} (h : t.tallies = s.tallies) (x : Tally) :
    t.tally x = s.tally x := by rw [State.tally, State.tally, h]

@[simp] theorem State.zone_modStation (s : State) (st : StationId) (f : Station → Station) (z' : ZoneId) :
    (s.modStation st f).zone z' = s.zone z' := rfl
@[simp] theorem State.table_modStation (s : State) (st : StationId) (f : Station → Station) (t' : TableId) :
    (s.modStation st f).table t' = s.table t' := rfl
@[simp] theorem State.tally_modStation (s : State) (st : StationId) (f : Station → Station) (x : Tally) :
    (s.modStation st f).tally x = s.tally x := rfl
@[simp] theorem State.station_modZone (s : State) (z : ZoneId) (f : Zone → Zone) (st' : StationId) :
    (s.modZone z f).station st' = s.station st' := rfl
@[simp] theorem State.table_modZone (s : State) (z : ZoneId) (f : Zone → Zone) (t' : TableId) :
    (s.modZone z f).table t' = s.table t' := rfl
@[simp] theorem State.tally_modZone (s : State) (z : ZoneId) (f : Zone → Zone) (x : Tally) :
    (s.modZone z f).tally x = s.tally x := rfl
@[simp] theorem State.station_modTable (s : State) (t : TableId) (f : SweepTable → SweepTable) (st' : StationId) :
    (s.modTable t f).station st' = s.station st' := rfl
@[simp] theorem State.zone_modTable (s : State) (t : TableId) (f : SweepTable → SweepTable) (z' : ZoneId) :
    (s.modTable t f).zone z' = s.zone z' := rfl
@[simp] theorem State.tally_modTable (s : State) (t : TableId) (f : SweepTable → SweepTable) (x : Tally) :
    (s.modTable t f).tally x = s.tally x := rfl
@[simp] theorem State.station_modExchange (s : State) (f : Exchange → Exchange) (st' : StationId) :
    (s.modExchange f).station st' = s.station st' := rfl
@[simp] theorem State.zone_modExchange (s : State) (f : Exchange → Exchange) (z' : ZoneId) :
    (s.modExchange f).zone z' = s.zone z' := rfl
@[simp] theorem State.table_modExchange (s : State) (f : Exchange → Exchange) (t' : TableId) :
    (s.modExchange f).table t' = s.table t' := rfl
@[simp] theorem State.tally_modExchange (s : State) (f : Exchange → Exchange) (x : Tally) :
    (s.modExchange f).tally x = s.tally x := rfl
@[simp] theorem State.station_modTime (s : State) (f : TimeUnit → TimeUnit) (st' : StationId) :
    (s.modTime f).station st' = s.station st' := rfl
@[simp] theorem State.zone_modTime (s : State) (f : TimeUnit → TimeUnit) (z' : ZoneId) :
    (s.modTime f).zone z' = s.zone z' := rfl
@[simp] theorem State.table_modTime (s : State) (f : TimeUnit → TimeUnit) (t' : TableId) :
    (s.modTime f).table t' = s.table t' := rfl
@[simp] theorem State.tally_modTime (s : State) (f : TimeUnit → TimeUnit) (x : Tally) :
    (s.modTime f).tally x = s.tally x := rfl
@[simp] theorem State.station_modSensing (s : State) (f : Sensing → Sensing) (st' : StationId) :
    (s.modSensing f).station st' = s.station st' := rfl
@[simp] theorem State.zone_modSensing (s : State) (f : Sensing → Sensing) (z' : ZoneId) :
    (s.modSensing f).zone z' = s.zone z' := rfl
@[simp] theorem State.table_modSensing (s : State) (f : Sensing → Sensing) (t' : TableId) :
    (s.modSensing f).table t' = s.table t' := rfl
@[simp] theorem State.tally_modSensing (s : State) (f : Sensing → Sensing) (x : Tally) :
    (s.modSensing f).tally x = s.tally x := rfl
@[simp] theorem State.station_modPanelLine (s : State) (f : PanelLine → PanelLine) (st' : StationId) :
    (s.modPanelLine f).station st' = s.station st' := rfl
@[simp] theorem State.zone_modPanelLine (s : State) (f : PanelLine → PanelLine) (z' : ZoneId) :
    (s.modPanelLine f).zone z' = s.zone z' := rfl
@[simp] theorem State.table_modPanelLine (s : State) (f : PanelLine → PanelLine) (t' : TableId) :
    (s.modPanelLine f).table t' = s.table t' := rfl
@[simp] theorem State.tally_modPanelLine (s : State) (f : PanelLine → PanelLine) (x : Tally) :
    (s.modPanelLine f).tally x = s.tally x := rfl
@[simp] theorem State.station_modPower (s : State) (f : Power → Power) (st' : StationId) :
    (s.modPower f).station st' = s.station st' := rfl
@[simp] theorem State.zone_modPower (s : State) (f : Power → Power) (z' : ZoneId) :
    (s.modPower f).zone z' = s.zone z' := rfl
@[simp] theorem State.table_modPower (s : State) (f : Power → Power) (t' : TableId) :
    (s.modPower f).table t' = s.table t' := rfl
@[simp] theorem State.tally_modPower (s : State) (f : Power → Power) (x : Tally) :
    (s.modPower f).tally x = s.tally x := rfl
@[simp] theorem State.station_store (s : State) (a : Nat) (l : List Byte) (st' : StationId) :
    (s.store a l).station st' = s.station st' := rfl
@[simp] theorem State.zone_store (s : State) (a : Nat) (l : List Byte) (z' : ZoneId) :
    (s.store a l).zone z' = s.zone z' := rfl
@[simp] theorem State.table_store (s : State) (a : Nat) (l : List Byte) (t' : TableId) :
    (s.store a l).table t' = s.table t' := rfl
@[simp] theorem State.tally_store (s : State) (a : Nat) (l : List Byte) (x : Tally) :
    (s.store a l).tally x = s.tally x := rfl
@[simp] theorem State.station_leave (s : State) (w : Work) (st' : StationId) :
    (s.leave w).station st' = s.station st' := rfl
@[simp] theorem State.zone_leave (s : State) (w : Work) (z' : ZoneId) :
    (s.leave w).zone z' = s.zone z' := rfl
@[simp] theorem State.table_leave (s : State) (w : Work) (t' : TableId) :
    (s.leave w).table t' = s.table t' := rfl
@[simp] theorem State.tally_leave (s : State) (w : Work) (x : Tally) :
    (s.leave w).tally x = s.tally x := rfl
@[simp] theorem State.station_bump (s : State) (t : Tally) (st' : StationId) :
    (s.bump t).station st' = s.station st' := rfl
@[simp] theorem State.zone_bump (s : State) (t : Tally) (z' : ZoneId) :
    (s.bump t).zone z' = s.zone z' := rfl
@[simp] theorem State.table_bump (s : State) (t : Tally) (t' : TableId) :
    (s.bump t).table t' = s.table t' := rfl

/-! ### Tallies (R11) -/

/-- The place of each tally as a number. -/
theorem Tally.index_val (t : Tally) : t.index.val = (match t with
    | .answers => 0
    | .strayPosts => 1
    | .timeSteps => 2
    | .pulseLosses => 3
    | .sheds => 4
    | .revocations => 5
    | .sweepEnds => 6
    | .recalibrations => 7
    | .stageFaults => 8
    | .zoneChanges z => 9 + z.val
    | .exposures z => 13 + z.val
    | .axisFaults st => 17 + st.val
    | .linkLosses st => 33 + st.val
    | .bookEvents st => 49 + st.val
    | .heatFaults st => 65 + st.val
    | .tagChanges st => 81 + st.val
    | .panelLosses st => 97 + st.val) := by
  cases t <;> rfl

/-- No two tallies share a place (R197). -/
theorem Tally.index_injective {x y : Tally} (h : x.index = y.index) : x = y := by
  have e := congrArg Fin.val h
  rw [Tally.index_val, Tally.index_val] at e
  cases x <;> cases y <;> first
    | rfl
    | exact congrArg _ (Fin.ext (by simp only at e; omega))
    | (exfalso; simp only at e; omega)

/-- One increment adds one to its tally and changes no other (R11). -/
@[simp] theorem State.tally_bump (s : State) (t x : Tally) :
    (s.bump t).tally x = if t = x then s.tally t + 1 else s.tally x := by
  by_cases h : t = x
  · subst h
    simp [State.tally, State.bump]
  · have h' : t.index ≠ x.index := fun e => h (Tally.index_injective e)
    have h'' : t.index.val ≠ x.index.val := fun e => h' (Fin.ext e)
    simp [State.tally, State.bump, h, h'']

/-! ### What an event publishes -/

@[simp] theorem State.publish_mem (s t : State) :
    (s.publish t).mem = Status.rewrite s.regions t.regions t.mem := rfl

@[simp] theorem State.publish_pending (s t : State) : (s.publish t).pending = t.pending := rfl
@[simp] theorem State.publish_tallies (s t : State) : (s.publish t).tallies = t.tallies := rfl
@[simp] theorem State.publish_exchange (s t : State) : (s.publish t).exchange = t.exchange := rfl
@[simp] theorem State.publish_time (s t : State) : (s.publish t).time = t.time := rfl
@[simp] theorem State.publish_power (s t : State) : (s.publish t).power = t.power := rfl
@[simp] theorem State.publish_sensing (s t : State) : (s.publish t).sensing = t.sensing := rfl
@[simp] theorem State.publish_tables (s t : State) : (s.publish t).tables = t.tables := rfl
@[simp] theorem State.publish_zones (s t : State) : (s.publish t).zones = t.zones := rfl
@[simp] theorem State.publish_stations (s t : State) : (s.publish t).stations = t.stations := rfl
@[simp] theorem State.publish_lines (s t : State) : (s.publish t).lines = t.lines := rfl
@[simp] theorem State.publish_panelLine (s t : State) : (s.publish t).panelLine = t.panelLine := rfl
@[simp] theorem State.publish_work (s t : State) : (s.publish t).work = t.work := rfl
@[simp] theorem State.publish_entering (s t : State) : (s.publish t).entering = t.entering := rfl
@[simp] theorem State.publish_freeCount (s t : State) : (s.publish t).freeCount = t.freeCount := rfl
@[simp] theorem State.station_publish (s t : State) (x : StationId) :
    (s.publish t).station x = t.station x := rfl
@[simp] theorem State.zone_publish (s t : State) (x : ZoneId) :
    (s.publish t).zone x = t.zone x := rfl
@[simp] theorem State.table_publish (s t : State) (x : TableId) :
    (s.publish t).table x = t.table x := rfl
@[simp] theorem State.tally_publish (s t : State) (x : Tally) :
    (s.publish t).tally x = t.tally x := rfl

/-- No region is rewritten where none has changed. -/
theorem Status.rewrite_self (l : List (Nat × List Byte)) (m : Mem) : Status.rewrite l l m = m := by
  induction l with
  | nil => rfl
  | cons x l ih => simp [Status.rewrite, ih]

/-- An event that changes nothing the status areas show publishes nothing (R2). -/
theorem State.publish_eq {s t : State} (h : t.regions = s.regions) : s.publish t = t := by
  simp [State.publish, h, Status.rewrite_self]

/-- A command whose meaning is one event answers a next state. -/
@[simp] theorem event_eq (s : State) (f : State → State) : event s f = .next (s.publish (f s)) := rfl

/-- A change made for each member of a list, taken apart. -/
@[simp] theorem eachOf_nil {α : Type} (f : α → State → State) (s : State) : eachOf [] f s = s := rfl

@[simp] theorem eachOf_cons {α : Type} (x : α) (l : List α) (f : α → State → State) (s : State) :
    eachOf (x :: l) f s = eachOf l f (f x s) := rfl

end Sys2Proof.Machine
end

