-- ==== Sys2Proof/Laws/Memory.lean ====
section
/-! SUPPORT. What the operations on exchange memory do: a read after a store, the canonical form kept by
every one of them, and the same of a host's writes, of a tally's increment, of an answer and of what
an event publishes. -/

namespace Sys2Proof.Machine

/-! ### Reads -/

/-- An address that no cell has reads as unwritten memory. -/
theorem Memory.read_absent {m : Mem} {a : Nat} (h : ∀ c ∈ m, c.1 ≠ a) :
    Memory.read m a = Memory.unwritten := by
  induction m with
  | nil => rfl
  | cons c m ih =>
    obtain ⟨k, v⟩ := c
    have hk : k ≠ a := h (k, v) (by simp)
    simp only [Memory.read, if_neg hk]
    exact ih fun c hc => h c (by simp [hc])

/-- A read passes over cells that do not have its address. -/
theorem Memory.read_append_right {l m : Mem} {a : Nat} (h : ∀ c ∈ l, c.1 ≠ a) :
    Memory.read (l ++ m) a = Memory.read m a := by
  induction l with
  | nil => rfl
  | cons c l ih =>
    obtain ⟨k, v⟩ := c
    have hk : k ≠ a := h (k, v) (by simp)
    simp only [List.cons_append, Memory.read, if_neg hk]
    exact ih fun c hc => h c (by simp [hc])

/-- A read ends before cells that do not have its address. -/
theorem Memory.read_append_left {l m : Mem} {a : Nat} (h : ∀ c ∈ m, c.1 ≠ a) :
    Memory.read (l ++ m) a = Memory.read l a := by
  induction l with
  | nil => simpa [Memory.read] using Memory.read_absent h
  | cons c l ih =>
    obtain ⟨k, v⟩ := c
    simp only [List.cons_append, Memory.read]
    split <;> simp [ih]

/-- A read at an address that a filter on addresses keeps. -/
theorem Memory.read_filter {m : Mem} {a : Nat} (p : Nat → Bool) (h : p a = true) :
    Memory.read (m.filter (fun c => p c.1)) a = Memory.read m a := by
  induction m with
  | nil => rfl
  | cons c m ih =>
    obtain ⟨k, v⟩ := c
    by_cases hp : p k = true
    · simp only [List.filter_cons, hp, if_true, Memory.read, ih]
    · have hk : k ≠ a := fun e => hp (e ▸ h)
      simp only [List.filter_cons, hp, Memory.read, if_neg hk]
      exact ih

/-- The cells of a run of bytes lie in the run and are not unwritten. -/
theorem Memory.mem_cells {base : Nat} {l : List Byte} {c : Host.Cell}
    (h : c ∈ Memory.cells base l) :
    base ≤ c.1 ∧ c.1 < base + l.length ∧ c.2 ≠ Memory.unwritten := by
  induction l generalizing base with
  | nil => simp [Memory.cells] at h
  | cons x l ih =>
    simp only [Memory.cells] at h
    simp only [List.length_cons]
    split at h
    · obtain ⟨h1, h2, h3⟩ := ih h
      exact ⟨by omega, by omega, h3⟩
    · rcases List.mem_cons.1 h with rfl | h
      · exact ⟨Nat.le_refl _, by simp, ‹_›⟩
      · obtain ⟨h1, h2, h3⟩ := ih h
        exact ⟨by omega, by omega, h3⟩

/-- A run of bytes reads back from its cells. -/
theorem Memory.read_cells {base i : Nat} {l : List Byte} (h : i < l.length) :
    Memory.read (Memory.cells base l) (base + i) = l[i] := by
  induction l generalizing base i with
  | nil => simp at h
  | cons x l ih =>
    have absent : ∀ c ∈ Memory.cells (base + 1) l, c.1 ≠ base := fun c hc => by
      have := Memory.mem_cells hc; omega
    simp only [Memory.cells]
    cases i with
    | zero =>
      split
      · rename_i hx
        simpa [hx] using Memory.read_absent absent
      · simp [Memory.read]
    | succ i =>
      have e : base + (i + 1) = base + 1 + i := by omega
      have hi : i < l.length := by simpa using h
      split
      · rw [e, ih hi]; rfl
      · rw [e, Memory.read, if_neg (by omega), ih hi]; rfl

/-- A stored byte reads back. -/
theorem Memory.read_store_inside {m : Mem} {base i : Nat} {l : List Byte} (h : i < l.length) :
    Memory.read (Memory.store m base l) (base + i) = l[i] := by
  unfold Memory.store
  rw [Memory.read_append_left fun c hc => by
      simp only [List.mem_filter, decide_eq_true_eq] at hc; omega,
    Memory.read_append_right fun c hc => by
      simp only [List.mem_filter, decide_eq_true_eq] at hc; omega]
  exact Memory.read_cells h

/-- A store leaves every other byte as it was. -/
theorem Memory.read_store_outside {m : Mem} {base a : Nat} {l : List Byte}
    (h : a < base ∨ base + l.length ≤ a) :
    Memory.read (Memory.store m base l) a = Memory.read m a := by
  unfold Memory.store
  rcases h with h | h
  · rw [Memory.read_append_left fun c hc => by
        simp only [List.mem_filter, decide_eq_true_eq] at hc; omega,
      Memory.read_append_left fun c hc => by
        have := Memory.mem_cells hc; omega]
    exact Memory.read_filter (fun k => decide (k < base)) (by simpa using h)
  · rw [Memory.read_append_right fun c hc => by
        rcases List.mem_append.1 hc with hc | hc
        · simp only [List.mem_filter, decide_eq_true_eq] at hc; omega
        · have := Memory.mem_cells hc; omega]
    exact Memory.read_filter (fun k => decide (base + l.length ≤ k)) (by simpa using h)

/-- The bytes that a store leaves in its run. -/
theorem Memory.bytes_store_inside {m : Mem} {base n i : Nat} {l : List Byte}
    (h : i + n ≤ l.length) :
    Memory.bytes (Memory.store m base l) (base + i) n = (l.drop i).take n := by
  induction n generalizing i with
  | zero => simp [Memory.bytes]
  | succ n ih =>
    have hi : i < l.length := by omega
    rw [List.drop_eq_getElem_cons hi, List.take_succ_cons, Memory.bytes,
      Memory.read_store_inside hi, show base + i + 1 = base + (i + 1) by omega, ih (by omega)]

/-- The bytes of a run that read the same in two memories. -/
theorem Memory.bytes_congr {m m' : Mem} {a n : Nat}
    (h : ∀ b, a ≤ b → b < a + n → Memory.read m' b = Memory.read m b) :
    Memory.bytes m' a n = Memory.bytes m a n := by
  induction n generalizing a with
  | zero => rfl
  | succ n ih =>
    simp only [Memory.bytes]
    rw [h a (by omega) (by omega), ih fun b _ _ => h b (by omega) (by omega)]

/-! ### The canonical form -/

theorem Memory.cells_pairwise (base : Nat) (l : List Byte) :
    (Memory.cells base l).Pairwise (fun c d => c.1 < d.1) := by
  induction l generalizing base with
  | nil => simp [Memory.cells]
  | cons x l ih =>
    simp only [Memory.cells]
    split
    · exact ih _
    · refine List.pairwise_cons.2 ⟨fun c hc => ?_, ih _⟩
      have := Memory.mem_cells hc
      show base < c.1
      omega

/-- A store inside exchange memory keeps the canonical form. -/
theorem Memory.wf_store {m : Mem} {base : Nat} {l : List Byte} (h : Memory.wf m)
    (hb : base + l.length ≤ Memory.size) : Memory.wf (Memory.store m base l) := by
  obtain ⟨hp, hm⟩ := h
  unfold Memory.store
  refine ⟨List.pairwise_append.2 ⟨List.pairwise_append.2 ⟨hp.filter _,
    Memory.cells_pairwise _ _, fun c hc d hd => ?_⟩, hp.filter _, fun c hc d hd => ?_⟩,
    fun c hc => ?_⟩
  · have := Memory.mem_cells hd
    simp only [List.mem_filter, decide_eq_true_eq] at hc; omega
  · simp only [List.mem_filter, decide_eq_true_eq] at hd
    rcases List.mem_append.1 hc with hc | hc
    · simp only [List.mem_filter, decide_eq_true_eq] at hc; omega
    · have := Memory.mem_cells hc; omega
  · rcases List.mem_append.1 hc with hc | hc
    · rcases List.mem_append.1 hc with hc | hc
      · exact hm c (List.mem_filter.1 hc).1
      · have := Memory.mem_cells hc; exact ⟨by omega, this.2.2⟩
    · exact hm c (List.mem_filter.1 hc).1

@[simp] theorem Bytes.length_ofNat (n x : Nat) : (Bytes.ofNat n x).length = n := by
  induction n generalizing x with
  | zero => rfl
  | succ n ih => simp [Bytes.ofNat, ih]

@[simp] theorem Status.length_region (n : Nat) (l : List Byte) :
    (Status.region n l).length = n := by
  simp [Status.region]

theorem Tally.address_bound (t : Tally) :
    Layout.tallies ≤ t.address ∧ t.address + 2 ≤ Layout.tallies + Layout.tallyArea := by
  have := t.index.isLt
  unfold Tally.address Layout.tallyArea
  omega

/-! ### The named operations -/

/-- A host's writes keep the canonical form (R1). -/
theorem State.wf_hostStore (l : List (BitVec 18 × Byte)) (s : State) (h : Memory.wf s.mem) :
    Memory.wf (s.hostStore l).mem := by
  induction l generalizing s with
  | nil => exact h
  | cons x l ih =>
    obtain ⟨a, b⟩ := x
    refine ih _ (Memory.wf_store h ?_)
    have := a.isLt
    simp only [List.length_cons, List.length_nil, Memory.size]
    omega

/-- An increment of a tally writes its two bytes alone (R11). -/
theorem State.read_bump {s : State} {t : Tally} {a : Nat}
    (h : a < t.address ∨ t.address + 2 ≤ a) :
    Memory.read (s.bump t).mem a = Memory.read s.mem a :=
  Memory.read_store_outside (by simpa using h)

/-- Outside the tally area an increment of a tally changes no byte. -/
theorem State.read_bump_outside {s : State} {t : Tally} {a : Nat}
    (h : a < Layout.tallies ∨ Layout.tallies + Layout.tallyArea ≤ a) :
    Memory.read (s.bump t).mem a = Memory.read s.mem a := by
  have := t.address_bound
  exact State.read_bump (by omega)

theorem State.wf_bump {s : State} {t : Tally} (h : Memory.wf s.mem) :
    Memory.wf (s.bump t).mem := by
  refine Memory.wf_store h ?_
  have := t.address_bound
  simp only [Bytes.length_ofNat, Memory.size, Layout.tallies, Layout.tallyArea] at *
  omega

theorem Layout.page_bound (p : PageId) : 0x10000 ≤ Layout.page p ∧ Layout.page p + 256 ≤ 0x12000 := by
  have := p.isLt
  unfold Layout.page
  omega

/-! ### Answers (R8) -/

@[simp] theorem State.answer_pending (s : State) (p : PageId) (r : Result) (d : List Byte) :
    (s.answer p r d).pending = s.pending := rfl
@[simp] theorem State.answer_time (s : State) (p : PageId) (r : Result) (d : List Byte) :
    (s.answer p r d).time = s.time := rfl
@[simp] theorem State.answer_power (s : State) (p : PageId) (r : Result) (d : List Byte) :
    (s.answer p r d).power = s.power := rfl
@[simp] theorem State.answer_sensing (s : State) (p : PageId) (r : Result) (d : List Byte) :
    (s.answer p r d).sensing = s.sensing := rfl
@[simp] theorem State.answer_tables (s : State) (p : PageId) (r : Result) (d : List Byte) :
    (s.answer p r d).tables = s.tables := rfl
@[simp] theorem State.answer_zones (s : State) (p : PageId) (r : Result) (d : List Byte) :
    (s.answer p r d).zones = s.zones := rfl
@[simp] theorem State.answer_stations (s : State) (p : PageId) (r : Result) (d : List Byte) :
    (s.answer p r d).stations = s.stations := rfl
@[simp] theorem State.answer_lines (s : State) (p : PageId) (r : Result) (d : List Byte) :
    (s.answer p r d).lines = s.lines := rfl
@[simp] theorem State.answer_panelLine (s : State) (p : PageId) (r : Result) (d : List Byte) :
    (s.answer p r d).panelLine = s.panelLine := rfl
@[simp] theorem State.answer_work (s : State) (p : PageId) (r : Result) (d : List Byte) :
    (s.answer p r d).work = s.work := rfl
@[simp] theorem State.answer_entering (s : State) (p : PageId) (r : Result) (d : List Byte) :
    (s.answer p r d).entering = s.entering := rfl
@[simp] theorem State.answer_freeCount (s : State) (p : PageId) (r : Result) (d : List Byte) :
    (s.answer p r d).freeCount = s.freeCount := rfl
@[simp] theorem State.answer_exchange (s : State) (p : PageId) (r : Result) (d : List Byte) :
    (s.answer p r d).exchange =
      { s.exchange with summary := s.exchange.summary ||| 0x001, inFlight := none } := rfl
@[simp] theorem State.station_answer (s : State) (p : PageId) (r : Result) (d : List Byte)
    (x : StationId) : (s.answer p r d).station x = s.station x := rfl
@[simp] theorem State.zone_answer (s : State) (p : PageId) (r : Result) (d : List Byte)
    (x : ZoneId) : (s.answer p r d).zone x = s.zone x := rfl
@[simp] theorem State.table_answer (s : State) (p : PageId) (r : Result) (d : List Byte)
    (x : TableId) : (s.answer p r d).table x = s.table x := rfl
@[simp] theorem State.tally_answer (s : State) (p : PageId) (r : Result) (d : List Byte)
    (x : Tally) :
    (s.answer p r d).tally x =
      if Tally.answers = x then s.tally .answers + 1 else s.tally x := by
  unfold State.answer
  simp

/-- An answer writes the result code and data and the state word of its page, and a tally (R8). -/
theorem State.read_answer {s : State} {p : PageId} {r : Result} {d : List Byte} {a : Nat}
    (hp : a < Layout.page p ∨ Layout.page p + 4 ≤ a ∧ a < Layout.page p + 8 ∨
      Layout.page p + 28 ≤ a)
    (ht : a < Layout.tallies ∨ Layout.tallies + Layout.tallyArea ≤ a) :
    Memory.read (s.answer p r d).mem a = Memory.read s.mem a := by
  unfold State.answer
  simp only [State.modExchange_mem]
  rw [State.read_bump_outside ht]
  simp only [State.store]
  rw [Memory.read_store_outside (by simp [Status.word]; omega),
    Memory.read_store_outside (by simp [Status.word]; omega)]

theorem State.wf_answer {s : State} {p : PageId} {r : Result} {d : List Byte}
    (h : Memory.wf s.mem) : Memory.wf (s.answer p r d).mem := by
  have hp := Layout.page_bound p
  refine State.wf_bump (Memory.wf_store (Memory.wf_store h ?_) ?_) <;>
    simp [Status.word, Memory.size] <;> omega

/-! ### What an event publishes (R2) -/

@[simp] theorem Status.length_station (x : Station) (r f : Nat) (z : ZoneState) (e : Bool) :
    (Status.station x r f z e).length = 512 := by
  unfold Status.station
  rw [Status.length_region]

@[simp] theorem Status.length_timeUnit (t : TimeUnit) : (Status.timeUnit t).length = 32 := by
  unfold Status.timeUnit
  rw [Status.length_region]

@[simp] theorem Status.length_sensing (w : Sensing) : (Status.sensing w).length = 32 := by
  unfold Status.sensing
  rw [Status.length_region]

@[simp] theorem Status.length_power (p : Power) : (Status.power p).length = 448 := by
  unfold Status.power
  rw [Status.length_region]

@[simp] theorem Status.length_zone (z : Zone) : (Status.zone z).length = 80 := by
  unfold Status.zone
  rw [Status.length_region]

@[simp] theorem Status.length_table (t : SweepTable) : (Status.table t).length = 96 := by
  unfold Status.table
  rw [Status.length_region]

@[simp] theorem Status.length_stage (g : Option Stage) : (Status.stage g).length = 64 := by
  unfold Status.stage
  rw [Status.length_region]

/-- Every status region of a state lies in the status areas. -/
theorem State.regions_bound {s : State} {r : Nat × List Byte} (h : r ∈ s.regions) :
    0x13000 ≤ r.1 ∧ r.1 + r.2.length ≤ Layout.tallies ∨
      Layout.tallies + Layout.tallyArea ≤ r.1 ∧ r.1 + r.2.length ≤ 0x15C00 := by
  simp only [State.regions, Status.regions, Status.stationRegion, List.mem_append, List.mem_map,
    List.mem_cons, List.not_mem_nil, or_false] at h
  simp only [Layout.tallies, Layout.tallyArea]
  rcases h with ((((rfl | rfl | rfl) | ⟨z, -, rfl⟩) | ⟨t, -, rfl⟩) | ⟨st, -, rfl⟩) | ⟨i, -, rfl⟩
  · simp
  · simp
  · simp
  · have := z.isLt; simp; omega
  · have := t.isLt; simp; omega
  · have := st.isLt; simp [Layout.stationStatus]; omega
  · have := i.isLt; simp [Layout.stageStatus]; omega

/-- A rewriting of regions leaves the bytes outside them. -/
theorem Status.read_rewrite {olds news : List (Nat × List Byte)} {m : Mem} {a : Nat}
    (h : ∀ r ∈ news, a < r.1 ∨ r.1 + r.2.length ≤ a) :
    Memory.read (Status.rewrite olds news m) a = Memory.read m a := by
  induction olds generalizing news m with
  | nil => cases news <;> rfl
  | cons o olds ih =>
    cases news with
    | nil => rfl
    | cons n news =>
      simp only [Status.rewrite]
      rw [ih fun r hr => h r (by simp [hr])]
      split
      · rfl
      · exact Memory.read_store_outside (h n (by simp))

/-- What an event publishes leaves every byte outside the status areas (R2). -/
theorem State.read_publish {s t : State} {a : Nat} (h : ¬ Layout.isStatus a) :
    Memory.read (s.publish t).mem a = Memory.read t.mem a := by
  refine Status.read_rewrite fun r hr => ?_
  have := State.regions_bound hr
  unfold Layout.isStatus at h
  omega

theorem Status.wf_rewrite {olds news : List (Nat × List Byte)} {m : Mem} (hm : Memory.wf m)
    (h : ∀ r ∈ news, r.1 + r.2.length ≤ Memory.size) :
    Memory.wf (Status.rewrite olds news m) := by
  induction olds generalizing news m with
  | nil => cases news <;> exact hm
  | cons o olds ih =>
    cases news with
    | nil => exact hm
    | cons n news =>
      simp only [Status.rewrite]
      refine ih ?_ fun r hr => h r (by simp [hr])
      split
      · exact hm
      · exact Memory.wf_store hm (h n (by simp))

/-- What an event publishes keeps the canonical form. -/
theorem State.wf_publish {s t : State} (h : Memory.wf t.mem) : Memory.wf (s.publish t).mem := by
  refine Status.wf_rewrite h fun r hr => ?_
  have := State.regions_bound hr
  simp only [Layout.tallies, Layout.tallyArea, Memory.size] at *
  omega

theorem Status.wf_writeAll {l : List (Nat × List Byte)} {m : Mem} (hm : Memory.wf m)
    (h : ∀ r ∈ l, r.1 + r.2.length ≤ Memory.size) : Memory.wf (Status.writeAll l m) := by
  induction l generalizing m with
  | nil => exact hm
  | cons r l ih =>
    exact ih (Memory.wf_store hm (h r (by simp))) fun r' hr => h r' (by simp [hr])

/-- A full reset keeps the canonical form (R16). -/
theorem State.wf_afterReset {pending : List Instr} {mem : Mem} {fuses : StationId → Bool × Bool}
    {a b c : Bool} {n : Nat} (h : Memory.wf mem) :
    Memory.wf (State.afterReset pending mem fuses a b c n).mem := by
  unfold State.afterReset
  refine Status.wf_writeAll (Memory.wf_store h ?_) fun r hr => ?_
  · rw [List.length_replicate]
    decide
  · have := State.regions_bound (s := State.afterReset pending mem fuses a b c n) hr
    simp only [Layout.tallies, Layout.tallyArea, Memory.size] at *
    omega

end Sys2Proof.Machine
end

