-- ==== Sys2Proof/Laws/Power.lean ====
section
/-! SUPPORT. What one whole change of PB can do: no claimant comes to hold two entries, the granted total
stays within the budget in force, and a change of budget brings it back there (R90, R95 to R100). -/

namespace Sys2Proof.Machine

/-! ### The granted total under each update of the grant list -/

@[simp] theorem Grants.total_nil : Grants.total [] = 0 := rfl

@[simp] theorem Grants.total_cons (g : Grant) (l : List Grant) :
    Grants.total (g :: l) = g.watts + Grants.total l := by
  simp [Grants.total]

theorem Grants.total_append (l m : List Grant) :
    Grants.total (l ++ m) = Grants.total l + Grants.total m := by
  simp [Grants.total]

theorem Grants.total_sublist {l m : List Grant} (h : l.Sublist m) :
    Grants.total l ≤ Grants.total m := by
  induction h with
  | slnil => exact Nat.le_refl _
  | cons a _ ih => simp only [Grants.total_cons]; omega
  | cons_cons a _ ih => simp only [Grants.total_cons]; omega

theorem Grants.drop_sublist (c : Claimant) (l : List Grant) : (Grants.drop c l).Sublist l :=
  List.filter_sublist

/-- Removing a claimant's entry does not raise the total. -/
theorem Grants.total_drop (c : Claimant) (l : List Grant) :
    Grants.total (Grants.drop c l) ≤ Grants.total l :=
  Grants.total_sublist (Grants.drop_sublist c l)

/-- A claimant that does not hold an entry is not changed by setting its watts. -/
theorem Grants.map_absent {c : Claimant} {l : List Grant} (f : Grant → Grant)
    (h : c ∉ l.map Grant.claimant) :
    l.map (fun g => if g.claimant = c then f g else g) = l := by
  induction l with
  | nil => rfl
  | cons g l ih =>
    simp only [List.map_cons, List.mem_cons, not_or] at h
    rw [List.map_cons, if_neg (fun e => h.1 e.symm), ih h.2]

/-- What a claimant holds in a grant list. -/
def Grants.held (c : Claimant) (l : List Grant) : Nat :=
  match l.find? (fun g => g.claimant == c) with
  | none => 0
  | some g => g.watts

theorem Power.granted_eq (p : Power) (c : Claimant) : p.granted c = Grants.held c p.grants := rfl

theorem Grants.held_cons (c : Claimant) (g : Grant) (l : List Grant) :
    Grants.held c (g :: l) = if g.claimant = c then g.watts else Grants.held c l := by
  unfold Grants.held
  by_cases h : g.claimant = c <;> simp [h]

theorem Grants.held_absent {c : Claimant} {l : List Grant} (h : c ∉ l.map Grant.claimant) :
    Grants.held c l = 0 := by
  induction l with
  | nil => rfl
  | cons g l ih =>
    simp only [List.map_cons, List.mem_cons, not_or] at h
    rw [Grants.held_cons, if_neg (fun e => h.1 e.symm), ih h.2]

/-- One entry per claimant: a change of one claimant's watts changes the total by the difference. -/
theorem Grants.total_map {c : Claimant} {l : List Grant} (f : Grant → Nat)
    (hn : (l.map Grant.claimant).Nodup) (hc : c ∈ l.map Grant.claimant) :
    ∃ g ∈ l, g.claimant = c ∧ Grants.held c l = g.watts ∧
      Grants.total (l.map (fun g => if g.claimant = c then { g with watts := f g } else g)) +
        g.watts = Grants.total l + f g := by
  induction l with
  | nil => simp at hc
  | cons g l ih =>
    rw [List.map_cons, List.nodup_cons] at hn
    by_cases h : g.claimant = c
    · refine ⟨g, by simp, h, by rw [Grants.held_cons, if_pos h], ?_⟩
      rw [List.map_cons, if_pos h,
        Grants.map_absent (fun g => { g with watts := f g }) (h ▸ hn.1)]
      simp only [Grants.total_cons]
      omega
    · have hc' : c ∈ l.map Grant.claimant := by
        rcases List.mem_cons.1 hc with e | e
        · exact absurd e.symm h
        · exact e
      obtain ⟨g', hg, hcl, hh, ht⟩ := ih hn.2 hc'
      refine ⟨g', by simp [hg], hcl, by rw [Grants.held_cons, if_neg h, hh], ?_⟩
      rw [List.map_cons, if_neg h]
      simp only [Grants.total_cons]
      omega

theorem Grants.claimants_map (c : Claimant) (f : Grant → Grant) (l : List Grant)
    (h : ∀ g, (f g).claimant = g.claimant) :
    (l.map (fun g => if g.claimant = c then f g else g)).map Grant.claimant =
      l.map Grant.claimant := by
  rw [List.map_map]
  refine List.map_congr_left fun g _ => ?_
  show (if g.claimant = c then f g else g).claimant = g.claimant
  split <;> simp [h]

theorem Grants.nodup_drop {c : Claimant} {l : List Grant} (h : (l.map Grant.claimant).Nodup) :
    ((Grants.drop c l).map Grant.claimant).Nodup :=
  h.sublist ((Grants.drop_sublist c l).map _)

theorem Grants.nodup_set {c : Claimant} {w : Nat} {l : List Grant}
    (h : (l.map Grant.claimant).Nodup) : ((Grants.set c w l).map Grant.claimant).Nodup := by
  unfold Grants.set
  split
  · exact Grants.nodup_drop h
  · rw [Grants.claimants_map c (fun g => { g with watts := w }) l fun _ => rfl]
    exact h

/-- Setting a claimant's watts at or below what it holds does not raise the total (R92, R98). -/
theorem Grants.total_set {c : Claimant} {w : Nat} {l : List Grant}
    (hn : (l.map Grant.claimant).Nodup) (hw : w ≤ Grants.held c l) :
    Grants.total (Grants.set c w l) ≤ Grants.total l := by
  unfold Grants.set
  split
  · exact Grants.total_drop c l
  · by_cases hc : c ∈ l.map Grant.claimant
    · obtain ⟨g, -, -, hh, ht⟩ := Grants.total_map (fun _ => w) hn hc
      omega
    · rw [Grants.map_absent (fun g => { g with watts := w }) hc]

theorem Grants.nodup_raise {w : Waiting} {l : List Grant} (h : (l.map Grant.claimant).Nodup) :
    ((Grants.raise w l).map Grant.claimant).Nodup := by
  unfold Grants.raise
  split
  · rw [Grants.claimants_map w.claimant (fun g => { g with watts := g.watts + w.addition }) l
      fun _ => rfl]
    exact h
  · rename_i hany
    rw [List.map_append, List.nodup_append]
    refine ⟨h, by simp, fun a ha b hb => ?_⟩
    simp only [List.map_cons, List.map_nil, List.mem_singleton] at hb
    rintro rfl
    simp only [List.any_eq_true, not_exists, not_and, beq_iff_eq] at hany
    obtain ⟨g, hg, e⟩ := List.mem_map.1 ha
    exact hany g hg (e.trans hb)

/-- A further grant raises the total by its addition (R90, R95). -/
theorem Grants.total_raise {w : Waiting} {l : List Grant} (hn : (l.map Grant.claimant).Nodup) :
    Grants.total (Grants.raise w l) = Grants.total l + w.addition := by
  unfold Grants.raise
  split
  · rename_i hany
    simp only [List.any_eq_true, beq_iff_eq] at hany
    obtain ⟨g, hg, e⟩ := hany
    obtain ⟨g', -, -, -, ht⟩ := Grants.total_map (c := w.claimant)
      (fun g => g.watts + w.addition) hn (List.mem_map.2 ⟨g, hg, e⟩)
    omega
  · simp [Grants.total_append]

theorem Grants.total_convert (c : Claimant) (cls : ClaimClass) (l : List Grant) :
    Grants.total (Grants.convert c cls l) = Grants.total l := by
  induction l with
  | nil => rfl
  | cons g l ih =>
    simp only [Grants.convert, List.map_cons, Grants.total_cons] at ih ⊢
    rw [ih]
    split <;> rfl

theorem Grants.claimants_convert (c : Claimant) (cls : ClaimClass) (l : List Grant) :
    (Grants.convert c cls l).map Grant.claimant = l.map Grant.claimant :=
  Grants.claimants_map c (fun g => { g with cls := cls }) l fun _ => rfl

theorem Grants.held_convert (c d : Claimant) (cls : ClaimClass) (l : List Grant) :
    Grants.held d (Grants.convert c cls l) = Grants.held d l := by
  induction l with
  | nil => rfl
  | cons g l ih =>
    simp only [Grants.convert, List.map_cons] at ih ⊢
    rw [Grants.held_cons, Grants.held_cons, ih]
    by_cases h : g.claimant = c <;> simp [h]

/-! ### What a run does to PB -/

/-- What every part of a change keeps: the budgets, the alarm, one entry for each claimant, a granted
total within the budget in force; and it counts sheds and revocations alone. -/
structure PowerRun.Kept (r r' : PowerRun) : Prop where
  normal : r'.power.normal = r.power.normal
  emergency : r'.power.emergency = r.power.emergency
  alarm : r'.power.alarm = r.power.alarm
  single : Law.oneGrant r.power → Law.oneGrant r'.power
  within : Law.oneGrant r.power → r.power.total ≤ r.power.inForce →
    r'.power.total ≤ r'.power.inForce
  tallies : (∀ t ∈ r.tallies, t = .sheds ∨ t = .revocations) →
    ∀ t ∈ r'.tallies, t = .sheds ∨ t = .revocations

theorem PowerRun.Kept.refl (r : PowerRun) : PowerRun.Kept r r :=
  ⟨rfl, rfl, rfl, id, fun _ h => h, id⟩

theorem PowerRun.Kept.trans {a b c : PowerRun} (h : PowerRun.Kept a b) (k : PowerRun.Kept b c) :
    PowerRun.Kept a c :=
  ⟨k.normal.trans h.normal, k.emergency.trans h.emergency, k.alarm.trans h.alarm,
    fun x => k.single (h.single x), fun x y => k.within (h.single x) (h.within x y),
    fun x => k.tallies (h.tallies x)⟩

theorem PowerRun.Kept.inForce {a b : PowerRun} (h : PowerRun.Kept a b) :
    b.power.inForce = a.power.inForce := by
  simp only [Power.inForce, h.normal, h.emergency, h.alarm]

/-- A part that changes the lists alone, and does not raise the total. -/
theorem PowerRun.Kept.of_lists {r r' : PowerRun} (hn : r'.power.normal = r.power.normal)
    (he : r'.power.emergency = r.power.emergency) (ha : r'.power.alarm = r.power.alarm)
    (hs : Law.oneGrant r.power → Law.oneGrant r'.power)
    (ht : Law.oneGrant r.power → r'.power.total ≤ r.power.total)
    (hl : ∀ t ∈ r'.tallies, t ∈ r.tallies ∨ t = .sheds ∨ t = .revocations) :
    PowerRun.Kept r r' := by
  refine ⟨hn, he, ha, hs, fun h w => ?_, fun h t m => ?_⟩
  · have e : r'.power.inForce = r.power.inForce := by simp only [Power.inForce, hn, he, ha]
    have := ht h
    omega
  · rcases hl t m with k | k
    · exact h t k
    · exact k

theorem PowerRun.Kept.touch (r : PowerRun) (c : Claimant) : PowerRun.Kept r (r.touch c) :=
  .of_lists rfl rfl rfl id (fun _ => Nat.le_refl _) fun _ h => .inl h

theorem PowerRun.Kept.record (r : PowerRun) (e : PowerEvent) (t : Tally)
    (h : t = .sheds ∨ t = .revocations) : PowerRun.Kept r (r.record e t) := by
  refine .of_lists rfl rfl rfl id (fun _ => Nat.le_refl _) fun x hx => ?_
  rcases List.mem_append.1 hx with hx | hx
  · exact .inl hx
  · exact .inr (by simpa using (List.mem_singleton.1 hx) ▸ h)

theorem PowerRun.Kept.shed (now : Nat) (kind : PowerKind) (g : Grant) (r : PowerRun) :
    PowerRun.Kept r (r.shed now kind g) := by
  unfold PowerRun.shed
  refine .trans (.trans ?_ (.touch _ _)) (.record _ _ _ (.inl rfl))
  exact .of_lists rfl rfl rfl Grants.nodup_drop (fun _ => Grants.total_drop _ _) fun _ h => .inl h

theorem PowerRun.Kept.revokeWhole (now : Nat) (kind : PowerKind) (g : Grant) (r : PowerRun) :
    PowerRun.Kept r (r.revokeWhole now kind g) := by
  unfold PowerRun.revokeWhole
  refine .trans (.trans ?_ (.touch _ _)) (.record _ _ _ (.inr rfl))
  exact .of_lists rfl rfl rfl Grants.nodup_drop (fun _ => Grants.total_drop _ _) fun _ h => .inl h

/-- A granting round keeps the laws of the lists (R95, R96). -/
theorem PowerRun.Kept.round (now n : Nat) (r : PowerRun) : PowerRun.Kept r (r.round now n) := by
  induction n generalizing r with
  | zero => exact .refl r
  | succ n ih =>
    simp only [PowerRun.round]
    split
    · exact .refl r
    · rename_i w rest hw
      split
      · rename_i fits
        refine .trans ?_ (ih _)
        unfold PowerRun.grant
        refine .trans ?_ (.touch _ _)
        refine ⟨rfl, rfl, rfl, Grants.nodup_raise, fun h _ => ?_, id⟩
        show Grants.total (Grants.raise w r.power.grants) ≤ r.power.inForce
        rw [Grants.total_raise h]
        exact fits
      · split
        · split
          · exact .refl r
          · exact .trans (.shed now _ _ r) (ih _)
        · exact .refl r

/-! ### Revocation -/

theorem PowerRun.revokeStep_within (act : Grant → PowerRun → PowerRun) (l : List Grant)
    {r : PowerRun} (h : r.power.total ≤ r.power.inForce) : r.revokeStep act l = r := by
  cases l with
  | nil => rfl
  | cons g l => simp [PowerRun.revokeStep, h]

/-- A step of a revocation keeps what each of its actions keeps. -/
theorem PowerRun.Kept.revokeStep {act : Grant → PowerRun → PowerRun}
    (hact : ∀ g r, PowerRun.Kept r (act g r)) (l : List Grant) (r : PowerRun) :
    PowerRun.Kept r (r.revokeStep act l) := by
  induction l generalizing r with
  | nil => exact .refl r
  | cons g l ih =>
    simp only [PowerRun.revokeStep]
    split
    · exact .refl r
    · exact .trans (hact g r) (ih _)

theorem Grants.held_mem {g : Grant} {l : List Grant} (hn : (l.map Grant.claimant).Nodup)
    (h : g ∈ l) : Grants.held g.claimant l = g.watts := by
  induction l with
  | nil => simp at h
  | cons g' l ih =>
    rw [List.map_cons, List.nodup_cons] at hn
    rcases List.mem_cons.1 h with rfl | h
    · rw [Grants.held_cons, if_pos rfl]
    · have hne : g'.claimant ≠ g.claimant := fun e => hn.1 (List.mem_map.2 ⟨g, h, e.symm⟩)
      rw [Grants.held_cons, if_neg hne, ih hn.2 h]

theorem Grants.held_set_other {c d : Claimant} (w : Nat) {l : List Grant} (h : d ≠ c) :
    Grants.held d (Grants.set c w l) = Grants.held d l := by
  unfold Grants.set
  induction l with
  | nil => split <;> rfl
  | cons g l ih =>
    by_cases hc : g.claimant = c
    · have hd : g.claimant ≠ d := fun e => h (e.symm.trans hc)
      rw [Grants.held_cons, if_neg hd, ← ih]
      split
      · simp [Grants.drop, hc]
      · rw [List.map_cons, Grants.held_cons, if_pos hc, if_neg hd]
    · rw [Grants.held_cons, ← ih]
      split
      · simp only [Grants.drop, List.filter_cons, bne_iff_ne, ne_eq, hc, not_false_eq_true,
          if_true, Grants.held_cons]
      · rw [List.map_cons, Grants.held_cons, if_neg hc]

/-- The SLEW-minus-TRACK parts revoked keep the laws of the lists: each lowers a grant (R98). -/
theorem PowerRun.Kept.revokeSlews (now : Nat) (l : List Grant) (r : PowerRun)
    (hn : (l.map Grant.claimant).Nodup)
    (hl : ∀ g ∈ l, (r.power.claim g.claimant).track ≤ Grants.held g.claimant r.power.grants) :
    PowerRun.Kept r (r.revokeStep (PowerRun.revokeSlew now) l) := by
  induction l generalizing r with
  | nil => exact .refl r
  | cons g l ih =>
    simp only [PowerRun.revokeStep]
    split
    · exact .refl r
    · rw [List.map_cons, List.nodup_cons] at hn
      refine .trans ?_ (ih _ hn.2 fun g' h' => ?_)
      · unfold PowerRun.revokeSlew
        refine .trans (.trans ?_ (.touch _ _)) (.record _ _ _ (.inr rfl))
        exact .of_lists rfl rfl rfl Grants.nodup_set
          (fun h => Grants.total_set h (hl g (by simp))) fun _ h => .inl h
      · show (r.power.claim g'.claimant).track ≤
          Grants.held g'.claimant (Grants.set g.claimant _ r.power.grants)
        rw [Grants.held_set_other _ fun e => hn.1 (List.mem_map.2 ⟨g', h', e⟩)]
        exact hl g' (by simp [h'])

/-- What a step keeps whatever the lists hold: the budgets, the alarm and the kinds of tallies, and every
entry's claimant and class come from the list before. -/
theorem PowerRun.revokeSlews_base (now : Nat) (l : List Grant) (r : PowerRun) :
    let r' := r.revokeStep (PowerRun.revokeSlew now) l
    r'.power.normal = r.power.normal ∧ r'.power.emergency = r.power.emergency ∧
      r'.power.alarm = r.power.alarm ∧
      ((∀ t ∈ r.tallies, t = .sheds ∨ t = .revocations) →
        ∀ t ∈ r'.tallies, t = .sheds ∨ t = .revocations) ∧
      (∀ g ∈ r'.power.grants, ∃ g' ∈ r.power.grants, g'.cls = g.cls) ∧
      (Law.oneGrant r.power → Law.oneGrant r'.power) := by
  induction l generalizing r with
  | nil => exact ⟨rfl, rfl, rfl, id, fun g h => ⟨g, h, rfl⟩, id⟩
  | cons g l ih =>
    simp only [PowerRun.revokeStep]
    split
    · exact ⟨rfl, rfl, rfl, id, fun g h => ⟨g, h, rfl⟩, id⟩
    · obtain ⟨h1, h2, h3, h4, h5, h6⟩ := ih (r.revokeSlew now g)
      refine ⟨h1, h2, h3, fun h => h4 fun t ht => ?_, fun x hx => ?_,
        fun h => h6 (Grants.nodup_set h)⟩
      · rcases List.mem_append.1 (show t ∈ r.tallies ++ [Tally.revocations] from ht) with m | m
        · exact h t m
        · exact .inr (by simpa using m)
      · obtain ⟨y, hy, ey⟩ := h5 x hx
        have hy' : y ∈ Grants.set g.claimant (r.power.claim g.claimant).track r.power.grants := hy
        unfold Grants.set at hy'
        split at hy'
        · exact ⟨y, (List.mem_filter.1 hy').1, ey⟩
        · obtain ⟨z, hz, e⟩ := List.mem_map.1 hy'
          refine ⟨z, hz, ?_⟩
          rw [← ey, ← e]
          split <;> rfl

/-- A step that removes entries ends within the budget, or leaves no entry of those it may take. -/
theorem PowerRun.revokeStep_removes {act : Grant → PowerRun → PowerRun} (pred : Grant → Prop)
    (hact : ∀ g r, (act g r).power.grants = Grants.drop g.claimant r.power.grants)
    (l : List Grant) (r : PowerRun)
    (hl : ∀ g ∈ r.power.grants, pred g → g.claimant ∈ l.map Grant.claimant) :
    (r.revokeStep act l).power.grants.Sublist r.power.grants ∧
      ((r.revokeStep act l).power.total ≤ (r.revokeStep act l).power.inForce ∨
        ∀ g ∈ (r.revokeStep act l).power.grants, ¬ pred g) := by
  induction l generalizing r with
  | nil => exact ⟨List.Sublist.refl _, .inr fun g hg hp => by simpa using hl g hg hp⟩
  | cons g l ih =>
    simp only [PowerRun.revokeStep]
    split
    · exact ⟨List.Sublist.refl _, .inl ‹_›⟩
    · have e := hact g r
      have := ih (act g r) fun g' hg' hp => by
        rw [e] at hg'
        obtain ⟨h1, h2⟩ := List.mem_filter.1 hg'
        rcases List.mem_cons.1 (hl g' h1 hp) with h | h
        · simp [h] at h2
        · exact h
      refine ⟨this.1.trans ?_, this.2⟩
      rw [e]
      exact Grants.drop_sublist _ _

theorem PowerRun.newest_claimants (r : PowerRun) (f : Grant → Bool) {g : Grant}
    (h : g ∈ r.power.grants) (hf : f g = true) :
    g.claimant ∈ (r.newest f).map Grant.claimant :=
  List.mem_map_of_mem (List.mem_filter.2 ⟨List.mem_reverse.2 h, hf⟩)

theorem PowerRun.newest_nodup (r : PowerRun) (f : Grant → Bool) (h : Law.oneGrant r.power) :
    ((r.newest f).map Grant.claimant).Nodup := by
  unfold PowerRun.newest
  refine List.Nodup.sublist (List.filter_sublist.map _) ?_
  rw [List.map_reverse]
  exact List.nodup_reverse.2 h

/-- The second step of a revocation. -/
theorem PowerRun.Kept.revokeMoves (now : Nat) (r : PowerRun) :
    PowerRun.Kept r (r.revokeStep (PowerRun.revokeSlew now) (r.newest
      (fun g => g.cls == .move && decide ((r.power.claim g.claimant).track < g.watts)))) := by
  obtain ⟨h1, h2, h3, h4, -, h6⟩ := PowerRun.revokeSlews_base now (r.newest
    (fun g => g.cls == .move && decide ((r.power.claim g.claimant).track < g.watts))) r
  refine ⟨h1, h2, h3, h6, fun hs => ?_, h4⟩
  refine (PowerRun.Kept.revokeSlews now _ r (r.newest_nodup _ hs) fun g hg => ?_).within hs
  obtain ⟨hm, hf⟩ := List.mem_filter.1 hg
  simp only [Bool.and_eq_true, decide_eq_true_eq] at hf
  rw [Grants.held_mem hs (List.mem_reverse.1 hm)]
  omega

/-- A revocation keeps the laws of the lists and brings the granted total within the budget in force (R97
to R99). -/
theorem PowerRun.Kept.revoke (now : Nat) (r : PowerRun) :
    PowerRun.Kept r (r.revoke now) ∧ (r.revoke now).power.total ≤ (r.revoke now).power.inForce := by
  unfold PowerRun.revoke
  dsimp only
  generalize h1 : r.revokeStep (PowerRun.shed now .shedForBudget) _ = r1
  generalize h2 : r1.revokeStep (PowerRun.revokeSlew now) _ = r2
  generalize h3 : r2.revokeStep (PowerRun.revokeWhole now .wholeMove) _ = r3
  have k1 : PowerRun.Kept r r1 := h1 ▸ .revokeStep (fun g r => .shed now _ g r) _ r
  have k2 : PowerRun.Kept r1 r2 := h2 ▸ .revokeMoves now r1
  have k3 : PowerRun.Kept r2 r3 := h3 ▸ .revokeStep (fun g r => .revokeWhole now _ g r) _ r2
  have k4 := PowerRun.Kept.revokeStep (fun g r => .revokeWhole now .wholeStow g r)
    (r3.newest (fun g => g.cls == .stow)) r3
  refine ⟨k1.trans (k2.trans (k3.trans k4)), ?_⟩
  have s1 := PowerRun.revokeStep_removes (act := PowerRun.shed now .shedForBudget)
    (fun g => g.cls = .heat) (fun _ _ => rfl) (r.newest (fun g => g.cls == .heat)) r
    (fun g hg hp => r.newest_claimants _ hg (by simp [hp]))
  rw [h1] at s1
  by_cases w1 : r1.power.total ≤ r1.power.inForce
  · have e2 : r2 = r1 := by rw [← h2]; exact PowerRun.revokeStep_within _ _ w1
    have e3 : r3 = r2 := by rw [← h3]; exact PowerRun.revokeStep_within _ _ (e2 ▸ w1)
    rw [PowerRun.revokeStep_within _ _ (e3 ▸ e2 ▸ w1)]
    exact e3 ▸ e2 ▸ w1
  have n1 := s1.2.resolve_left w1
  have s2 := (PowerRun.revokeSlews_base now (r1.newest (fun g => g.cls == .move &&
    decide ((r1.power.claim g.claimant).track < g.watts))) r1).2.2.2.2.1
  rw [h2] at s2
  by_cases w2 : r2.power.total ≤ r2.power.inForce
  · have e3 : r3 = r2 := by rw [← h3]; exact PowerRun.revokeStep_within _ _ w2
    rw [PowerRun.revokeStep_within _ _ (e3 ▸ w2)]
    exact e3 ▸ w2
  have s3 := PowerRun.revokeStep_removes (act := PowerRun.revokeWhole now .wholeMove)
    (fun g => g.cls = .move) (fun _ _ => rfl) (r2.newest (fun g => g.cls == .move)) r2
    (fun g hg hp => r2.newest_claimants _ hg (by simp [hp]))
  rw [h3] at s3
  by_cases w3 : r3.power.total ≤ r3.power.inForce
  · rw [PowerRun.revokeStep_within _ _ w3]
    exact w3
  have n3 := s3.2.resolve_left w3
  have s4 := PowerRun.revokeStep_removes (act := PowerRun.revokeWhole now .wholeStow)
    (fun g => g.cls = .stow) (fun _ _ => rfl) (r3.newest (fun g => g.cls == .stow)) r3
    (fun g hg hp => r3.newest_claimants _ hg (by simp [hp]))
  rcases s4.2 with w4 | n4
  · exact w4
  · have none : (PowerRun.revokeStep (PowerRun.revokeWhole now .wholeStow)
        (r3.newest (fun g => g.cls == .stow)) r3).power.grants = [] := by
      refine List.eq_nil_iff_forall_not_mem.2 fun g hg => ?_
      have g3 := s4.1.subset hg
      obtain ⟨g', hg', e⟩ := s2 g (s3.1.subset g3)
      cases hc : g.cls with
      | stow => exact n4 g hg hc
      | move => exact n3 g g3 hc
      | heat => exact n1 g' hg' (e.trans hc)
    simp [Power.total, none]

/-! ### Taking claims, and one whole change -/

/-- Taking a drive claim keeps the laws of the lists: a grant is lowered to the watts wanted or left
(R92, R93). -/
theorem PowerRun.Kept.takeDrive (st : StationId) (claim : DriveClaim) (r : PowerRun) :
    PowerRun.Kept r (r.takeDrive st claim) := by
  unfold PowerRun.takeDrive
  dsimp only
  split
  · have k : PowerRun.Kept r { r with power := { r.power with
        grants := Grants.drop (.station st) r.power.grants,
        waiting := Waiting.drop (.station st) r.power.waiting,
        claims := r.power.claims.set st DriveClaim.none } } :=
      .of_lists rfl rfl rfl Grants.nodup_drop (fun _ => Grants.total_drop _ _) fun _ h => .inl h
    split
    · exact k
    · exact k.trans (.touch _ _)
  · split
    · rename_i hle
      have k : PowerRun.Kept r { r with power := { r.power with
          claims := r.power.claims.set st claim,
          grants := Grants.set (.station st) claim.wanted
            (Grants.convert (.station st) claim.cls r.power.grants),
          waiting := Waiting.drop (.station st) r.power.waiting } } := by
        refine .of_lists rfl rfl rfl (fun h => Grants.nodup_set ?_) (fun h => ?_) fun _ h => .inl h
        · rw [Grants.claimants_convert]; exact h
        · show Grants.total _ ≤ Grants.total _
          rw [← Grants.total_convert (.station st) claim.cls r.power.grants]
          refine Grants.total_set ?_ ?_
          · rw [Grants.claimants_convert]; exact h
          · rw [Grants.held_convert]; exact hle
      split
      · exact k
      · exact k.trans (.touch _ _)
    · refine .of_lists rfl rfl rfl (fun h => ?_) (fun _ => ?_) fun _ h => .inl h
      · show ((Grants.convert _ _ _).map _).Nodup
        rw [Grants.claimants_convert]; exact h
      · show Grants.total (Grants.convert _ _ _) ≤ _
        rw [Grants.total_convert]; exact Nat.le_refl _

theorem PowerRun.Kept.dropHeat (st : StationId) (area : Area) (r : PowerRun) :
    PowerRun.Kept r (r.dropHeat st area) := by
  unfold PowerRun.dropHeat
  dsimp only
  have k : PowerRun.Kept r { r with power := { r.power with
      grants := Grants.drop (.heater st area) r.power.grants,
      waiting := Waiting.drop (.heater st area) r.power.waiting } } :=
    .of_lists rfl rfl rfl Grants.nodup_drop (fun _ => Grants.total_drop _ _) fun _ h => .inl h
  split
  · exact k
  · exact k.trans (.touch _ _)

/-- All that one whole change of PB can do to its laws (R100): it keeps the budgets and the alarm, leaves
one entry for each claimant and a granted total within the budget in force, and counts sheds and
revocations alone; a change of budget brings the total back within the budget (R87). -/
theorem Power.change_kept (now : Nat) (w : Work) (p : Power) :
    PowerRun.Kept { power := p, tallies := [], touched := [] } (p.change now w) ∧
      (w = .budget → Law.oneGrant p → (p.change now w).power.total ≤ (p.change now w).power.inForce) := by
  unfold Power.change
  have key : ∀ r : PowerRun, PowerRun.Kept { power := p, tallies := [], touched := [] } r →
      PowerRun.Kept { power := p, tallies := [], touched := [] }
        (if (r.power.grants = p.grants ∧ r.power.waiting = p.waiting) ∧ w ≠ .budget then r
          else r.round now r.power.turns) := by
    intro r hr
    split
    · exact hr
    · exact hr.trans (.round now _ r)
  refine ⟨key _ ?_, ?_⟩
  · cases w with
    | drive st claim => exact .takeDrive st claim _
    | heat st area watts =>
      exact .of_lists rfl rfl rfl id (fun _ => Nat.le_refl _) fun _ h => .inl h
    | heatWithdraw st area => exact .dropHeat st area _
    | budget =>
      dsimp only
      split
      · exact (PowerRun.Kept.revoke now _).1
      · exact .refl _
    | awaiting st => exact .refl _
  · rintro rfl hs
    dsimp only
    rw [if_neg (by simp)]
    split
    · have k := PowerRun.Kept.revoke now { power := p, tallies := [], touched := [] }
      exact (PowerRun.Kept.round now _ _).within (k.1.single hs) k.2
    · exact (PowerRun.Kept.round now _ _).within hs (by dsimp only; omega)

end Sys2Proof.Machine
end

