-- ==== Sys2Proof/Laws/Kept.lean ====
section
/-! SUPPORT. What the settling of an event keeps: the relation `Kept` between the state before and the
state after, with what it says of each record, and the named updates that stand in it. -/

namespace Sys2Proof.Machine

/-! ### Axes -/

theorem AxisKept.refl (a : Axis) : AxisKept a a :=
  ⟨fun h => ⟨h, rfl, rfl, rfl, rfl⟩, .rfl, fun h => ⟨h, id, id, id⟩⟩

theorem AxisKept.trans {a b c : Axis} (h : AxisKept a b) (k : AxisKept b c) : AxisKept a c := by
  refine ⟨fun x => ?_, h.retired.trans k.retired, fun x => ?_⟩
  · obtain ⟨h1, h2, h3, h4, h5⟩ := h.faulted x
    obtain ⟨k1, k2, k3, k4, k5⟩ := k.faulted h1
    exact ⟨k1, k2.trans h2, k3.trans h3, k4.trans h4, k5.trans h5⟩
  · obtain ⟨h1, h2, h3, h4⟩ := h.still x
    obtain ⟨k1, k2, k3, k4⟩ := k.still h1
    exact ⟨k1, fun e => k2 (h2 e), fun e => k3 (h3 e), fun e => k4 (h4 e)⟩

/-- A new need changes nothing that settling keeps. -/
theorem AxisKept.need (a : Axis) (l : Level) : AxisKept a { a with need := l } :=
  ⟨fun h => ⟨h, rfl, rfl, rfl, rfl⟩, .rfl, fun h => ⟨h, id, id, id⟩⟩

/-- An axis that enters a state in which it does not move. -/
theorem AxisKept.of_still {a b : Axis} (h : a.state ≠ .faulted) (hr : a.state ≠ .retired)
    (hb : b.state.moving = false) (hw : b.state ≠ .retired) (hs : a.s = 0 → b.s = 0)
    (hh : b.hold = none) (hi : b.holdIdle = none) : AxisKept a b :=
  ⟨fun e => absurd e h, ⟨fun e => absurd e hr, fun e => absurd e hw⟩,
    fun _ => ⟨hb, hs, fun _ => hh, fun _ => hi⟩⟩

/-- An axis that brakes. -/
theorem AxisKept.braked {a : Axis} (h : a.state ≠ .faulted) (hr : a.state ≠ .retired) :
    AxisKept a a.brake :=
  .of_still h hr rfl (by rintro ⟨⟩) (fun _ => rfl) rfl rfl

/-- A moving axis may do anything but retire. -/
theorem AxisKept.of_moving {a b : Axis} (h : a.state.moving = true) (hw : b.state ≠ .retired) :
    AxisKept a b :=
  ⟨fun e => by simp [e, AxisState.moving] at h,
    ⟨fun e => by simp [e, AxisState.moving] at h, fun e => absurd e hw⟩,
    fun e => by simp [e] at h⟩

theorem AxisKept.examine (a : Axis) (ax : AxisId) (cfg : AxisConfig) (t : Target) (l : Link) :
    AxisKept a (a.examine ax cfg t l) := by
  unfold Axis.examine
  split
  · exact .refl a
  · rename_i h
    have hb : a.state = .braked := by
      by_contra e
      exact h (.inl e)
    have toAwaiting : AxisKept a a.toAwaiting :=
      .of_still (by simp [hb]) (by simp [hb]) rfl (by rintro ⟨⟩) id rfl rfl
    have toStowed : AxisKept a a.toStowed :=
      .of_still (by simp [hb]) (by simp [hb]) rfl (by rintro ⟨⟩) (fun _ => rfl) rfl rfl
    split
    · split
      · exact toStowed
      · exact toAwaiting
    · exact toAwaiting

theorem AxisKept.answerSource (a : Axis) (src : Source) (row n : Nat) :
    AxisKept a (a.answerSource src row n) := by
  unfold Axis.answerSource
  cases src <;> dsimp only
  case none =>
    split
    · exact .refl a
    · split <;> first
        | exact .refl a
        | (refine .of_moving ?_ (by rintro ⟨⟩); simp_all [AxisState.moving]; done)
        | (refine .braked ?_ ?_ <;> simp_all)
  all_goals
    split <;> first
      | exact .refl a
      | (refine .of_moving ?_ (by rintro ⟨⟩); simp_all [AxisState.moving]; done)
      | (refine .braked ?_ ?_ <;> simp_all)

theorem AxisKept.revoke (a : Axis) : AxisKept a a.revoke := by
  unfold Axis.revoke
  split
  · rename_i h
    exact .of_still (fun e => by simp [e, AxisState.powered] at h)
      (fun e => by simp [e, AxisState.powered] at h) rfl (by rintro ⟨⟩) (fun _ => rfl) rfl rfl
  · exact .refl a

theorem AxisKept.answerLevel (rises : Bool) (l : Level) (a : Axis) :
    AxisKept a (a.answerLevel rises l) := by
  unfold Axis.answerLevel
  split
  · split
    · exact .of_moving (by simp_all [AxisState.moving]) (by rintro ⟨⟩)
    · exact .refl a
  · split
    · exact .refl a
    · exact .of_moving (by simp_all [AxisState.moving]) (by rintro ⟨⟩)
  · exact .refl a

theorem AxisKept.stowNow (a : Axis) : AxisKept a a.stowNow := by
  unfold Axis.stowNow
  split <;> first
    | exact .refl a
    | (refine .of_moving ?_ (by rintro ⟨⟩); simp_all [AxisState.moving])

/-! ### Heater zones -/

theorem HeaterKept.refl (a : Heater) : HeaterKept a a :=
  ⟨rfl, rfl, rfl, rfl, rfl, rfl, rfl, rfl, rfl, rfl, rfl, rfl, rfl, id,
    fun _ => ⟨rfl, rfl, rfl, rfl, rfl, rfl⟩⟩

theorem HeaterKept.trans {a b c : Heater} (h : HeaterKept a b) (k : HeaterKept b c) :
    HeaterKept a c := by
  refine ⟨k.mode.trans h.mode, k.cls.trans h.cls, k.lastProbe.trans h.lastProbe,
    k.probeNamed.trans h.probeNamed, k.faultCount.trans h.faultCount,
    k.lastFault.trans h.lastFault, k.manual.trans h.manual, k.auto.trans h.auto,
    k.sensorMissing.trans h.sensorMissing, k.current.trans h.current,
    k.probeWindow.trans h.probeWindow, k.cooldown.trans h.cooldown, k.meltOff.trans h.meltOff,
    fun x => k.claims (h.claims x), fun x => ?_⟩
  obtain ⟨h1, h2, h3, h4, h5, h6⟩ := h.idle x
  obtain ⟨k1, k2, k3, k4, k5, k6⟩ := k.idle (by rw [h1]; exact x)
  exact ⟨k1.trans h1, k2.trans h2, k3.trans h3, k4.trans h4, k5.trans h5, k6.trans h6⟩

theorem HeaterKept.toEnergizing {a : Heater} (h : a.state.claims = true) :
    HeaterKept a a.toEnergizing :=
  ⟨rfl, rfl, rfl, rfl, rfl, rfl, rfl, rfl, rfl, rfl, rfl, rfl, rfl, fun _ => rfl,
    fun x => by simp [h] at x⟩

theorem HeaterKept.toShed {a : Heater} (h : a.state.claims = true) :
    HeaterKept a { a.stopRun with state := .shed } :=
  ⟨rfl, rfl, rfl, rfl, rfl, rfl, rfl, rfl, rfl, rfl, rfl, rfl, rfl, fun _ => rfl,
    fun x => by simp [h] at x⟩

theorem HeaterKept.tiltUsed (a : Heater) (b : Bool) : HeaterKept a { a with tiltUsed := b } :=
  ⟨rfl, rfl, rfl, rfl, rfl, rfl, rfl, rfl, rfl, rfl, rfl, rfl, rfl, id,
    fun _ => ⟨rfl, rfl, rfl, rfl, rfl, rfl⟩⟩

/-! ### Stations -/

theorem StationKept.refl (x : Station) : StationKept x x :=
  ⟨rfl, rfl, rfl, rfl, rfl, rfl, rfl, rfl, rfl, rfl, rfl, rfl, fun _ => .refl _, fun _ => .refl _,
    fun _ _ => Iff.rfl⟩

theorem StationKept.trans {x y z : Station} (h : StationKept x y) (k : StationKept y z) :
    StationKept x z := by
  refine ⟨k.cfg.trans h.cfg, k.link.trans h.link, k.demand.trans h.demand,
    k.validation.trans h.validation, k.lastHeat.trans h.lastHeat, k.tags.trans h.tags,
    k.sitePending.trans h.sitePending, k.lastLockout.trans h.lastLockout,
    k.panel.trans h.panel, k.fuse1.trans h.fuse1, k.fuse2.trans h.fuse2,
    k.retired.trans h.retired, fun ax => (h.axis ax).trans (k.axis ax),
    fun area => (h.heater area).trans (k.heater area), fun area e => ?_⟩
  have e' : (y.heater area).state = .probing := by
    rw [((h.heater area).idle (by rw [e]; rfl)).1, e]
  exact (k.probes area e').trans (h.probes area e)

/-- A change of axes, claim, target, shed order, books, hold and progress alone. -/
theorem StationKept.of_axes {x y : Station} (hc : y.cfg = x.cfg) (hl : y.link = x.link)
    (hd : y.demand = x.demand) (hv : y.validation = x.validation)
    (hh : y.lastHeat = x.lastHeat) (ht : y.tags = x.tags) (hp : y.sitePending = x.sitePending)
    (ho : y.lastLockout = x.lastLockout) (hn : y.panel = x.panel) (h1 : y.fuse1 = x.fuse1)
    (h2 : y.fuse2 = x.fuse2) (hr : y.retired = x.retired) (hrf : y.reflector = x.reflector)
    (hf : y.feed = x.feed) (hq : y.probeQueue = x.probeQueue) (haz : AxisKept x.az y.az)
    (hel : AxisKept x.el y.el) : StationKept x y := by
  refine ⟨hc, hl, hd, hv, hh, ht, hp, ho, hn, h1, h2, hr, fun ax => ?_, fun area => ?_,
    fun area _ => by rw [hq]⟩
  · cases ax
    · exact haz
    · exact hel
  · cases area
    · show HeaterKept x.reflector y.reflector
      rw [hrf]; exact .refl _
    · show HeaterKept x.feed y.feed
      rw [hf]; exact .refl _

theorem StationQuiet.refl (x : Station) : StationQuiet x x := ⟨rfl, rfl, rfl, rfl, rfl⟩

theorem StationQuiet.trans {x y z : Station} (h : StationQuiet x y) (k : StationQuiet y z) :
    StationQuiet x z :=
  ⟨k.bookA.trans h.bookA, k.bookB.trans h.bookB, k.lastBook.trans h.lastBook,
    k.hold.trans h.hold, k.progress.trans h.progress⟩

/-! ### Zones and tables -/

theorem ZoneKept.refl (x : Zone) : ZoneKept x x :=
  ⟨rfl, rfl, rfl, rfl, rfl, rfl, rfl, rfl, rfl, id, fun _ => ⟨rfl, rfl, rfl, rfl⟩⟩

theorem ZoneKept.trans {x y z : Zone} (h : ZoneKept x y) (k : ZoneKept y z) : ZoneKept x z := by
  refine ⟨k.cfg.trans h.cfg, k.speed.trans h.speed, k.gust.trans h.gust,
    k.gustStow.trans h.gustStow, k.blind.trans h.blind, k.causes.trans h.causes,
    k.order.trans h.order, k.blindTimer.trans h.blindTimer, k.members.trans h.members,
    fun e => k.stows (h.stows e), fun e => ?_⟩
  obtain ⟨h1, h2, h3, h4⟩ := h.other e
  obtain ⟨k1, k2, k3, k4⟩ := k.other (by rw [h1]; exact e)
  exact ⟨k1.trans h1, k2.trans h2, k3.trans h3, k4.trans h4⟩

/-- A zone that stows stays among the zones that stow. -/
theorem ZoneKept.stowsKept {x y : Zone} (h : ZoneKept x y) :
    y.state.stows = x.state.stows := by
  cases e : x.state.settles with
  | true =>
    have := h.stows e
    cases hx : x.state <;> cases hy : y.state <;>
      simp_all [ZoneState.settles, ZoneState.stows]
  | false => rw [(h.other e).1]

theorem TableKept.refl (free : Prop) (x : SweepTable) : TableKept free x x :=
  ⟨rfl, rfl, rfl, fun h => ⟨h, rfl, rfl⟩, fun _ => id, fun _ _ => rfl⟩

theorem TableKept.trans {free : Prop} {x y z : SweepTable} (h : TableKept free x y)
    (k : TableKept free y z) : TableKept free x z := by
  refine ⟨k.snapshot.trans h.snapshot, k.launch.trans h.launch, k.timeouts.trans h.timeouts,
    fun e => ?_, fun f e => k.running f (h.running f e), fun f e => ?_⟩
  · obtain ⟨h1, h2, h3⟩ := h.began e
    obtain ⟨k1, k2, k3⟩ := k.began h1
    exact ⟨k1, k2.trans h2, k3.trans h3⟩
  have e' := h.unused f e
  rw [k.unused f (by rw [e']; exact e), e']

/-! ### The whole state -/

variable {E : TableId → Prop} {Q : Prop}

theorem Kept.refl (s : State) : Kept E Q s s :=
  { pending := rfl, time := rfl, sensing := rfl, lines := rfl, panelLine := rfl, entering := rfl,
    freeCount := rfl, exchange := ⟨0, by simp⟩, normal := rfl, emergency := rfl, alarm := rfl,
    power := id, within := fun o h => ⟨o, h⟩, station := fun _ => .refl _, zone := fun _ => .refl _,
    table := fun _ => .refl _ _, tally := fun _ _ => rfl, zoneTally := fun _ _ => rfl,
    read := fun _ _ => rfl, wf := id, quiet := fun _ _ _ _ => ⟨.refl _, rfl⟩ }

theorem Kept.noTable {s t : State} (h : Kept E Q s t) (e : ∀ x, ¬ E x) (n : s.noTable) :
    t.noTable := fun x => by
  rw [(h.table x).unused (e x) (n x)]
  exact n x

theorem Kept.trans {s t u : State} (h : Kept E Q s t) (k : Kept E Q t u) : Kept E Q s u where
  pending := k.pending.trans h.pending
  time := k.time.trans h.time
  sensing := k.sensing.trans h.sensing
  lines := k.lines.trans h.lines
  panelLine := k.panelLine.trans h.panelLine
  entering := k.entering.trans h.entering
  freeCount := k.freeCount.trans h.freeCount
  exchange := by
    obtain ⟨a, ha⟩ := h.exchange
    obtain ⟨b, hb⟩ := k.exchange
    exact ⟨a ||| b, by rw [hb, ha]; simp [BitVec.or_assoc]⟩
  normal := k.normal.trans h.normal
  emergency := k.emergency.trans h.emergency
  alarm := k.alarm.trans h.alarm
  power := fun e => k.power (h.power e)
  within := fun e f => k.within (h.within e f).1 (h.within e f).2
  station := fun st => (h.station st).trans (k.station st)
  zone := fun z => (h.zone z).trans (k.zone z)
  table := fun x => (h.table x).trans (k.table x)
  tally := fun x e => (k.tally x e).trans (h.tally x e)
  zoneTally := fun z e =>
    (k.zoneTally z (by rw [((h.zone z).other e).1]; exact e)).trans (h.zoneTally z e)
  read := fun a e => (k.read a e).trans (h.read a e)
  wf := fun e => k.wf (h.wf e)
  quiet := fun q e n st =>
    ⟨(h.quiet q e n st).1.trans (k.quiet q e (h.noTable e n) st).1,
      (k.quiet q e (h.noTable e n) st).2.trans (h.quiet q e n st).2⟩

/-- Settling at its strongest stands in every weaker form. -/
theorem Kept.weaken {s t : State} (h : Kept (fun _ => False) True s t) : Kept E Q s t :=
  { h with
    table := fun x =>
      { snapshot := (h.table x).snapshot, launch := (h.table x).launch,
        timeouts := (h.table x).timeouts, began := (h.table x).began,
        running := fun _ => (h.table x).running id,
        unused := fun _ => (h.table x).unused id }
    quiet := fun _ _ => h.quiet trivial fun _ => id }

/-- The form without the books. -/
theorem Kept.forget {s t : State} (h : Kept E Q s t) : Kept E False s t :=
  { h with quiet := fun q => q.elim }

/-- The issue of one table's entries, seen from before the table was so far. -/
theorem Kept.close {s t : State} {x : TableId} (h : Kept (fun y => y = x) False s t)
    (hx : (s.table x).state.cancellable = true) (hr : (s.table x).state ≠ .running) :
    Kept (fun _ => False) Q s t :=
  { h with
    table := fun y =>
      { snapshot := (h.table y).snapshot, launch := (h.table y).launch,
        timeouts := (h.table y).timeouts, began := (h.table y).began,
        running := fun _ e => by
          by_cases hy : y = x
          · exact absurd (hy ▸ e) hr
          · exact (h.table y).running hy e
        unused := fun _ e => by
          by_cases hy : y = x
          · rw [hy] at e; rw [e] at hx; cases hx
          · exact (h.table y).unused hy e }
    quiet := fun _ _ n => by
      have := n x
      rw [hx] at this
      cases this }

/-! ### The named updates -/

/-- A change of one station's record. -/
theorem Kept.modStation {s : State} {st : StationId} {f : Station → Station}
    (h : StationKept (s.station st) (f (s.station st)))
    (q : Q → (∀ x, ¬ E x) → s.noTable → StationQuiet (s.station st) (f (s.station st))) :
    Kept E Q s (s.modStation st f) :=
  { Kept.refl (E := E) (Q := Q) s with
    station := fun st' => by
      rw [State.station_modStation]
      split
      · subst_vars; exact h
      · exact .refl _
    quiet := fun a b c st' => by
      rw [State.station_modStation]
      split
      · subst_vars; exact ⟨q a b c, rfl⟩
      · exact ⟨.refl _, rfl⟩ }

/-- A change of one zone's record. -/
theorem Kept.modZone {s : State} {z : ZoneId} {f : Zone → Zone}
    (h : ZoneKept (s.zone z) (f (s.zone z))) : Kept E Q s (s.modZone z f) :=
  { Kept.refl (E := E) (Q := Q) s with
    zone := fun z' => by
      rw [State.zone_modZone]
      split
      · subst_vars; exact h
      · exact .refl _
    zoneTally := fun _ _ => rfl
    quiet := fun _ _ _ _ => ⟨.refl _, rfl⟩ }

/-- A change of one table's record. -/
theorem Kept.modTable {s : State} {x : TableId} {f : SweepTable → SweepTable}
    (h : TableKept (E x) (s.table x) (f (s.table x))) : Kept E Q s (s.modTable x f) :=
  { Kept.refl (E := E) (Q := Q) s with
    table := fun y => by
      rw [State.table_modTable]
      split
      · subst_vars; exact h
      · exact .refl _ _
    quiet := fun _ _ _ _ => ⟨.refl _, rfl⟩ }

/-- An increment of a tally that settling may raise. -/
theorem Kept.bump {s : State} {x : Tally} (h : x.settles = true)
    (hz : ∀ z, x = .zoneChanges z → (s.zone z).state.settles = true)
    (hq : Q → (∀ y, ¬ E y) → s.noTable → ∀ st, x ≠ .bookEvents st) :
    Kept E Q s (s.bump x) :=
  { Kept.refl (E := E) (Q := Q) s with
    exchange := ⟨x.cls.bit, rfl⟩
    tally := fun y e => by
      rw [State.tally_bump, if_neg (fun k => by rw [k, e] at h; cases h)]
    zoneTally := fun z e => by
      rw [State.tally_bump, if_neg (fun k => by rw [hz z k] at e; cases e)]
    read := fun a e => State.read_bump_outside e
    wf := State.wf_bump
    quiet := fun a b c st =>
      ⟨.refl _, by rw [State.tally_bump, if_neg (hq a b c st)]⟩ }

/-- Work left for the settling. -/
theorem Kept.leave {s : State} (w : Work) : Kept E Q s (s.leave w) :=
  { Kept.refl (E := E) (Q := Q) s with
    power := fun h => ⟨h.1, h.2.imp id fun m => List.mem_append_left _ m⟩
    quiet := fun _ _ _ _ => ⟨.refl _, rfl⟩ }

/-- The mark of a zone whose entry is under way, and its return. -/
theorem Kept.ofEntering {s t : State} {o : Option ZoneId}
    (h : Kept E Q { s with entering := o } t) : Kept E Q s { t with entering := s.entering } :=
  { pending := h.pending, time := h.time, sensing := h.sensing, lines := h.lines,
    panelLine := h.panelLine, entering := rfl, freeCount := h.freeCount, exchange := h.exchange,
    normal := h.normal, emergency := h.emergency, alarm := h.alarm, power := h.power,
    within := h.within, station := h.station, zone := h.zone, table := h.table, tally := h.tally,
    zoneTally := h.zoneTally, read := h.read, wf := h.wf, quiet := h.quiet }

/-- A change made for each member of a list. -/
theorem Kept.eachOf {α : Type} {f : α → State → State} (l : List α)
    (h : ∀ a s, Kept E Q s (f a s)) (s : State) : Kept E Q s (eachOf l f s) := by
  induction l generalizing s with
  | nil => exact .refl s
  | cons a l ih => exact (h a s).trans (ih _)

end Sys2Proof.Machine
end

