-- ==== Sys2Proof/Laws/Cascade.lean ====
section
/-! SUPPORT. Every operation that settling runs stands in the relation `Kept`, given that what it hands to
PB is settled so; and so does settling itself. -/

namespace Sys2Proof.Machine

variable {E : TableId → Prop} {Q : Prop} {k : Settle}

/-! ### Claims (R77, R78) -/

theorem StationKept.reform (x : Station) : StationKept x x.reform :=
  .of_axes rfl rfl rfl rfl rfl rfl rfl rfl rfl rfl rfl rfl rfl rfl rfl (.need _ _) (.need _ _)

theorem Kept.formClaim (hk : ∀ s, Kept E Q s (k s)) (st : StationId) (s : State) :
    Kept E Q s (s.formClaim k st) := by
  unfold State.formClaim
  dsimp only
  have h : Kept E Q s (s.modStation st Station.reform) :=
    .modStation (.reform _) fun _ _ _ => ⟨rfl, rfl, rfl, rfl, rfl⟩
  split
  · exact h
  · exact (h.trans (.leave _)).trans (hk _)

theorem Kept.changeAxes (hk : ∀ s, Kept E Q s (k s)) {st : StationId} {f : Station → Station}
    {s : State} (h : StationKept (s.station st) (f (s.station st)))
    (q : StationQuiet (s.station st) (f (s.station st))) :
    Kept E Q s (s.changeAxes k st f) := by
  unfold State.changeAxes
  dsimp only
  have h1 := (Kept.modStation (E := E) (Q := Q) h fun _ _ _ => q).trans
    (.formClaim hk st (s.modStation st f))
  split
  · exact (h1.trans (.leave _)).trans (hk _)
  · exact h1

/-! ### Targets (R49, R50, R75, R181) -/

theorem StationKept.examine (x : Station) (ax : AxisId) : StationKept x (x.examine ax) := by
  cases ax
  · exact .of_axes rfl rfl rfl rfl rfl rfl rfl rfl rfl rfl rfl rfl rfl rfl rfl
      (.examine _ _ _ _ _) (.refl _)
  · exact .of_axes rfl rfl rfl rfl rfl rfl rfl rfl rfl rfl rfl rfl rfl rfl rfl (.refl _)
      (.examine _ _ _ _ _)

theorem StationQuiet.examine (x : Station) (ax : AxisId) : StationQuiet x (x.examine ax) := by
  cases ax <;> exact ⟨rfl, rfl, rfl, rfl, rfl⟩

theorem StationKept.examineBoth (x : Station) : StationKept x x.examineBoth :=
  (StationKept.examine x .az).trans (.examine _ .el)

theorem StationQuiet.examineBoth (x : Station) : StationQuiet x x.examineBoth :=
  (StationQuiet.examine x .az).trans (.examine _ .el)

/-- The two axes changed each in a way that settling keeps. -/
theorem StationKept.axes (x : Station) {f g : Axis → Axis} (hf : AxisKept x.az (f x.az))
    (hg : AxisKept x.el (g x.el)) : StationKept x { x with az := f x.az, el := g x.el } :=
  .of_axes rfl rfl rfl rfl rfl rfl rfl rfl rfl rfl rfl rfl rfl rfl rfl hf hg

theorem StationKept.answerSource (x : Station) (t : Target) (src : Source) (row : Nat) :
    StationKept x ({ x with target := t }.answerSource src row) := by
  have h : StationKept x { x with target := t } :=
    .of_axes rfl rfl rfl rfl rfl rfl rfl rfl rfl rfl rfl rfl rfl rfl rfl (.refl _) (.refl _)
  have h2 := h.trans (.axes _ (f := fun a => a.answerSource src row x.cfg.holdIdle)
    (g := fun a => a.answerSource src row x.cfg.holdIdle) (.answerSource _ _ _ _)
    (.answerSource _ _ _ _))
  unfold Station.answerSource
  dsimp only
  split
  · exact h2
  · exact h2.trans (.examineBoth _)

theorem StationQuiet.answerSource (x : Station) (t : Target) (src : Source) (row : Nat) :
    StationQuiet x ({ x with target := t }.answerSource src row) := by
  unfold Station.answerSource
  dsimp only
  split
  · exact ⟨rfl, rfl, rfl, rfl, rfl⟩
  · refine StationQuiet.trans ?_ (.examineBoth _)
    exact ⟨rfl, rfl, rfl, rfl, rfl⟩

theorem Kept.decideSource (hk : ∀ s, Kept E Q s (k s)) (st : StationId) (s : State) :
    Kept E Q s (s.decideSource k st) := by
  unfold State.decideSource
  dsimp only
  split
  · exact .refl s
  · exact .changeAxes hk (.answerSource _ _ _ _) (.answerSource _ _ _ _)

/-- An axis answers the change of source of a CONFIGURE_STATION. -/
theorem AxisKept.answerConfigured (a : Axis) (src : Source) (row n : Nat) :
    AxisKept a (if a.state = .stowed then a else a.answerSource src row n) := by
  split
  · exact .refl a
  · exact .answerSource _ _ _ _

theorem StationKept.answerConfigured (x : Station) (t : Target) (src : Source) (row : Nat) :
    StationKept x ({ x with target := t }.answerConfigured src row) := by
  have h : StationKept x { x with target := t } :=
    .of_axes rfl rfl rfl rfl rfl rfl rfl rfl rfl rfl rfl rfl rfl rfl rfl (.refl _) (.refl _)
  let answers (a : Axis) := if a.state = .stowed then a else a.answerSource src row x.cfg.holdIdle
  have h2 := h.trans (.axes _ (f := answers) (g := answers) (.answerConfigured _ _ _ _)
    (.answerConfigured _ _ _ _))
  unfold Station.answerConfigured
  dsimp only
  split
  · exact h2
  · exact h2.trans (.examineBoth _)

theorem StationQuiet.answerConfigured (x : Station) (t : Target) (src : Source) (row : Nat) :
    StationQuiet x ({ x with target := t }.answerConfigured src row) := by
  unfold Station.answerConfigured
  dsimp only
  split
  · exact ⟨rfl, rfl, rfl, rfl, rfl⟩
  · refine StationQuiet.trans ?_ (.examineBoth _)
    exact ⟨rfl, rfl, rfl, rfl, rfl⟩

theorem Kept.redecideSource (hk : ∀ s, Kept E Q s (k s)) (st : StationId) (s : State) :
    Kept E Q s (s.redecideSource k st) := by
  unfold State.redecideSource
  dsimp only
  split
  · exact .refl s
  · exact .changeAxes hk (.answerConfigured _ _ _ _) (.answerConfigured _ _ _ _)

theorem Kept.judgeShed (hk : ∀ s, Kept E Q s (k s)) (st : StationId) (s : State) :
    Kept E Q s (s.judgeShed k st) := by
  unfold State.judgeShed
  dsimp only
  split
  · exact .refl s
  · split
    · refine Kept.trans (.modStation ?_ fun _ _ _ => ⟨rfl, rfl, rfl, rfl, rfl⟩)
        (.decideSource hk st _)
      exact .of_axes rfl rfl rfl rfl rfl rfl rfl rfl rfl rfl rfl rfl rfl rfl rfl (.refl _)
        (.refl _)
    · refine Kept.trans (.modStation ?_ fun _ _ _ => ⟨rfl, rfl, rfl, rfl, rfl⟩)
        (.decideSource hk st _)
      refine ⟨rfl, rfl, rfl, rfl, rfl, rfl, rfl, rfl, rfl, rfl, rfl, rfl, fun ax => ?_,
        fun area => ?_, fun _ _ => Iff.rfl⟩
      · cases ax <;> exact .refl _
      · cases area
        · exact .tiltUsed _ _
        · exact .refl _

theorem Kept.inputChanged (hk : ∀ s, Kept E Q s (k s)) (st : StationId) (s : State) :
    Kept E Q s (s.inputChanged k st) :=
  (Kept.decideSource hk st s).trans (.judgeShed hk st _)

/-! ### Heater zones (R173, R178) -/

theorem Station.heater_modHeater (x : Station) (a b : Area) (f : Heater → Heater) :
    (x.modHeater a f).heater b = if a = b then f (x.heater a) else x.heater b := by
  cases a <;> cases b <;> rfl

/-- One heater zone changed in a way that settling keeps. -/
theorem StationKept.modHeater (x : Station) (area : Area) {f : Heater → Heater}
    (h : HeaterKept (x.heater area) (f (x.heater area))) :
    StationKept x (x.modHeater area f) := by
  refine ⟨?_, ?_, ?_, ?_, ?_, ?_, ?_, ?_, ?_, ?_, ?_, ?_, fun ax => ?_, fun b => ?_, fun b _ => ?_⟩
  case refine_14 =>
    rw [Station.heater_modHeater]
    split
    · subst_vars; exact h
    · exact .refl _
  all_goals cases area <;> first | rfl | exact .refl _

/-- A zone that claims, and goes on claiming, answers its grant. -/
theorem Kept.changeHeater (hk : ∀ s, Kept E Q s (k s)) {st : StationId} {area : Area}
    {f : Heater → Heater} {s : State}
    (hc : ((s.station st).heater area).state.claims = true)
    (hf : HeaterKept ((s.station st).heater area) (f ((s.station st).heater area))) :
    Kept E Q s (s.changeHeater k st area f) := by
  have hc' := hf.claims hc
  have hp : (f ((s.station st).heater area)).state ≠ .probing := by
    intro e; rw [e] at hc'; cases hc'
  have e1 : ((s.modHeater st area f).station st).heater area = f ((s.station st).heater area) := by
    simp [State.modHeater, Station.heater_modHeater]
  have h1 : Kept E Q s (s.modHeater st area f) :=
    .modStation (.modHeater _ _ hf) fun _ _ _ => by cases area <;> exact ⟨rfl, rfl, rfl, rfl, rfl⟩
  have h2 : Kept E Q (s.modHeater st area f) ((s.modHeater st area f).modStation st
      (fun x => { x with probeQueue := x.probeQueue.erase area })) := by
    refine .modStation ⟨rfl, rfl, rfl, rfl, rfl, rfl, rfl, rfl, rfl, rfl, rfl, rfl, fun ax => ?_,
      fun b => ?_, fun b hb => ?_⟩ fun _ _ _ => ⟨rfl, rfl, rfl, rfl, rfl⟩
    · cases ax <;> exact .refl _
    · cases b <;> exact .refl _
    · have hne : b ≠ area := by
        rintro rfl
        rw [e1] at hb
        exact hp hb
      exact List.mem_erase_of_ne hne
  unfold State.changeHeater
  dsimp only
  rw [e1]
  simp only [if_neg hp, hc, hc', Bool.not_true, Bool.and_false, Bool.false_and, if_false,
    Bool.false_eq_true]
  have h3 := h1.trans h2
  have key : ∀ c : Option HeatClass, (match c with
      | some _ => (s.modHeater st area f).modStation st
          (fun x => { x with probeQueue := x.probeQueue.erase area })
      | none => (s.modHeater st area f).modStation st
          (fun x => { x with probeQueue := x.probeQueue.erase area })) =
      (s.modHeater st area f).modStation st
          (fun x => { x with probeQueue := x.probeQueue.erase area }) := fun c => by
    cases c <;> rfl
  split
  · exact h3.trans (by split <;> exact .judgeShed hk st _)
  · exact h3.trans (by split <;> exact .refl _)

theorem Kept.heatGrant (hk : ∀ s, Kept E Q s (k s)) (st : StationId) (area : Area) (watts : Nat)
    (s : State) : Kept E Q s (s.heatGrant k st area watts) := by
  unfold State.heatGrant
  have go : ∀ h : HeatState, ((s.station st).heater area).state = h → h.claims = true →
      ((s.station st).heater area).state.claims = true := fun h e c => by rw [e]; exact c
  split
  case h_1 e | h_2 e =>
    split
    · exact .refl s
    · have c := go _ e rfl
      exact .changeHeater hk c (.toEnergizing c)
  case h_3 e | h_4 e =>
    split
    · have c := go _ e rfl
      exact .changeHeater hk c (.toShed c)
    · exact .refl s
  all_goals
    split
    · exact .refl s
    · exact (Kept.leave _).trans (hk _)

/-! ### Books (R38, R43, R46) -/

/-- A table is in use, or the books are not asked after. -/
def Busy (E : TableId → Prop) (Q : Prop) (s : State) : Prop := Q → (∀ x, ¬ E x) → ¬ s.noTable

theorem Busy.of_issue {s : State} {x : TableId} (h : E x) : Busy E Q s :=
  fun _ e => absurd h (e x)

theorem Busy.of_forget {s : State} : Busy E False s := fun q => q.elim

theorem Busy.of_use {s : State} {x : TableId} (h : (s.table x).state.cancellable = true) :
    Busy E Q s := fun _ _ n => by
  have := n x
  rw [h] at this
  cases this

/-- A change of books, hold or progress alone. -/
theorem Kept.modBooks {s : State} {st : StationId} {f : Station → Station} (hb : Busy E Q s)
    (h : StationKept (s.station st) (f (s.station st))) : Kept E Q s (s.modStation st f) :=
  .modStation h fun q e n => absurd n (hb q e)

theorem StationKept.modBook (x : Station) (l : Letter) (f : Book → Book) :
    StationKept x (x.modBook l f) := by
  cases l <;> exact .of_axes rfl rfl rfl rfl rfl rfl rfl rfl rfl rfl rfl rfl rfl rfl rfl (.refl _)
    (.refl _)

theorem StationKept.idleRunning (x : Station) : StationKept x x.idleRunning := by
  unfold Station.idleRunning
  split
  · exact .refl x
  · exact .modBook _ _ _

theorem Kept.bookEvent {s : State} (hb : Busy E Q s) (st : StationId) (kind : BookEventKind)
    (l : Letter) : Kept E Q s (s.bookEvent st kind l) := by
  unfold State.bookEvent
  refine (Kept.modBooks hb ?_).trans (.bump rfl (fun z e => by cases e) fun q e n => ?_)
  · exact .of_axes rfl rfl rfl rfl rfl rfl rfl rfl rfl rfl rfl rfl rfl rfl rfl (.refl _) (.refl _)
  · exact absurd n (hb q e)

theorem Kept.startBook {s : State} (hb : Busy E Q s) (st : StationId) (l : Letter) :
    Kept E Q s (s.startBook st l) := by
  unfold State.startBook
  refine Kept.trans (.modBooks hb ?_) (.bookEvent ?_ st .started l)
  · exact (StationKept.idleRunning _).trans (.modBook _ _ _)
  · exact fun q e n => hb q e n

theorem Kept.engage (hk : ∀ s, Kept E Q s (k s)) {s : State} (hb : Busy E Q s) (st : StationId)
    (l : Letter) : Kept E Q s (s.engage k st l).1 := by
  unfold State.engage
  split
  · exact (Kept.startBook hb st l).trans (.inputChanged hk st _)
  · exact .refl s
  · exact .refl s
  · exact .refl s
  · split
    · exact .refl s
    · have h1 : Kept E Q s (s.modBook st l (fun b => { b with armed := some ‹Armed› })) :=
        .modBooks hb (.modBook _ _ _)
      have hb1 : Busy E Q (s.modBook st l (fun b => { b with armed := some ‹Armed› })) :=
        fun q e n => hb q e n
      exact (h1.trans (.startBook hb1 st l)).trans (.inputChanged hk st _)

/-! ### Sweeps (R112 to R122) -/

theorem Kept.modProgress {s : State} (hb : Busy E Q s) (st : StationId)
    (f : Progress → Progress) : Kept E Q s (s.modProgress st f) :=
  .modBooks hb (.of_axes rfl rfl rfl rfl rfl rfl rfl rfl rfl rfl rfl rfl rfl rfl rfl (.refl _)
    (.refl _))

theorem Kept.setHold (hk : ∀ s, Kept E Q s (k s)) {s : State} (hb : Busy E Q s) (st : StationId)
    (h : Option SweepHold) : Kept E Q s (s.setHold k st h) :=
  (Kept.modBooks hb (.of_axes rfl rfl rfl rfl rfl rfl rfl rfl rfl rfl rfl rfl rfl rfl rfl (.refl _)
    (.refl _))).trans (.inputChanged hk st _)

theorem Kept.clearHold (hk : ∀ s, Kept E Q s (k s)) {s : State} (hb : Busy E Q s)
    (st : StationId) : Kept E Q s (s.clearHold k st) := by
  unfold State.clearHold
  split
  · exact .refl s
  · exact .setHold hk hb st none

/-- A change of a table whose entries are being issued. -/
theorem Kept.modIssued {s : State} {x : TableId} (hE : E x) {f : SweepTable → SweepTable}
    (h1 : (f (s.table x)).snapshot = (s.table x).snapshot)
    (h2 : (f (s.table x)).launch = (s.table x).launch)
    (h3 : (f (s.table x)).timeouts = (s.table x).timeouts)
    (h4 : (s.table x).state ≠ .armed → (f (s.table x)).state ≠ .armed ∧
      (f (s.table x)).sweepStart = (s.table x).sweepStart ∧
      (f (s.table x)).late = (s.table x).late) : Kept E Q s (s.modTable x f) :=
  .modTable ⟨h1, h2, h3, h4, fun n => absurd hE n, fun n => absurd hE n⟩

theorem Kept.skip {s : State} {x : TableId} (hE : E x) (st : StationId) (r : SweepReason) :
    Kept E Q s (s.skip st x r) :=
  (Kept.modProgress (.of_issue hE) st _).trans
    (.modIssued hE rfl rfl rfl fun h => ⟨h, rfl, rfl⟩)

theorem Kept.issued {s : State} {x : TableId} (hE : E x) (st : StationId) (e : SweepEntry)
    (r : RecordState) : Kept E Q s (s.issued st x e r) :=
  (Kept.modProgress (.of_issue hE) st _).trans
    (.modIssued hE rfl rfl rfl fun h => ⟨h, rfl, rfl⟩)

theorem Kept.issueTo (hk : ∀ s, Kept E Q s (k s)) {x : TableId} (hE : E x) (n : Nat)
    (e : SweepEntry) (st : StationId) (s : State) : Kept E Q s (s.issueTo k x n e st) := by
  unfold State.issueTo
  dsimp only
  generalize hu : s.modProgress st _ = u
  have h1 : Kept E Q s u := hu ▸ .modProgress (.of_issue hE) st _
  refine h1.trans ?_
  split
  · exact .skip hE st _
  · split
    · exact (Kept.issued hE st e _).trans (.setHold hk (.of_issue hE) st _)
    · exact (Kept.issued hE st e _).trans (.setHold hk (.of_issue hE) st _)
    · exact (Kept.issued hE st e _).trans (.clearHold hk (.of_issue hE) st)
    · split
      · exact (Kept.issued hE st e _).trans (.engage hk (.of_issue hE) st _)
      · exact .skip hE st _
    · split
      · exact (Kept.issued hE st e _).trans (.engage hk (.of_issue hE) st _)
      · exact .skip hE st _

theorem Kept.issueFrom (hk : ∀ s, Kept E Q s (k s)) {x : TableId} (hE : E x)
    (l : List SweepEntry) (n : Nat) (s : State) : Kept E Q s (s.issueFrom k x l n) := by
  induction l generalizing n s with
  | nil => exact .modIssued hE rfl rfl rfl fun _ => ⟨by simp, rfl, rfl⟩
  | cons e l ih =>
    simp only [State.issueFrom]
    split
    · refine Kept.trans (Kept.trans (t := s.issueEntry k x n e) ?_
        (.modIssued hE rfl rfl rfl fun h => ⟨h, rfl, rfl⟩)) (ih _ _)
      exact .eachOf _ (fun st s => .issueTo hk hE n e st s) s
    · exact .refl s

theorem Kept.judgeIssue (hk : ∀ s, Kept E Q s (k s)) {x : TableId} (hE : E x) (s : State) :
    Kept E Q s (s.judgeIssue k x) := by
  unfold State.judgeIssue
  dsimp only
  split
  · exact .issueFrom hk hE _ _ s
  · exact .refl s

theorem Kept.beginTable (hk : ∀ s, Kept E Q s (k s)) {x : TableId} (hE : E x) (late : Bool)
    {s : State} (ha : (s.table x).state = .armed) : Kept E Q s (s.beginTable k x late) := by
  unfold State.beginTable
  dsimp only
  refine Kept.trans ?_ (.judgeIssue hk hE _)
  refine Kept.trans ?_ (.eachOf _ (fun st s => .modProgress (.of_issue hE) st _) _)
  exact .modIssued hE rfl rfl rfl fun h => absurd ha h

/-- The release of a table's holds and timers; the books are not asked after. -/
theorem Kept.releaseTable (hk : ∀ s, Kept E False s (k s)) (x : TableId) (s : State) :
    Kept E False s (s.releaseTable k x) := by
  unfold State.releaseTable
  dsimp only
  refine Kept.trans (.eachOf _ (fun st s => ?_) _) (.eachOf _ (fun st s => ?_) _)
  · split
    · exact .setHold hk .of_forget st none
    · exact .refl s
  · exact .modProgress .of_forget st _

theorem Kept.closeTable (hk : ∀ s, Kept E False s (k s)) {x : TableId} (hE : E x)
    {state : TableState} (hs : state ≠ .armed) (kind : EndKind) (s : State) :
    Kept E False s (s.closeTable k x state kind) := by
  unfold State.closeTable
  dsimp only
  generalize hu : s.modTable x _ = u
  have h1 : Kept E False s u := hu ▸ .modIssued hE rfl rfl rfl fun _ => ⟨hs, rfl, rfl⟩
  generalize hv : u.releaseTable k x = v
  have h2 : Kept E False u v := hv ▸ .releaseTable hk x u
  generalize hw : v.modTable x _ = w
  have h3 : Kept E False v w := hw ▸ .modIssued hE rfl rfl rfl fun h => ⟨h, rfl, rfl⟩
  exact (h1.trans (h2.trans h3)).trans (.bump rfl (fun z e => by cases e) fun q => q.elim)

theorem Kept.judgeEnd (hk : ∀ s, Settled s (k s)) (fuel : Nat) (x : TableId) (s : State) :
    Settled s (s.judgeEnd k fuel x) := by
  induction fuel generalizing x s with
  | zero => exact .refl s
  | succ fuel ih =>
    simp only [State.judgeEnd]
    split
    · rename_i h
      have h1 : Settled s (s.closeTable k x .done .done) :=
        (Kept.closeTable (E := fun y => y = x) (fun s => (hk s).weaken) rfl (by decide) _
          s).close
          (by rw [h.1]; rfl) (by rw [h.1]; decide)
      split
      · rename_i g
        refine Kept.trans h1 (Kept.trans ?_ (ih _ _))
        exact (Kept.beginTable (E := fun y => y = TableId.other x) (fun s => (hk s).weaken) rfl
          true g.1).close (by rw [g.1]; rfl) (by rw [g.1]; decide)
      · exact h1
    · exact .refl s

theorem Kept.abandon (hk : ∀ s, Settled s (k s)) (st : StationId) (r : SweepReason) (s : State) :
    Settled s (s.abandon k st r) := by
  unfold State.abandon
  dsimp only
  split
  · exact .refl s
  · rename_i x hx
    split
    · rename_i h
      simp only [Bool.and_eq_true] at h
      have hc : ∀ y : SweepTable, y.state.runs = true → y.state.cancellable = true := by
        intro y e
        cases hs : y.state <;> simp_all [TableState.runs, TableState.cancellable]
      refine (Kept.modProgress (.of_use (hc _ h.2)) st _).trans (Kept.trans (.modTable ?_)
        (Kept.trans (.clearHold hk (.of_use (x := x) ?_) st) (.judgeEnd hk 2 x _)))
      · exact ⟨rfl, rfl, rfl, fun h => ⟨h, rfl, rfl⟩, fun _ => id, fun _ e => by
          rw [show ((s.modProgress st _).table x) = s.table x from rfl, hc _ h.2] at e; cases e⟩
      · rw [State.table_modTable, if_pos rfl]
        exact hc _ h.2
    · exact .refl s

/-! ### Wind zones (R151 to R155, R161) -/

theorem Kept.expose (st : StationId) (r : ExposeReason) (s : State) :
    Kept E Q s (s.expose st r) := by
  unfold State.expose
  dsimp only
  split
  · exact .modZone ⟨rfl, rfl, rfl, rfl, rfl, rfl, rfl, rfl, rfl, id, fun _ => ⟨rfl, rfl, rfl, rfl⟩⟩
  · exact .refl s

theorem ZoneKept.leave (z : Zone) (st : StationId) : ZoneKept z (z.leave st) :=
  ⟨rfl, rfl, rfl, rfl, rfl, rfl, rfl, rfl, rfl, id, fun _ => ⟨rfl, rfl, rfl, rfl⟩⟩

/-- The event of a zone that stands in STOWING or STOWED. -/
theorem Kept.zoneEvent {s : State} {z : ZoneId} (h : (s.zone z).state.settles = true)
    (left : ZoneState) : Kept E Q s (s.zoneEvent z left) := by
  unfold State.zoneEvent
  dsimp only
  refine Kept.trans (.modZone ?_) (.bump rfl (fun z' e => ?_) fun _ _ _ st => by simp)
  · exact ⟨rfl, rfl, rfl, rfl, rfl, rfl, rfl, rfl, rfl, id, fun e => by rw [h] at e; cases e⟩
  · cases e
    rw [State.zone_modZone, if_pos rfl]
    exact h

theorem Kept.judgeMembers (hk : ∀ s, Kept E Q s (k s)) (z : ZoneId) (s : State) :
    Kept E Q s (s.judgeMembers k z) :=
  .eachOf _ (fun st s => .judgeShed hk st s) s

/-- A change of state of any zone, from the state right after its event. -/
theorem Kept.moveZone (hk : ∀ s, Kept E Q s (k s)) (z : ZoneId) (to_ : ZoneState)
    (f : Zone → Zone) (s : State) :
    Kept E Q ((s.modZone z (fun x => f { x with state := to_ })).zoneEvent z (s.zone z).state)
      (s.moveZone k z to_ f) :=
  .judgeMembers hk z _

theorem Kept.stowedTest (hk : ∀ s, Kept E Q s (k s)) (z : ZoneId) (s : State) :
    Kept E Q s (s.stowedTest k z) := by
  unfold State.stowedTest
  split
  · rename_i h
    refine Kept.trans (Kept.trans (.modZone ?_) (.zoneEvent ?_ _)) (.moveZone hk z _ _ s)
    · exact ⟨rfl, rfl, rfl, rfl, rfl, rfl, rfl, rfl, rfl, fun _ => rfl,
        fun e => by rw [h.1] at e; cases e⟩
    · rw [State.zone_modZone, if_pos rfl]; rfl
  · exact .refl s

theorem Kept.exposeBlocked (st : StationId) (s : State) : Kept E Q s (s.exposeBlocked st) := by
  unfold State.exposeBlocked
  dsimp only
  split
  · exact .expose st _ s
  · split
    · exact .expose st _ s
    · exact .refl s

theorem Kept.stowMember (hk : ∀ s, Settled s (k s)) (st : StationId) (s : State) :
    Settled s (s.stowMember k st) := by
  unfold State.stowMember
  dsimp only
  refine (Kept.abandon hk st .wind s).trans (Kept.trans (.modStation ?_ fun _ _ _ => ?_)
    (Kept.trans (Kept.trans (.decideSource hk st _) (.formClaim hk st _)) (.exposeBlocked st _)))
  · exact .axes _ (f := Axis.stowNow) (g := Axis.stowNow) (.stowNow _) (.stowNow _)
  · exact ⟨rfl, rfl, rfl, rfl, rfl⟩

/-- The zone as it stands when the members are treated on its entry into STOWING (R151). -/
def Zone.toStowing (x : Zone) : Zone :=
  { x with state := .stowing, holdTimer := none, deadline := some (1000 * x.cfg.deadline) }

/-- The entry of any zone into STOWING, from the state right after the zone itself has changed. -/
theorem Kept.enterStowing (hk : ∀ s, Settled s (k s)) (z : ZoneId) (s : State) :
    Settled (s.modZone z Zone.toStowing) (s.enterStowing k z) := by
  unfold State.enterStowing
  dsimp only
  have h1 : Settled { s.modZone z Zone.toStowing with entering := some z }
      (Machine.eachOf (({ s with entering := some z }.modZone z Zone.toStowing).zone z).members
        (State.stowMember k) ({ s with entering := some z }.modZone z Zone.toStowing)) :=
    Kept.eachOf _ (fun st s => Kept.stowMember hk st s) _
  have hz := (h1.zone z).stows (by
    show ((s.modZone z Zone.toStowing).zone z).state.settles = true
    rw [State.zone_modZone, if_pos rfl]; rfl)
  have h2 := (h1.trans (.zoneEvent hz (s.zone z).state)).trans (.judgeMembers hk z _)
  exact (Kept.ofEntering h2).trans (.stowedTest hk z _)

theorem ZoneKept.toStowing {x : Zone} (h : x.state.settles = true) : ZoneKept x x.toStowing :=
  ⟨rfl, rfl, rfl, rfl, rfl, rfl, rfl, rfl, rfl, fun _ => rfl, fun e => by rw [h] at e; cases e⟩

theorem Kept.testZone (hk : ∀ s, Settled s (k s)) (z : ZoneId) (s : State) :
    Settled s (s.testZone k z) := by
  unfold State.testZone
  split
  · rename_i h
    exact Kept.trans (.modZone (.toStowing (by rw [h.1]; rfl))) (.enterStowing hk z s)
  · exact .stowedTest hk z s

theorem Kept.axesChanged (hk : ∀ s, Settled s (k s)) (st : StationId) (s : State) :
    Settled s (s.axesChanged k st) := by
  unfold State.axesChanged
  dsimp only
  split
  · exact Kept.trans (.modZone (.leave _ st)) (.testZone hk _ _)
  · exact .testZone hk _ s

theorem Kept.joinExposed (hk : ∀ s, Settled s (k s)) (st : StationId) (r : ExposeReason)
    (s : State) : Settled s (s.joinExposed k st r) := by
  unfold State.joinExposed
  dsimp only
  split
  · exact (Kept.expose st r s).trans (.testZone hk _ _)
  · exact .refl s

theorem Kept.ableToMove (hk : ∀ s, Settled s (k s)) (st : StationId) (s : State) :
    Settled s (s.ableToMove k st) := by
  unfold State.ableToMove
  dsimp only
  split
  · split
    · exact Kept.trans (.modZone (.leave _ st)) (.axesChanged hk st _)
    · exact .axesChanged hk st s
  · split
    · exact Kept.trans (.modZone (.leave _ st)) (.axesChanged hk st _)
    · exact .axesChanged hk st s
  · exact .axesChanged hk st s
  · exact .axesChanged hk st s

/-! ### Faults and grants (R71, R74, R79) -/

/-- What follows from the entry of an axis into FAULTED. -/
theorem Kept.afterFault (hk : ∀ s, Settled s (k s)) (st : StationId) (s : State) :
    Settled s (s.afterFault k st) := by
  unfold State.afterFault
  dsimp only
  exact Kept.trans (Kept.trans (Kept.trans (.formClaim hk st _) (.bump rfl
    (fun z e => by cases e) fun _ _ _ st => by simp)) (.abandon hk st .fault _))
    (.joinExposed hk st .fault _)

theorem Station.axis_modAxis (x : Station) (a b : AxisId) (f : Axis → Axis) :
    (x.modAxis a f).axis b = if a = b then f (x.axis a) else x.axis b := by
  cases a <;> cases b <;> rfl

/-- The entry of an axis into FAULTED, from the state right after the axis itself has changed. -/
theorem Kept.faultAxis (hk : ∀ s, Settled s (k s)) (st : StationId) (ax : AxisId) (r : AxisFault)
    (s : State) : Settled (s.modAxis st ax (fun a => a.toFaulted r)) (s.faultAxis k st ax r) :=
  .afterFault hk st _

/-- One axis changed in a way that settling keeps. -/
theorem StationKept.modAxis (x : Station) (ax : AxisId) {f : Axis → Axis}
    (h : AxisKept (x.axis ax) (f (x.axis ax))) : StationKept x (x.modAxis ax f) := by
  cases ax
  · exact .of_axes rfl rfl rfl rfl rfl rfl rfl rfl rfl rfl rfl rfl rfl rfl rfl h (.refl _)
  · exact .of_axes rfl rfl rfl rfl rfl rfl rfl rfl rfl rfl rfl rfl rfl rfl rfl (.refl _) h

theorem StationQuiet.modAxis (x : Station) (ax : AxisId) (f : Axis → Axis) :
    StationQuiet x (x.modAxis ax f) := by
  cases ax <;> exact ⟨rfl, rfl, rfl, rfl, rfl⟩

theorem Kept.modAxis {s : State} {st : StationId} {ax : AxisId} {f : Axis → Axis}
    (h : AxisKept ((s.station st).axis ax) (f ((s.station st).axis ax))) :
    Kept E Q s (s.modAxis st ax f) :=
  .modStation (.modAxis _ _ h) fun _ _ _ => .modAxis _ _ _

theorem Kept.releaseAxis (hk : ∀ s, Settled s (k s)) (st : StationId) (ax : AxisId) (s : State) :
    Settled s (s.releaseAxis k st ax) := by
  unfold State.releaseAxis
  dsimp only
  split
  · rename_i h _
    split
    · exact .modAxis (.of_still (by rw [h]; decide) (by rw [h]; decide) rfl (by rintro ⟨⟩) (fun _ => rfl) rfl rfl)
    · refine Kept.trans (.modAxis ?_) (.faultAxis hk st ax .outside s)
      exact .of_still (by rw [h]; decide) (by rw [h]; decide) rfl (by rintro ⟨⟩) (fun _ => rfl) rfl rfl
  · exact .refl s

theorem Kept.judgeAwaiting (hk : ∀ s, Settled s (k s)) (st : StationId) (s : State) :
    Settled s (s.judgeAwaiting k st) := by
  unfold State.judgeAwaiting
  dsimp only
  split
  · exact Kept.trans (Kept.trans (.releaseAxis hk st .az s) (.releaseAxis hk st .el _))
      (.formClaim hk st _)
  · exact .refl s

theorem Kept.takeGrant (st : StationId) (watts : Nat) (s : State) :
    Kept E Q s (s.modStation st (Station.takeGrant watts)) :=
  .modStation
    (.of_axes rfl rfl rfl rfl rfl rfl rfl rfl rfl rfl rfl rfl rfl rfl rfl (.refl _) (.refl _))
    fun _ _ _ => ⟨rfl, rfl, rfl, rfl, rfl⟩

theorem Kept.answerLevel (st : StationId) (rises : Bool) (s : State) :
    Kept E Q s (s.modStation st (Station.answerLevel rises)) :=
  .modStation (.axes _ (f := fun a => a.answerLevel rises _) (g := fun a => a.answerLevel rises _)
    (.answerLevel _ _ _) (.answerLevel _ _ _)) fun _ _ _ => ⟨rfl, rfl, rfl, rfl, rfl⟩

theorem Kept.driveGrant (hk : ∀ s, Settled s (k s)) (st : StationId) (watts : Nat) (s : State) :
    Settled s (s.driveGrant k st watts) := by
  unfold State.driveGrant
  dsimp only
  refine (Kept.takeGrant st watts s).trans ?_
  generalize s.modStation st (Station.takeGrant watts) = u
  split
  · exact ((Kept.answerLevel st true u).trans (.judgeAwaiting hk st _)).trans (.formClaim hk st _)
  · split
    · split
      · refine Kept.trans (.changeAxes hk ?_ ?_) (.axesChanged hk st _)
        · exact (StationKept.axes _ (f := Axis.revoke) (g := Axis.revoke) (.revoke _)
            (.revoke _)).trans (.examineBoth _)
        · refine StationQuiet.trans ?_ (.examineBoth _)
          exact ⟨rfl, rfl, rfl, rfl, rfl⟩
      · exact (Kept.answerLevel st false u).trans (.formClaim hk st _)
    · exact .refl u

theorem Kept.report (hk : ∀ s, Settled s (k s)) (c : Claimant) (s : State) :
    Settled s (s.report k c) := by
  cases c
  · exact .driveGrant hk _ _ s
  · exact .heatGrant hk _ _ _ s

/-! ### Settling (R100) -/

/-- The tallies of one whole change. -/
theorem Kept.bumps (l : List Tally) (u : State) (h : ∀ t ∈ l, t = .sheds ∨ t = .revocations) :
    Settled u (l.foldl State.bump u) := by
  induction l generalizing u with
  | nil => exact .refl u
  | cons t l ih =>
    refine Kept.trans (t := u.bump t) ?_ (ih _ fun x hx => h x (by simp [hx]))
    rcases h t (by simp) with e | e <;> subst e <;>
      exact .bump rfl (fun z e => by cases e) fun _ _ _ st e => by cases e

/-- One whole change of PB up to its reports (R100). -/
theorem Kept.powerChange {s : State} {w : Work} {rest : List Work} (hw : s.work = w :: rest) :
    Settled s ({ s with work := rest }.powerChange w).1 := by
  obtain ⟨hc, hb⟩ := s.power.change_kept s.now w
  have h1 : Settled s ({ s with work := rest }.modPower
      (fun _ => (s.power.change s.now w).power)) :=
    { Kept.refl (E := fun _ => False) (Q := True) s with
      normal := hc.normal
      emergency := hc.emergency
      alarm := hc.alarm
      power := fun h => by
        refine ⟨hc.single h.1, ?_⟩
        rcases h.2 with e | e
        · exact .inl (hc.within h.1 e)
        · rw [hw] at e
          rcases List.mem_cons.1 e with e | e
          · exact .inl (hb e.symm h.1)
          · exact .inr e
      within := fun o e => ⟨hc.single o, hc.within o e⟩
      quiet := fun _ _ _ _ => ⟨.refl _, rfl⟩ }
  exact Kept.trans h1 (.bumps _ _ (hc.tallies (by simp)))

theorem Kept.later (s : State) : Settled s (Settle.later s) := .refl s

/-- One piece of work settled. -/
theorem Kept.deliver {s : State} {w : Work} {rest : List Work} (hw : s.work = w :: rest) :
    Settled s (State.deliver w { s with work := rest }) := by
  have reports : ∀ w, s.work = w :: rest → Settled s
      (Machine.eachOf ({ s with work := rest }.powerChange w).2 (State.report Settle.later)
        ({ s with work := rest }.powerChange w).1) := fun w hw =>
    (Kept.powerChange hw).trans (.eachOf _ (fun c s => .report Kept.later c s) _)
  cases w with
  | awaiting st =>
    refine Kept.trans (t := { s with work := rest }) ?_ (.judgeAwaiting Kept.later st _)
    exact { Kept.refl (E := fun _ => False) (Q := True) s with
      power := fun h => ⟨h.1, h.2.imp id fun e => by rw [hw] at e; simpa using e⟩
      quiet := fun _ _ _ _ => ⟨.refl _, rfl⟩ }
  | drive => exact reports _ hw
  | heat => exact reports _ hw
  | heatWithdraw => exact reports _ hw
  | budget => exact reports _ hw

theorem Kept.drain (fuel : Nat) (s : State) : Settled s (State.drain fuel s) := by
  induction fuel generalizing s with
  | zero => exact .refl s
  | succ fuel ih =>
    simp only [State.drain]
    split
    · exact .refl s
    · exact (Kept.deliver ‹_›).trans (ih _)

/-- All that settling can do (R100): the relation `Kept` at its strongest. -/
theorem Kept.settle (s : State) : Settled s (settle s) := Kept.drain _ s

end Sys2Proof.Machine
end

