-- ==== Sys2Proof/Laws/Frame.lean ====
section
/-! SUPPORT. How the relation `Kept` goes through a change made on both sides, the frame `Apart` of what no
such command touches, and the first effect of each operation that settling then follows. -/

namespace Sys2Proof.Machine

variable {E : TableId → Prop} {Q : Prop} {k : Settle}

/-! ### The same change on both sides -/

/-- A change of one station's record that keeps the relation between the two records. -/
theorem Kept.modStation_congr {s t : State} (h : Kept E Q s t) (st : StationId)
    {f : Station → Station}
    (hf : StationKept (s.station st) (t.station st) →
      StationKept (f (s.station st)) (f (t.station st)))
    (hq : StationQuiet (s.station st) (t.station st) →
      StationQuiet (f (s.station st)) (f (t.station st))) :
    Kept E Q (s.modStation st f) (t.modStation st f) :=
  { h with
    station := fun x => by
      rw [State.station_modStation, State.station_modStation]
      split
      · rename_i e; subst e; exact hf (h.station _)
      · exact h.station x
    quiet := fun q e n x => by
      rw [State.station_modStation, State.station_modStation]
      refine ⟨?_, (h.quiet q e n x).2⟩
      split
      · rename_i e'; subst e'; exact hq (h.quiet q e n _).1
      · exact (h.quiet q e n x).1 }

/-- A change of one zone's record that keeps the relation between the two records. -/
theorem Kept.modZone_congr {s t : State} (h : Kept E Q s t) (z : ZoneId) {f : Zone → Zone}
    (hs : ∀ x, (f x).state = x.state)
    (hf : ZoneKept (s.zone z) (t.zone z) → ZoneKept (f (s.zone z)) (f (t.zone z))) :
    Kept E Q (s.modZone z f) (t.modZone z f) :=
  { h with
    zone := fun x => by
      rw [State.zone_modZone, State.zone_modZone]
      split
      · rename_i e; subst e; exact hf (h.zone _)
      · exact h.zone x
    zoneTally := fun x e => h.zoneTally x (by
      rw [State.zone_modZone] at e
      split at e
      · subst_vars; rwa [hs] at e
      · exact e) }

/-- A change of one table's record that keeps the relation between the two records. -/
theorem Kept.modTable_congr {s t : State} (h : Kept E False s t) (x : TableId)
    {f : SweepTable → SweepTable}
    (hf : TableKept (E x) (s.table x) (t.table x) →
      TableKept (E x) (f (s.table x)) (f (t.table x))) :
    Kept E False (s.modTable x f) (t.modTable x f) :=
  { h with
    table := fun y => by
      rw [State.table_modTable, State.table_modTable]
      split
      · rename_i e; subst e; exact hf (h.table _)
      · exact h.table y
    quiet := fun q => q.elim }

/-! ### The frame `Apart` -/

theorem Kept.apart {s t : State} (h : Kept E Q s t) : Apart s t where
  pending := h.pending
  time := h.time
  sensing := h.sensing
  lines := h.lines
  panelLine := h.panelLine
  entering := h.entering
  freeCount := h.freeCount
  exchange := h.exchange
  normal := h.normal
  emergency := h.emergency
  alarm := h.alarm
  table := fun x => ⟨(h.table x).snapshot, (h.table x).launch, (h.table x).timeouts⟩
  zone := fun z => ⟨(h.zone z).cfg, (h.zone z).order, (h.zone z).causes, (h.zone z).speed,
    (h.zone z).gust, (h.zone z).gustStow, (h.zone z).blind, (h.zone z).blindTimer,
    (h.zone z).members⟩
  station := fun st => ⟨(h.station st).cfg, (h.station st).link, (h.station st).demand,
    (h.station st).validation, (h.station st).panel, (h.station st).fuse1,
    (h.station st).fuse2, (h.station st).retired⟩
  bytes := fun a ha => h.read a (by
    simp only [Layout.isOwn, Layout.tallies, Layout.tallyArea] at *
    omega)

theorem Apart.refl (s : State) : Apart s s :=
  (Kept.refl (E := fun _ => False) (Q := True) s).apart

theorem Apart.trans {s t u : State} (h : Apart s t) (k : Apart t u) : Apart s u where
  pending := k.pending.trans h.pending
  time := k.time.trans h.time
  sensing := k.sensing.trans h.sensing
  lines := k.lines.trans h.lines
  panelLine := k.panelLine.trans h.panelLine
  entering := k.entering.trans h.entering
  freeCount := k.freeCount.trans h.freeCount
  exchange := by
    obtain ⟨a, ha⟩ := h.exchange
    obtain ⟨b, hb⟩ := k.exchange
    exact ⟨a ||| b, by rw [hb, ha]; simp [BitVec.or_assoc]⟩
  normal := k.normal.trans h.normal
  emergency := k.emergency.trans h.emergency
  alarm := k.alarm.trans h.alarm
  table := fun x => by
    obtain ⟨h1, h2, h3⟩ := h.table x
    obtain ⟨k1, k2, k3⟩ := k.table x
    exact ⟨k1.trans h1, k2.trans h2, k3.trans h3⟩
  zone := fun z => by
    obtain ⟨h1, h2, h3, h4, h5, h6, h7, h8, h9⟩ := h.zone z
    obtain ⟨k1, k2, k3, k4, k5, k6, k7, k8, k9⟩ := k.zone z
    exact ⟨k1.trans h1, k2.trans h2, k3.trans h3, k4.trans h4, k5.trans h5, k6.trans h6,
      k7.trans h7, k8.trans h8, k9.trans h9⟩
  station := fun st => by
    obtain ⟨h1, h2, h3, h4, h5, h6, h7, h8⟩ := h.station st
    obtain ⟨k1, k2, k3, k4, k5, k6, k7, k8⟩ := k.station st
    exact ⟨k1.trans h1, k2.trans h2, k3.trans h3, k4.trans h4, k5.trans h5, k6.trans h6,
      k7.trans h7, k8.trans h8⟩
  bytes := fun a ha => (k.bytes a ha).trans (h.bytes a ha)

/-- A change of one station's record that leaves what `Apart` names. -/
theorem Apart.modStation {s : State} {st : StationId} {f : Station → Station}
    (hf : ∀ x, (f x).cfg = x.cfg ∧ (f x).link = x.link ∧ (f x).demand = x.demand ∧
      (f x).validation = x.validation ∧ (f x).panel = x.panel ∧ (f x).fuse1 = x.fuse1 ∧
      (f x).fuse2 = x.fuse2 ∧ (f x).retired = x.retired) : Apart s (s.modStation st f) :=
  { Apart.refl s with
    station := fun x => by
      rw [State.station_modStation]
      split
      · subst_vars; exact hf _
      · exact ⟨rfl, rfl, rfl, rfl, rfl, rfl, rfl, rfl⟩ }

theorem Apart.bump (s : State) (x : Tally) : Apart s (s.bump x) :=
  { Apart.refl s with
    exchange := ⟨x.cls.bit, rfl⟩
    bytes := fun a ha => State.read_bump_outside (by
      simp only [Layout.isOwn, Layout.tallies, Layout.tallyArea] at *
      omega) }

/-! ### What stands of a record through settling -/

theorem HeaterKept.of_idle {a b : Heater} (h : HeaterKept a b) (i : a.state.claims = false) :
    b.state = a.state := (h.idle i).1

end Sys2Proof.Machine
end

