-- ==== Sys2Proof/Laws/Rows.lean ====
section
/-! SUPPORT. What a command counts and what its answer shows: `Counts` and `Answers` through the named
operations, and the rows as equations of next states. -/

namespace Sys2Proof.Machine

/-! ### The latch -/

@[simp] theorem Exchange.latch_nil (x : Exchange) : x.latch [] = x := rfl

theorem Exchange.latch_cons (x : Exchange) (t : Tally) (l : List Tally) :
    x.latch (t :: l) = ({ x with summary := x.summary ||| t.cls.bit } : Exchange).latch l := rfl

theorem Exchange.latch_append (x : Exchange) (l m : List Tally) :
    x.latch (l ++ m) = (x.latch l).latch m := by
  simp [Exchange.latch, List.foldl_append]

/-! ### Blocks -/

/-- The status regions show the blocks alone. -/
theorem State.regions_of_blocks {s t : State} (h : t.blocks = s.blocks) : t.regions = s.regions := by
  simp only [State.blocks, Blocks.mk.injEq] at h
  simp only [State.regions]
  simp only [h]

@[simp] theorem State.blocks_publish (s t : State) : (s.publish t).blocks = t.blocks := rfl
@[simp] theorem State.blocks_bump (s : State) (x : Tally) : (s.bump x).blocks = s.blocks := rfl
@[simp] theorem State.blocks_answer (s : State) (p : PageId) (r : Result) (d : List Byte) :
    (s.answer p r d).blocks = s.blocks := rfl
@[simp] theorem State.blocks_store (s : State) (a : Nat) (l : List Byte) :
    (s.store a l).blocks = s.blocks := rfl
@[simp] theorem State.blocks_modExchange (s : State) (f : Exchange → Exchange) :
    (s.modExchange f).blocks = s.blocks := rfl

/-- An event that leaves the blocks publishes nothing. -/
theorem State.publish_of_blocks {s t : State} (h : t.blocks = s.blocks) : s.publish t = t :=
  State.publish_eq (State.regions_of_blocks h)

/-- A command whose event leaves the blocks. -/
theorem event_of_blocks {s : State} {f : State → State} (h : (f s).blocks = s.blocks) :
    event s f = .next (f s) := by
  rw [event_eq, State.publish_of_blocks h]

theorem Layout.not_isStatus {a : Nat} (h : ¬ Layout.isOwn a) : ¬ Layout.isStatus a := by
  simp only [Layout.isOwn, Layout.isStatus, Layout.tallies, Layout.tallyArea] at *
  omega

theorem Layout.not_tally {a : Nat} (h : ¬ Layout.isOwn a) :
    a < Layout.tallies ∨ Layout.tallies + Layout.tallyArea ≤ a := by
  simp only [Layout.isOwn, Layout.tallies, Layout.tallyArea] at *
  omega

/-! ### Counts -/

theorem Counts.of_eq {s t : State} (ht : t.tallies = s.tallies) (he : t.exchange = s.exchange)
    (hm : t.mem = s.mem) : Counts [] s t :=
  ⟨fun x => by simp [State.tally, ht], he, fun a _ => by rw [hm]⟩

theorem Counts.refl (s : State) : Counts [] s s := .of_eq rfl rfl rfl

theorem Counts.trans {l m : List Tally} {s t u : State} (h : Counts l s t) (k : Counts m t u) :
    Counts (l ++ m) s u :=
  ⟨fun x => by
    rw [k.tally, h.tally, List.count_append, BitVec.ofNat_add, BitVec.add_assoc],
    by rw [k.exchange, h.exchange, Exchange.latch_append],
    fun a ha => (k.bytes a ha).trans (h.bytes a ha)⟩

theorem Counts.bump (s : State) (x : Tally) : Counts [x] s (s.bump x) :=
  ⟨fun y => by
    rw [State.tally_bump]
    by_cases e : x = y
    · subst e; simp
    · simp [e],
    rfl, fun _ ha => State.read_bump_outside (Layout.not_tally ha)⟩

theorem Counts.publish {l : List Tally} {r s t : State} (h : Counts l s t) :
    Counts l s (r.publish t) :=
  ⟨h.tally, h.exchange, fun a ha =>
    (State.read_publish (Layout.not_isStatus ha)).trans (h.bytes a ha)⟩

/-- From a state that differs in its blocks alone. -/
theorem Counts.of_before {l : List Tally} {r s t : State} (h : Counts l s t)
    (ht : s.tallies = r.tallies) (he : s.exchange = r.exchange) (hm : s.mem = r.mem) :
    Counts l r t :=
  Counts.trans (.of_eq ht he hm) h

/-! ### Answers -/

/-- What a store leaves where it stored. -/
theorem Memory.bytes_store (m : Mem) (base : Nat) (l : List Byte) :
    Memory.bytes (Memory.store m base l) base l.length = l := by
  have h := Memory.bytes_store_inside (m := m) (base := base) (n := l.length) (i := 0) (l := l)
  simpa using h

theorem Bytes.toNat_ofNat (n x : Nat) (h : x < 256 ^ n) : Bytes.toNat (Bytes.ofNat n x) = x := by
  induction n generalizing x with
  | zero => simp at h; subst h; rfl
  | succ n ih =>
    rw [Bytes.ofNat, Bytes.toNat, ih (x / 256) (by
      rw [Nat.div_lt_iff_lt_mul (by decide)]; rwa [Nat.pow_succ] at h)]
    simp
    omega

theorem Code.ofResult_lt (r : Result) : Code.ofResult r < 256 ^ 4 := by cases r <;> decide

/-- The page of a request once it is answered, seen through what `answer` writes last. -/
theorem State.bytes_answer {s : State} {p : PageId} {r : Result} {d : List Byte} {a n : Nat}
    (_h : Layout.page p ≤ a) (h' : a + n ≤ Layout.page p + 256) :
    Memory.bytes (s.answer p r d).mem a n = Memory.bytes
      (Memory.store (Memory.store s.mem (Layout.page p + 8)
        (Status.word (Code.ofResult r) ++ Status.region 16 d)) (Layout.page p)
          (Status.word PageState.answered)) a n := by
  have hp := Layout.page_bound p
  refine Memory.bytes_congr fun b h1 h2 => ?_
  exact State.read_bump_outside (.inl (by simp only [Layout.tallies]; omega))

theorem Answers.of_counts {l : List Tally} {s t : State} (h : Counts l s t) (p : PageId)
    (r : Result) (d : List Byte) : Answers p r d l s (t.answer p r d) where
  word := by
    have hp := Layout.page_bound p
    unfold State.pageState Memory.nat
    rw [State.bytes_answer (by omega) (by omega)]
    have := Memory.bytes_store (Memory.store t.mem (Layout.page p + 8)
        (Status.word (Code.ofResult r) ++ Status.region 16 d)) (Layout.page p)
          (Status.word PageState.answered)
    rw [show (Status.word PageState.answered).length = 4 from rfl] at this
    rw [this]
    rfl
  code := by
    have hp := Layout.page_bound p
    unfold Memory.nat
    rw [State.bytes_answer (by omega) (by omega)]
    have := Memory.bytes_store_inside (m := t.mem) (base := Layout.page p + 8) (n := 4) (i := 0)
      (l := Status.word (Code.ofResult r) ++ Status.region 16 d) (by simp [Status.word])
    rw [Memory.bytes_congr (m := Memory.store t.mem (Layout.page p + 8)
      (Status.word (Code.ofResult r) ++ Status.region 16 d)) (fun b h1 h2 =>
        Memory.read_store_outside (by simp [Status.word]; omega))]
    rw [Nat.add_zero] at this
    rw [this]
    rw [List.drop_zero, List.take_append_of_le_length (by simp [Status.word]),
      List.take_of_length_le (by simp [Status.word])]
    exact Bytes.toNat_ofNat 4 _ (Code.ofResult_lt r)
  data := by
    have hp := Layout.page_bound p
    rw [State.bytes_answer (by omega) (by omega)]
    have := Memory.bytes_store_inside (m := t.mem) (base := Layout.page p + 8) (n := 16) (i := 4)
      (l := Status.word (Code.ofResult r) ++ Status.region 16 d) (by simp [Status.word])
    rw [Memory.bytes_congr (m := Memory.store t.mem (Layout.page p + 8)
      (Status.word (Code.ofResult r) ++ Status.region 16 d)) (fun b h1 h2 =>
        Memory.read_store_outside (by simp [Status.word]; omega))]
    rw [show Layout.page p + 12 = Layout.page p + 8 + 4 by omega, this]
    rw [List.drop_append_of_le_length (by simp [Status.word]),
      List.drop_of_length_le (by simp [Status.word]), List.nil_append,
      List.take_of_length_le (by simp)]
  tally := fun x => by
    have := (h.trans (Counts.bump t .answers)).tally x
    rw [← this]
    simp
  exchange := by
    have := (h.trans (Counts.bump t .answers)).exchange
    rw [← this]
    rfl
  bytes := fun a ha hp => by
    rw [State.read_answer _ (Layout.not_tally ha), h.bytes a ha]
    unfold Layout.isAnswer at hp
    omega

/-- An answered page lies outside the part's own areas. -/
theorem Layout.page_not_own {p : PageId} {a : Nat} (h : Layout.page p ≤ a)
    (h' : a < Layout.page p + 256) : ¬ Layout.isOwn a := by
  have := Layout.page_bound p
  simp only [Layout.isOwn]
  omega

theorem Answers.publish {p : PageId} {r : Result} {d : List Byte} {l : List Tally}
    {q s t : State} (h : Answers p r d l s t) : Answers p r d l s (q.publish t) where
  word := by
    rw [← h.word]
    unfold State.pageState Memory.nat
    rw [Memory.bytes_congr fun b h1 h2 => State.read_publish
      (Layout.not_isStatus (Layout.page_not_own h1 (by omega)))]
  code := by
    rw [← h.code]
    unfold Memory.nat
    rw [Memory.bytes_congr fun b h1 h2 => State.read_publish
      (Layout.not_isStatus (Layout.page_not_own (p := p) (by omega) (by omega)))]
  data := by
    rw [← h.data]
    exact Memory.bytes_congr fun b h1 h2 => State.read_publish
      (Layout.not_isStatus (Layout.page_not_own (p := p) (by omega) (by omega)))
  tally := h.tally
  exchange := h.exchange
  bytes := fun a ha hp => (State.read_publish (Layout.not_isStatus ha)).trans (h.bytes a ha hp)

/-- A request taken while none is in flight. -/
theorem request_eq {s : State} (h : s.exchange.inFlight = none) (f : State → State) :
    request s f = .next (s.publish (f s)) := by
  simp [request, h]

/-- An answer alone publishes nothing. -/
theorem State.publish_answer (s : State) (p : PageId) (r : Result) (d : List Byte) :
    s.publish (s.answer p r d) = s.answer p r d :=
  State.publish_of_blocks rfl

/-! ### Targets and codes (R6, R197) -/

theorem Target.station_none {t : BitVec 16} (h : 16 ≤ t.toNat) : Target.station t = none := by
  unfold Target.station
  rw [dif_neg (by omega)]

theorem Target.heater_none {t : BitVec 16} (h : 32 ≤ t.toNat) : Target.heater t = none := by
  unfold Target.heater
  rw [dif_neg (by omega)]

theorem Target.zone_none {t : BitVec 16} (h : 4 ≤ t.toNat) : Target.zone t = none := by
  unfold Target.zone
  rw [dif_neg (by omega)]

theorem Target.table_none {t : BitVec 16} (h : 2 ≤ t.toNat) : Target.table t = none := by
  unfold Target.table
  rw [dif_neg (by omega)]

theorem Target.station_eq {t : BitVec 16} {st : StationId} (h : t.toNat = st.val) :
    Target.station t = some st := by
  unfold Target.station
  rw [dif_pos (by omega), Option.some.injEq]
  exact Fin.ext h

theorem Target.heater_eq {t : BitVec 16} {st : StationId} {area : Area}
    (h : t.toNat = 2 * st.val + (if area = .reflector then 0 else 1)) :
    Target.heater t = some (st, area) := by
  have hs := st.isLt
  unfold Target.heater
  cases area <;> simp only [if_true, if_false, reduceCtorEq] at h <;>
    rw [dif_pos (by omega), Option.some.injEq, Prod.mk.injEq] <;>
    exact ⟨Fin.ext (by simp only; omega), by simp [h]⟩

theorem Target.zone_eq {t : BitVec 16} {z : ZoneId} (h : t.toNat = z.val) :
    Target.zone t = some z := by
  unfold Target.zone
  rw [dif_pos (by omega), Option.some.injEq]
  exact Fin.ext h

theorem Target.table_eq {t : BitVec 16} {x : TableId} (h : t.toNat = x.val) :
    Target.table t = some x := by
  unfold Target.table
  rw [dif_pos (by omega), Option.some.injEq]
  exact Fin.ext h

/-- A request that names a station that is not retired is handed to its owner. -/
theorem State.onStation_eq {s : State} {page : PageId} {target : BitVec 16} {st : StationId}
    (h : target.toNat = st.val) (hr : (s.station st).retired = false)
    (f : StationId → State → State) : s.onStation page target f = f st s := by
  unfold State.onStation
  rw [Target.station_eq h]
  simp [hr]

theorem State.onHeater_eq {s : State} {page : PageId} {target : BitVec 16} {st : StationId}
    {area : Area} (h : target.toNat = 2 * st.val + (if area = .reflector then 0 else 1))
    (hr : (s.station st).retired = false) (f : StationId → Area → State → State) :
    s.onHeater page target f = f st area s := by
  unfold State.onHeater
  rw [Target.heater_eq h]
  simp [hr]

theorem State.onZone_eq {s : State} {page : PageId} {target : BitVec 16} {z : ZoneId}
    (h : target.toNat = z.val) (f : ZoneId → State → State) :
    s.onZone page target f = f z s := by
  unfold State.onZone
  rw [Target.zone_eq h]

theorem State.onTable_eq {s : State} {page : PageId} {target : BitVec 16} {x : TableId}
    (h : target.toNat = x.val) (f : TableId → State → State) :
    s.onTable page target f = f x s := by
  unfold State.onTable
  rw [Target.table_eq h]

theorem State.named_some {α : Type} {s : State} {page : PageId} {code : Option α} {a : α}
    (h : code = some a) (f : α → State → State) : s.named page code f = f a s := by
  rw [h]
  rfl

theorem State.named_none {α : Type} {s : State} {page : PageId} {code : Option α}
    (h : code = none) (f : α → State → State) :
    s.named page code f = s.answer page .badValue [] := by
  rw [h]
  rfl

/-- A request that comes to an answer alone. -/
theorem request_answer {s : State} (h : s.exchange.inFlight = none) {f : State → State}
    {p : PageId} {r : Result} {d : List Byte} (e : f s = s.answer p r d) :
    request s f = .next (s.answer p r d) := by
  rw [request_eq h, e, State.publish_answer]

end Sys2Proof.Machine
end

