-- ==== Sys2Proof/Laws/Effects.lean ====
section
/-! SUPPORT. The first effect of each shared operation, after which the event is settled: what a change of
a heater zone, of a station's axes, a fault and a placement of a tag do before PB, JS and WP follow. -/

namespace Sys2Proof.Machine

variable {k : Settle}

/-! ### Two updates of one record -/

theorem State.modStation_twice (s : State) (st : StationId) (f g : Station → Station) :
    (s.modStation st f).modStation st g = s.modStation st (fun x => g (f x)) := by
  simp [State.modStation]

theorem State.modStation_ext {s : State} {st : StationId} {f g : Station → Station}
    (h : f (s.station st) = g (s.station st)) : s.modStation st f = s.modStation st g := by
  have h' : f s.stations[st] = g s.stations[st] := h
  simp only [State.modStation, h']

theorem State.modStation_same {s : State} {st : StationId} {f : Station → Station}
    (h : f (s.station st) = s.station st) : s.modStation st f = s := by
  have h' : f s.stations[st] = s.stations[st] := h
  simp only [State.modStation, h']
  simp

theorem State.modZone_twice (s : State) (z : ZoneId) (f g : Zone → Zone) :
    (s.modZone z f).modZone z g = s.modZone z (fun x => g (f x)) := by
  simp [State.modZone]

theorem State.modZone_ext {s : State} {z : ZoneId} {f g : Zone → Zone}
    (h : f (s.zone z) = g (s.zone z)) : s.modZone z f = s.modZone z g := by
  have h' : f s.zones[z] = g s.zones[z] := h
  simp only [State.modZone, h']

theorem State.modTable_twice (s : State) (x : TableId) (f g : SweepTable → SweepTable) :
    (s.modTable x f).modTable x g = s.modTable x (fun y => g (f y)) := by
  simp [State.modTable]

theorem State.modTable_ext {s : State} {x : TableId} {f g : SweepTable → SweepTable}
    (h : f (s.table x) = g (s.table x)) : s.modTable x f = s.modTable x g := by
  have h' : f s.tables[x] = g s.tables[x] := h
  simp only [State.modTable, h']

/-! ### Heater zones -/

/-- A change of a heater zone: its own record and the probe requests, then what PB, and the shed order,
make of it (R94, R170, R181). -/
theorem Settled.changeHeater (hk : ∀ s, Settled s (k s)) (s : State) (st : StationId) (area : Area)
    (f : Heater → Heater) {q : List Area}
    (hq : q = if (f ((s.station st).heater area)).state = .probing then
        (if ((s.station st).heater area).state = .probing then (s.station st).probeQueue
          else (s.station st).probeQueue.erase area ++ [area])
      else (s.station st).probeQueue.erase area) :
    Settled (s.modStation st (fun x => { x.modHeater area f with probeQueue := q }))
      (s.changeHeater k st area f) := by
  unfold State.changeHeater
  dsimp only
  have h1 : ∀ t : State, Settled t
      (if area = .reflector ∧ ((s.station st).heater area).state ≠
          (((s.modHeater st area f).station st).heater area).state then t.judgeShed k st else t) := by
    intro t
    split
    · exact .judgeShed hk st t
    · exact .refl t
  refine Kept.trans ?_ (h1 _)
  have h2 : (s.modHeater st area f).modStation st (fun x => { x with
      probeQueue := if (((s.modHeater st area f).station st).heater area).state = .probing then
          (if ((s.station st).heater area).state = .probing then x.probeQueue
            else x.probeQueue.erase area ++ [area])
        else x.probeQueue.erase area }) =
      s.modStation st (fun x => { x.modHeater area f with probeQueue := q }) := by
    unfold State.modHeater
    rw [State.modStation_twice]
    refine State.modStation_ext ?_
    have e : ((s.modStation st (fun x => x.modHeater area f)).station st).heater area =
        f ((s.station st).heater area) := by
      rw [State.station_modStation, if_pos rfl, Station.heater_modHeater, if_pos rfl]
    rw [e, hq]
    cases area <;> rfl
  rw [h2]
  split
  · exact Kept.trans (Kept.leave _) (hk _)
  · split
    · split
      · exact Kept.trans (Kept.leave _) (hk _)
      · exact .refl _
    · exact .refl _

/-- A record after its own change of a heater zone. -/
theorem Station.heater_put (x : Station) (area : Area) (f : Heater → Heater) (q : List Area) :
    ({ x.modHeater area f with probeQueue := q } : Station).heater area = f (x.heater area) := by
  cases area <;> rfl

theorem Station.mayHeat_put (x : Station) (area : Area) (f : Heater → Heater) (q : List Area) :
    ({ x.modHeater area f with probeQueue := q } : Station).mayHeat = x.mayHeat := by
  cases area <;> rfl

/-- Whether a station may probe or claim, said of its tags, its link and its retirement. -/
theorem Station.mayHeat_iff (x : Station) : x.mayHeat = true ↔
    (∀ t ∈ x.tags, t.scope = .motion) ∧ x.link.up = true ∧ x.retired = false := by
  simp only [Station.mayHeat, Station.heatBlocked, Bool.and_eq_true, Bool.not_eq_true',
    List.any_eq_false]
  constructor
  · rintro ⟨⟨h, a⟩, b⟩
    refine ⟨fun t ht => ?_, a, b⟩
    have := h t ht
    cases e : t.scope <;> simp_all
  · rintro ⟨h, a, b⟩
    refine ⟨⟨fun t ht => ?_, a⟩, b⟩
    rw [h t ht]
    decide

theorem StationKept.mayHeat {x y : Station} (h : StationKept x y) : y.mayHeat = x.mayHeat := by
  simp [Station.mayHeat, Station.heatBlocked, h.tags, h.link, h.retired]

theorem HeaterKept.call {a b : Heater} (h : HeaterKept a b) : b.call = a.call := by
  simp [Heater.call, h.mode, h.manual, h.auto, h.meltOff]

/-- An IDLE zone that a settled change has left enters PROBING: the two changes at once, settled. -/
theorem Settled.probe (hk : ∀ s, Settled s (k s)) {s t : State} {st : StationId} {area : Area}
    {f : Heater → Heater} {q : List Area} (hi : (f ((s.station st).heater area)).state = .idle)
    (h : Settled (s.modStation st (fun x => { x.modHeater area f with probeQueue := q })) t) :
    Settled (s.modStation st (fun x =>
        { x.modHeater area (fun h => { f h with state := .probing, probeNamed := false }) with
          probeQueue := q.erase area ++ [area] }))
      (t.changeHeater k st area (fun h => { h with state := .probing, probeNamed := false })) := by
  have e1 : (s.modStation st (fun x => { x.modHeater area f with probeQueue := q })).station st =
      { (s.station st).modHeater area f with probeQueue := q } := by
    rw [State.station_modStation, if_pos rfl]
  have hh := (h.station st).heater area
  rw [e1, Station.heater_put] at hh
  have ti : ((t.station st).heater area).state = .idle := by
    rw [(hh.idle (by rw [hi]; rfl)).1, hi]
  have c := Settled.changeHeater hk t st area
    (fun h => { h with state := .probing, probeNamed := false }) rfl
  rw [if_pos rfl, if_neg (by rw [ti]; decide)] at c
  refine Kept.trans ?_ c
  have m := h.modStation_congr (E := fun _ => False) st (f := fun x =>
    { x.modHeater area (fun h => { h with state := .probing, probeNamed := false }) with
      probeQueue := x.probeQueue.erase area ++ [area] }) ?_ ?_
  · rw [State.modStation_twice] at m
    convert m using 1 <;> refine State.modStation_ext ?_ <;> cases area <;> rfl
  · intro hs
    refine ⟨?_, ?_, ?_, ?_, ?_, ?_, ?_, ?_, ?_, ?_, ?_, ?_, fun ax => ?_, fun b => ?_, fun b hb => ?_⟩
    case refine_13 => have := hs.axis ax; cases area <;> cases ax <;> exact this
    case refine_14 =>
      by_cases eb : b = area
      · subst eb
        rw [e1, Station.heater_put, Station.heater_put, Station.heater_put]
        obtain ⟨-, i2, i3, i4, i5, i6⟩ := hh.idle (by rw [hi]; rfl)
        exact ⟨hh.mode, hh.cls, hh.lastProbe, rfl, hh.faultCount, hh.lastFault, hh.manual, hh.auto,
          hh.sensorMissing, hh.current, hh.probeWindow, hh.cooldown, hh.meltOff, id,
          fun _ => ⟨rfl, i2, i3, i4, i5, i6⟩⟩
      · have hb := hs.heater b
        cases area <;> cases b <;> first | exact absurd rfl eb | exact hb
    case refine_15 =>
      by_cases eb : b = area
      · subst eb; simp
      · have hb' : ((s.modStation st (fun x =>
            { x.modHeater area f with probeQueue := q })).station st |>.heater b).state =
            .probing := by
          cases area <;> cases b <;> first | exact absurd rfl eb | exact hb
        have := hs.probes b hb'
        rw [e1] at this
        cases area <;> cases b <;> first
          | exact absurd rfl eb
          | (simp [List.mem_erase_of_ne]; exact this)
    all_goals first
      | (have := hs.cfg; cases area <;> exact this)
      | (have := hs.link; cases area <;> exact this)
      | (have := hs.demand; cases area <;> exact this)
      | (have := hs.validation; cases area <;> exact this)
      | (have := hs.lastHeat; cases area <;> exact this)
      | (have := hs.tags; cases area <;> exact this)
      | (have := hs.sitePending; cases area <;> exact this)
      | (have := hs.lastLockout; cases area <;> exact this)
      | (have := hs.panel; cases area <;> exact this)
      | (have := hs.fuse1; cases area <;> exact this)
      | (have := hs.fuse2; cases area <;> exact this)
      | (have := hs.retired; cases area <;> exact this)
  · intro hq
    cases area <;> exact ⟨hq.bookA, hq.bookB, hq.lastBook, hq.hold, hq.progress⟩

end Sys2Proof.Machine
end

