-- ==== Sys2Proof/WellFormed.lean ====
section
/-! DEFINITION. Which commands are well formed: a panel answer stands in the row of its answer code (R192,
R197), and every other command for any operands, since a host page, a register write and a port may
carry any bits. -/

namespace Sys2Proof

/-- Whether a frame is as long as a panel answer and carries an answer code that a row takes. -/
def panelRow (frame : Frame) (code : Nat → Bool) : Bool :=
  frame.length == Machine.Frame.panelLength && code (Machine.Frame.panelCode frame)

/-- The well-formed commands. -/
def Instr.wellFormed : Instr → Bool
  | .panelNone frame => panelRow frame (fun c => c == 0)
  | .panelLock frame => panelRow frame (fun c => c == 1)
  | .panelRelease frame => panelRow frame (fun c => c == 2)
  | .retireConfirm frame => panelRow frame (fun c => c == 3)
  | .unlistedPanelAnswer frame => panelRow frame (fun c => decide (3 < c))
  | .postWrite _ _ | .summaryRead | .maskWrite _ | .intEnable _ | .exchangeReset _
  | .registerWriteIgnored _ _ | .requestTake | .setTime _ _ _ | .armBook _ _ _ _
  | .disarmBook _ _ | .stopBook _ _ | .configureStation _ _ _ | .recoverAxis _ _ _
  | .setBudget _ _ _ | .launchSweep _ _ _ _ _ | .cancelSweep _ _ | .configureSensing _ _
  | .recalibrate _ | .configureZone _ _ _ | .stowZone _ _ | .releaseZone _ _
  | .setHeatMode _ _ _ | .heatOn _ _ | .heatOff _ _ | .probeHeater _ _ | .placeTag _ _ _ _ _
  | .clearReturn _ _ | .clearSite _ _ | .retireStation _ _ | .validationCompletion
  | .fullReset _ _ _ | .sitePulse | .pulseWatchExpiry | .sweepStrobe | .siteStowChange _
  | .siteStopChange _ | .feederAlarmChange _ | .driveIntervalExpiry | .linkLoss _
  | .reportFrame _ _ | .brakeTimeout _ _ | .trackingFault _ _ | .holdIdleExpiry _ _
  | .strobeTimeout _ | .settleTimeout _ | .passBoundary | .quietRateEntry | .stageMisses _
  | .baselineStep _ | .forcedRecalibration _ | .sampleReply _ | .blindTimerExpiry _
  | .stowDeadlineExpiry _ | .returnHoldExpiry _ | .probeWindowExpiry _ _
  | .energizeWindowExpiry _ _ | .overloadExpiry _ _ | .openElementExpiry _ _
  | .cooldownExpiry _ _ | .meltOffExpiry _ _ | .onRunExpiry _ | .panelPoll | .panelSlotEnd
  | .panelLost _ => true

/-- The code of a request kind (R197); none for a command that is no request. -/
def Instr.kindCode : Instr → Option Nat
  | .setTime _ _ _ => some 1
  | .armBook _ _ _ _ => some 2
  | .disarmBook _ _ => some 3
  | .stopBook _ _ => some 4
  | .configureStation _ _ _ => some 5
  | .recoverAxis _ _ _ => some 6
  | .setBudget _ _ _ => some 7
  | .launchSweep _ _ _ _ _ => some 8
  | .cancelSweep _ _ => some 9
  | .configureSensing _ _ => some 10
  | .recalibrate _ => some 11
  | .configureZone _ _ _ => some 12
  | .stowZone _ _ => some 13
  | .releaseZone _ _ => some 14
  | .setHeatMode _ _ _ => some 15
  | .heatOn _ _ => some 16
  | .heatOff _ _ => some 17
  | .probeHeater _ _ => some 18
  | .placeTag _ _ _ _ _ => some 19
  | .clearReturn _ _ => some 20
  | .clearSite _ _ => some 21
  | .retireStation _ _ => some 22
  | .postWrite _ _ | .summaryRead | .maskWrite _ | .intEnable _ | .exchangeReset _
  | .registerWriteIgnored _ _ | .requestTake | .validationCompletion | .fullReset _ _ _
  | .sitePulse | .pulseWatchExpiry | .sweepStrobe | .siteStowChange _ | .siteStopChange _
  | .feederAlarmChange _ | .driveIntervalExpiry | .linkLoss _ | .reportFrame _ _
  | .brakeTimeout _ _ | .trackingFault _ _ | .holdIdleExpiry _ _ | .strobeTimeout _
  | .settleTimeout _ | .passBoundary | .quietRateEntry | .stageMisses _ | .baselineStep _
  | .forcedRecalibration _ | .sampleReply _ | .blindTimerExpiry _ | .stowDeadlineExpiry _
  | .returnHoldExpiry _ | .probeWindowExpiry _ _ | .energizeWindowExpiry _ _
  | .overloadExpiry _ _ | .openElementExpiry _ _ | .cooldownExpiry _ _ | .meltOffExpiry _ _
  | .onRunExpiry _ | .panelPoll | .panelSlotEnd | .panelLost _ | .panelNone _ | .panelLock _
  | .panelRelease _ | .retireConfirm _ | .unlistedPanelAnswer _ => none

/-- The request page on which a request stands (R6); none for a command that is no request. -/
def Instr.page : Instr → Option PageId
  | .setTime page _ _ | .armBook page _ _ _ | .disarmBook page _ | .stopBook page _
  | .configureStation page _ _ | .recoverAxis page _ _ | .setBudget page _ _
  | .launchSweep page _ _ _ _ | .cancelSweep page _ | .configureSensing page _
  | .recalibrate page | .configureZone page _ _ | .stowZone page _ | .releaseZone page _
  | .setHeatMode page _ _ | .heatOn page _ | .heatOff page _ | .probeHeater page _
  | .placeTag page _ _ _ _ | .clearReturn page _ | .clearSite page _ | .retireStation page _ =>
    some page
  | .postWrite _ _ | .summaryRead | .maskWrite _ | .intEnable _ | .exchangeReset _
  | .registerWriteIgnored _ _ | .requestTake | .validationCompletion | .fullReset _ _ _
  | .sitePulse | .pulseWatchExpiry | .sweepStrobe | .siteStowChange _ | .siteStopChange _
  | .feederAlarmChange _ | .driveIntervalExpiry | .linkLoss _ | .reportFrame _ _
  | .brakeTimeout _ _ | .trackingFault _ _ | .holdIdleExpiry _ _ | .strobeTimeout _
  | .settleTimeout _ | .passBoundary | .quietRateEntry | .stageMisses _ | .baselineStep _
  | .forcedRecalibration _ | .sampleReply _ | .blindTimerExpiry _ | .stowDeadlineExpiry _
  | .returnHoldExpiry _ | .probeWindowExpiry _ _ | .energizeWindowExpiry _ _
  | .overloadExpiry _ _ | .openElementExpiry _ _ | .cooldownExpiry _ _ | .meltOffExpiry _ _
  | .onRunExpiry _ | .panelPoll | .panelSlotEnd | .panelLost _ | .panelNone _ | .panelLock _
  | .panelRelease _ | .retireConfirm _ | .unlistedPanelAnswer _ => none

end Sys2Proof
end

