-- ==== Sys2Proof/Laws/PerInstr.lean ====
section
/-! SUPPORT. A law of every command, one lemma for each: a command stands on a request page exactly where it
has a code among the request kinds, and the codes are those of R197. -/

namespace Sys2Proof.Laws

/-- A command has a request page exactly where it has a request kind code, which is one of 1 to 22. -/
def Page.Statement (i : Instr) : Prop :=
  (i.page.isSome = true ↔ i.kindCode.isSome = true) ∧ ∀ n ∈ i.kindCode, 1 ≤ n ∧ n ≤ 22

theorem Page.postWrite (stores : List (BitVec 18 × Byte)) (value : BitVec 32) :
    Page.Statement (.postWrite stores value) :=
  ⟨Iff.rfl, fun _ h => nomatch h⟩

theorem Page.summaryRead :
    Page.Statement .summaryRead :=
  ⟨Iff.rfl, fun _ h => nomatch h⟩

theorem Page.maskWrite (value : BitVec 32) :
    Page.Statement (.maskWrite value) :=
  ⟨Iff.rfl, fun _ h => nomatch h⟩

theorem Page.intEnable (enable : Bool) :
    Page.Statement (.intEnable enable) :=
  ⟨Iff.rfl, fun _ h => nomatch h⟩

theorem Page.exchangeReset (enable : Bool) :
    Page.Statement (.exchangeReset enable) :=
  ⟨Iff.rfl, fun _ h => nomatch h⟩

theorem Page.registerWriteIgnored (reg : IgnoredWrite) (value : BitVec 32) :
    Page.Statement (.registerWriteIgnored reg value) :=
  ⟨Iff.rfl, fun _ h => nomatch h⟩

theorem Page.requestTake :
    Page.Statement .requestTake :=
  ⟨Iff.rfl, fun _ h => nomatch h⟩

theorem Page.setTime (page : PageId) (value : BitVec 48) (mode : BitVec 8) :
    Page.Statement (.setTime page value mode) :=
  ⟨Iff.rfl, fun _ h => Option.some.inj h ▸ by decide⟩

theorem Page.armBook (page : PageId) (target : BitVec 16) (letter : BitVec 8) (number : BitVec 16) :
    Page.Statement (.armBook page target letter number) :=
  ⟨Iff.rfl, fun _ h => Option.some.inj h ▸ by decide⟩

theorem Page.disarmBook (page : PageId) (target : BitVec 16) :
    Page.Statement (.disarmBook page target) :=
  ⟨Iff.rfl, fun _ h => Option.some.inj h ▸ by decide⟩

theorem Page.stopBook (page : PageId) (target : BitVec 16) :
    Page.Statement (.stopBook page target) :=
  ⟨Iff.rfl, fun _ h => Option.some.inj h ▸ by decide⟩

theorem Page.configureStation (page : PageId) (target : BitVec 16) (cfg : RawStationConfig) :
    Page.Statement (.configureStation page target cfg) :=
  ⟨Iff.rfl, fun _ h => Option.some.inj h ▸ by decide⟩

theorem Page.recoverAxis (page : PageId) (target : BitVec 16) (axis : BitVec 8) :
    Page.Statement (.recoverAxis page target axis) :=
  ⟨Iff.rfl, fun _ h => Option.some.inj h ▸ by decide⟩

theorem Page.setBudget (page : PageId) (normal : BitVec 32) (emergency : BitVec 32) :
    Page.Statement (.setBudget page normal emergency) :=
  ⟨Iff.rfl, fun _ h => Option.some.inj h ▸ by decide⟩

theorem Page.launchSweep (page : PageId) (target : BitVec 16) (source : BitVec 8)
    (start : BitVec 48) (timeout : BitVec 32) :
    Page.Statement (.launchSweep page target source start timeout) :=
  ⟨Iff.rfl, fun _ h => Option.some.inj h ▸ by decide⟩

theorem Page.cancelSweep (page : PageId) (target : BitVec 16) :
    Page.Statement (.cancelSweep page target) :=
  ⟨Iff.rfl, fun _ h => Option.some.inj h ▸ by decide⟩

theorem Page.configureSensing (page : PageId) (count : BitVec 8) :
    Page.Statement (.configureSensing page count) :=
  ⟨Iff.rfl, fun _ h => Option.some.inj h ▸ by decide⟩

theorem Page.recalibrate (page : PageId) :
    Page.Statement (.recalibrate page) :=
  ⟨Iff.rfl, fun _ h => Option.some.inj h ▸ by decide⟩

theorem Page.configureZone (page : PageId) (target : BitVec 16) (cfg : RawZoneConfig) :
    Page.Statement (.configureZone page target cfg) :=
  ⟨Iff.rfl, fun _ h => Option.some.inj h ▸ by decide⟩

theorem Page.stowZone (page : PageId) (target : BitVec 16) :
    Page.Statement (.stowZone page target) :=
  ⟨Iff.rfl, fun _ h => Option.some.inj h ▸ by decide⟩

theorem Page.releaseZone (page : PageId) (target : BitVec 16) :
    Page.Statement (.releaseZone page target) :=
  ⟨Iff.rfl, fun _ h => Option.some.inj h ▸ by decide⟩

theorem Page.setHeatMode (page : PageId) (target : BitVec 16) (mode : BitVec 8) :
    Page.Statement (.setHeatMode page target mode) :=
  ⟨Iff.rfl, fun _ h => Option.some.inj h ▸ by decide⟩

theorem Page.heatOn (page : PageId) (target : BitVec 16) :
    Page.Statement (.heatOn page target) :=
  ⟨Iff.rfl, fun _ h => Option.some.inj h ▸ by decide⟩

theorem Page.heatOff (page : PageId) (target : BitVec 16) :
    Page.Statement (.heatOff page target) :=
  ⟨Iff.rfl, fun _ h => Option.some.inj h ▸ by decide⟩

theorem Page.probeHeater (page : PageId) (target : BitVec 16) :
    Page.Statement (.probeHeater page target) :=
  ⟨Iff.rfl, fun _ h => Option.some.inj h ▸ by decide⟩

theorem Page.placeTag (page : PageId) (target : BitVec 16) (kind : BitVec 8) (scope : BitVec 8)
    (id : BitVec 16) :
    Page.Statement (.placeTag page target kind scope id) :=
  ⟨Iff.rfl, fun _ h => Option.some.inj h ▸ by decide⟩

theorem Page.clearReturn (page : PageId) (target : BitVec 16) :
    Page.Statement (.clearReturn page target) :=
  ⟨Iff.rfl, fun _ h => Option.some.inj h ▸ by decide⟩

theorem Page.clearSite (page : PageId) (target : BitVec 16) :
    Page.Statement (.clearSite page target) :=
  ⟨Iff.rfl, fun _ h => Option.some.inj h ▸ by decide⟩

theorem Page.retireStation (page : PageId) (target : BitVec 16) :
    Page.Statement (.retireStation page target) :=
  ⟨Iff.rfl, fun _ h => Option.some.inj h ▸ by decide⟩

theorem Page.validationCompletion :
    Page.Statement .validationCompletion :=
  ⟨Iff.rfl, fun _ h => nomatch h⟩

theorem Page.fullReset (siteStow : Bool) (siteStop : Bool) (feederAlarm : Bool) :
    Page.Statement (.fullReset siteStow siteStop feederAlarm) :=
  ⟨Iff.rfl, fun _ h => nomatch h⟩

theorem Page.sitePulse :
    Page.Statement .sitePulse :=
  ⟨Iff.rfl, fun _ h => nomatch h⟩

theorem Page.pulseWatchExpiry :
    Page.Statement .pulseWatchExpiry :=
  ⟨Iff.rfl, fun _ h => nomatch h⟩

theorem Page.sweepStrobe :
    Page.Statement .sweepStrobe :=
  ⟨Iff.rfl, fun _ h => nomatch h⟩

theorem Page.siteStowChange (level : Bool) :
    Page.Statement (.siteStowChange level) :=
  ⟨Iff.rfl, fun _ h => nomatch h⟩

theorem Page.siteStopChange (level : Bool) :
    Page.Statement (.siteStopChange level) :=
  ⟨Iff.rfl, fun _ h => nomatch h⟩

theorem Page.feederAlarmChange (level : Bool) :
    Page.Statement (.feederAlarmChange level) :=
  ⟨Iff.rfl, fun _ h => nomatch h⟩

theorem Page.driveIntervalExpiry :
    Page.Statement .driveIntervalExpiry :=
  ⟨Iff.rfl, fun _ h => nomatch h⟩

theorem Page.linkLoss (st : StationId) :
    Page.Statement (.linkLoss st) :=
  ⟨Iff.rfl, fun _ h => nomatch h⟩

theorem Page.reportFrame (st : StationId) (frame : Frame) :
    Page.Statement (.reportFrame st frame) :=
  ⟨Iff.rfl, fun _ h => nomatch h⟩

theorem Page.brakeTimeout (st : StationId) (ax : AxisId) :
    Page.Statement (.brakeTimeout st ax) :=
  ⟨Iff.rfl, fun _ h => nomatch h⟩

theorem Page.trackingFault (st : StationId) (ax : AxisId) :
    Page.Statement (.trackingFault st ax) :=
  ⟨Iff.rfl, fun _ h => nomatch h⟩

theorem Page.holdIdleExpiry (st : StationId) (ax : AxisId) :
    Page.Statement (.holdIdleExpiry st ax) :=
  ⟨Iff.rfl, fun _ h => nomatch h⟩

theorem Page.strobeTimeout (t : TableId) :
    Page.Statement (.strobeTimeout t) :=
  ⟨Iff.rfl, fun _ h => nomatch h⟩

theorem Page.settleTimeout (st : StationId) :
    Page.Statement (.settleTimeout st) :=
  ⟨Iff.rfl, fun _ h => nomatch h⟩

theorem Page.passBoundary :
    Page.Statement .passBoundary :=
  ⟨Iff.rfl, fun _ h => nomatch h⟩

theorem Page.quietRateEntry :
    Page.Statement .quietRateEntry :=
  ⟨Iff.rfl, fun _ h => nomatch h⟩

theorem Page.stageMisses (g : StageId) :
    Page.Statement (.stageMisses g) :=
  ⟨Iff.rfl, fun _ h => nomatch h⟩

theorem Page.baselineStep (g : StageId) :
    Page.Statement (.baselineStep g) :=
  ⟨Iff.rfl, fun _ h => nomatch h⟩

theorem Page.forcedRecalibration (g : StageId) :
    Page.Statement (.forcedRecalibration g) :=
  ⟨Iff.rfl, fun _ h => nomatch h⟩

theorem Page.sampleReply (frame : Frame) :
    Page.Statement (.sampleReply frame) :=
  ⟨Iff.rfl, fun _ h => nomatch h⟩

theorem Page.blindTimerExpiry (z : ZoneId) :
    Page.Statement (.blindTimerExpiry z) :=
  ⟨Iff.rfl, fun _ h => nomatch h⟩

theorem Page.stowDeadlineExpiry (z : ZoneId) :
    Page.Statement (.stowDeadlineExpiry z) :=
  ⟨Iff.rfl, fun _ h => nomatch h⟩

theorem Page.returnHoldExpiry (z : ZoneId) :
    Page.Statement (.returnHoldExpiry z) :=
  ⟨Iff.rfl, fun _ h => nomatch h⟩

theorem Page.probeWindowExpiry (st : StationId) (area : Area) :
    Page.Statement (.probeWindowExpiry st area) :=
  ⟨Iff.rfl, fun _ h => nomatch h⟩

theorem Page.energizeWindowExpiry (st : StationId) (area : Area) :
    Page.Statement (.energizeWindowExpiry st area) :=
  ⟨Iff.rfl, fun _ h => nomatch h⟩

theorem Page.overloadExpiry (st : StationId) (area : Area) :
    Page.Statement (.overloadExpiry st area) :=
  ⟨Iff.rfl, fun _ h => nomatch h⟩

theorem Page.openElementExpiry (st : StationId) (area : Area) :
    Page.Statement (.openElementExpiry st area) :=
  ⟨Iff.rfl, fun _ h => nomatch h⟩

theorem Page.cooldownExpiry (st : StationId) (area : Area) :
    Page.Statement (.cooldownExpiry st area) :=
  ⟨Iff.rfl, fun _ h => nomatch h⟩

theorem Page.meltOffExpiry (st : StationId) (area : Area) :
    Page.Statement (.meltOffExpiry st area) :=
  ⟨Iff.rfl, fun _ h => nomatch h⟩

theorem Page.onRunExpiry (st : StationId) :
    Page.Statement (.onRunExpiry st) :=
  ⟨Iff.rfl, fun _ h => nomatch h⟩

theorem Page.panelPoll :
    Page.Statement .panelPoll :=
  ⟨Iff.rfl, fun _ h => nomatch h⟩

theorem Page.panelSlotEnd :
    Page.Statement .panelSlotEnd :=
  ⟨Iff.rfl, fun _ h => nomatch h⟩

theorem Page.panelLost (st : StationId) :
    Page.Statement (.panelLost st) :=
  ⟨Iff.rfl, fun _ h => nomatch h⟩

theorem Page.panelNone (frame : Frame) :
    Page.Statement (.panelNone frame) :=
  ⟨Iff.rfl, fun _ h => nomatch h⟩

theorem Page.panelLock (frame : Frame) :
    Page.Statement (.panelLock frame) :=
  ⟨Iff.rfl, fun _ h => nomatch h⟩

theorem Page.panelRelease (frame : Frame) :
    Page.Statement (.panelRelease frame) :=
  ⟨Iff.rfl, fun _ h => nomatch h⟩

theorem Page.retireConfirm (frame : Frame) :
    Page.Statement (.retireConfirm frame) :=
  ⟨Iff.rfl, fun _ h => nomatch h⟩

theorem Page.unlistedPanelAnswer (frame : Frame) :
    Page.Statement (.unlistedPanelAnswer frame) :=
  ⟨Iff.rfl, fun _ h => nomatch h⟩

end Sys2Proof.Laws
end

