-- ==== Sys2Proof/Tests/Slice0.lean ====
section
/-! SUPPORT. Tests: the refusals of the well-formedness checks, figures worked by hand from the rules, one
step of light commands, and for every obligation with hypotheses a state and operands that meet them, at
the boundaries of their ranges. Expected values come from the rule that each comment names. -/

set_option Elab.async false

namespace Sys2Proof.Tests

open Machine

/-! ### Helpers -/

/-- Whether a command answers a next state with a property. -/
def leads (c : Instr) (s : State) (p : State → Bool) : Bool :=
  match exec c s with
  | .next t => p t
  | _ => false

/-- The reset state with no byte in exchange memory. -/
def fresh : State := { State.reset with mem := [] }

/-- The fresh state with S0 changed. -/
def withStation (f : Station → Station) : State := fresh.modStation 0 f

/-- A report that shows both amplifiers ready and both brakes on (R29). -/
def ready : Report :=
  { azEncoder := 0, elEncoder := 0, azReady := true, elReady := true, azReleased := false,
    elReleased := false, azCcw := false, azCw := false, elLow := false, elHigh := false,
    reflectorCurrent := 0, feedCurrent := 0, probe := none }

/-- The fresh state with the link of S0 UP, no tag on it, and S0 changed. -/
def linked (f : Station → Station) : State :=
  withStation (fun x => f { x with link := { x.link with up := true, report := some ready },
                                   tags := [] })

/-- The fresh state with both fuse words of every station written. -/
def allRetired : State := State.afterReset [] [] (fun _ => (true, true)) false false false 0

/-- The fresh state with bytes on a request page. -/
def paged (p : PageId) (bytes : List Byte) : State := fresh.store (Layout.page p) bytes

/-- The fresh state with T0 in a state. -/
def tabled (st : TableState) : State := fresh.modTable 0 (fun x => { x with state := st })

/-- The fresh state with the panel slot of S0 open and the given part of its panel record. -/
def slotted (f : Station → Station) : State :=
  (withStation f).modPanelLine (fun p => { p with slot := 0, isOpen := true, answered := false })

/-- Whether a page shows ANSWERED and a result code (R8). -/
def answered (s : State) (p : PageId) (code : Byte) : Bool :=
  Memory.read s.mem (Layout.page p) == 3 && Memory.read s.mem (Layout.page p + 8) == code

/-- The law of the sweeps of a state, by what its tables and its holds show. -/
theorem sweeps_of {s : State}
    (one : ∀ x y : TableId, x ≠ y → (s.table x).state.runs = true → (s.table y).state.runs = false)
    (held : ∀ st : StationId,
      (s.station st).hold.all (fun h => (s.table h.table).state.runs) = true) : Law.sweeps s :=
  ⟨one, fun st h e => by simpa [e] using held st⟩

/-- T0 RUNNING with S0 in its hold. -/
def running : State := (tabled .running).modStation 0 (fun x => { x with
  hold := some { table := 0, az := 0, el := 0 } })

/-- A snow stage that is HIGH from 1 on. -/
def snowStage : StageConfig :=
  { channel := 0, kind := .snowLoad, kf := 3, ks := 3, skip := 2, freezeLimit := 0, hysteresis := 0,
    high := some 1, low := none, gust := none }

/-- The fresh state with both tables ARMED for the next pulse and for the strobe. -/
def bothArmed : State :=
  let armed (x : SweepTable) : SweepTable := { x with
    state := .armed, strobe := some 1, snapshot := some [],
    launch := some { source := .nextPulse, time := 0, timeout := 1 } }
  (fresh.modTable 0 armed).modTable 1 armed

/-! ### Well-formedness -/

theorem test_wellFormed_refuses_none : (Instr.panelNone [0, 1, 0, 0, 0, 0, 0, 0]).wellFormed = false := by
  decide +kernel

theorem test_wellFormed_refuses_lock : (Instr.panelLock [0, 2, 1, 1, 1, 0, 0, 0]).wellFormed = false := by
  decide +kernel

theorem test_wellFormed_refuses_release :
    (Instr.panelRelease [0, 3, 1, 1, 1, 0, 0, 0]).wellFormed = false := by decide +kernel

theorem test_wellFormed_refuses_confirm :
    (Instr.retireConfirm [0, 3, 0, 0, 0, 0, 0]).wellFormed = false := by decide +kernel

theorem test_wellFormed_refuses_unlisted :
    (Instr.unlistedPanelAnswer [0, 3, 0, 0, 0, 0, 0, 0]).wellFormed = false := by decide +kernel

theorem test_wellFormed_admits : (Instr.panelNone [0, 0, 0, 0, 0, 0, 0, 0]).wellFormed = true ∧
    (Instr.unlistedPanelAnswer [0, 4, 0, 0, 0, 0, 0, 0]).wellFormed = true ∧
    Instr.summaryRead.wellFormed = true := by decide +kernel

/-! ### Figures worked from the rules -/

/-- R198: polynomial 0x1021, start 0xFFFF: one zero byte leaves 0xE1F0 (worked by hand, shift by
shift). -/
theorem test_checkWord_zero : CheckWord.of [0] = 0xE1F0 := by decide +kernel

/-- R198: the check word of the digits 1 to 9. -/
theorem test_checkWord_digits :
    CheckWord.of [0x31, 0x32, 0x33, 0x34, 0x35, 0x36, 0x37, 0x38, 0x39] = 0x29B1 := by decide +kernel

/-- R56: half-way between 0 and 1 the quotient rounds away from zero, on both sides. -/
theorem test_interpolate_half : interpolate 0 0 20 1 10 = 1 ∧ interpolate 0 0 20 (-1) 10 = -1 ∧
    interpolate 0 0 20 1 9 = 0 := by decide +kernel

/-- R58: a = 500000/2500 = 200; r = 1000: isqrt(400000) = 632. -/
theorem test_braking : StationConfig.reset.az.accel = 200 ∧ brakingStep 200 1000 = 632 ∧
    brakingStep 200 (-1000) = -632 ∧ brakingStep 200 100 = 100 := by decide +kernel

/-- R60: 2000000 µdeg/s is 40000 µdeg in 20 ms at SLEW and 4000 at TRACK. -/
theorem test_stepLimit : StationConfig.reset.az.stepLimit .slew = 40000 ∧
    StationConfig.reset.az.stepLimit .track = 4000 := by decide +kernel

/-- R171: the edges of the classes. -/
theorem test_verdict : Verdict.of 19 = .short ∧ Verdict.of 20 = .invalid ∧
    Verdict.of 229 = .invalid ∧ Verdict.of 230 = .good .c ∧ Verdict.of 300 = .good .c ∧
    Verdict.of 301 = .invalid ∧ Verdict.of 350 = .good .b ∧ Verdict.of 451 = .invalid ∧
    Verdict.of 700 = .good .a ∧ Verdict.of 900 = .good .a ∧ Verdict.of 4000 = .invalid ∧
    Verdict.of 4001 = .open := by decide +kernel

/-- R133: the filter moves by the floor of the difference over 2^k. -/
theorem test_filterStep : filterStep 0 7 3 = 0 ∧ filterStep 0 (-1) 3 = -1 ∧
    filterStep 100 108 3 = 101 := by decide +kernel

/-- R197: little-endian numbers, two's complement. -/
theorem test_bytes : Bytes.ofNat 4 0x01020304 = [4, 3, 2, 1] ∧ Bytes.ofInt 2 (-2) = [0xFE, 0xFF] ∧
    Bytes.signed 2 0x8000 = -32768 ∧ Bytes.toNat [0xDC, 5] = 1500 := by decide +kernel

/-- R197: the places of the areas. -/
theorem test_layout : Layout.book 15 .b = 0xF800 ∧ Layout.page 31 = 0x11F00 ∧
    Layout.sweepEntry 1 31 = 0x127E0 ∧ Layout.stage 15 = 0x129E0 ∧
    (Tally.panelLosses 15).address = 0x154E0 := by decide +kernel

/-! ### One step of light commands -/

/-- R3, R14: the twelve low bits alone. -/
theorem test_maskWrite :
    leads (.maskWrite 0xFFFFF801) fresh (fun t => t.exchange.mask == 0x801) = true := by
  decide +kernel

/-- R13. -/
theorem test_summaryRead : leads .summaryRead (fresh.bump .timeSteps)
    (fun t => t.exchange.readData == 4 && t.exchange.summary == 0) = true := by decide +kernel

/-- R4: index 32 is a stray post. -/
theorem test_post_stray : leads (.postWrite [] 32) fresh
    (fun t => t.tally .strayPosts == 1 && t.exchange.queue == []) = true := by decide +kernel

/-- R4: the page that the host marked POSTED is queued. -/
theorem test_post_queues : leads (.postWrite [(0x11F00, 1)] 31) fresh
    (fun t => t.exchange.queue == [31]) = true := by decide +kernel

/-- R5, R6, R8: a posted page of kind 0 is answered UNKNOWN_KIND, code 2. -/
theorem test_take_unknown : answered ((paged 0 [1]).take settle 0 []) 0 2 = true ∧
    ((paged 0 [1]).take settle 0 []).tally .answers = 1 := by decide +kernel

/-- R20, R21: a step of more than 2 ms counts TIME_STEPS; the time state becomes FREE. -/
theorem test_setTime : leads (.setTime 0 3 0) fresh
    (fun t => t.time.time == 3 && t.time.state == .free && t.tally .timeSteps == 1) = true := by
  decide +kernel

/-- R21: a set at a pulse must be a whole second: code 4. -/
theorem test_setTime_atPulse_refused : answered (fresh.takeSetTime 0 999 1) 0 4 = true := by
  decide +kernel

/-- R23: 1499 ms past a second, 499 over: array time goes back to the second, more than 2 ms. -/
theorem test_pulse_snaps : leads .sitePulse
    (fresh.modTime (fun t => { t with state := .free, time := 1499 }))
    (fun t => t.time.time == 1000 && t.time.lastSnap == some 499 && t.time.state == .locked &&
      t.tally .timeSteps == 1) = true := by decide +kernel

/-- R23: 500 is rounded up. -/
theorem test_pulse_snaps_up : leads .sitePulse
    (fresh.modTime (fun t => { t with state := .free, time := 1500 }))
    (fun t => t.time.time == 2000 && t.time.lastSnap == some (-500)) = true := by decide +kernel

/-- R22: a pulse 499 ms after the last one is disregarded. -/
theorem test_pulse_disregarded : leads .sitePulse
    (fresh.modTime (fun t => { t with state := .free, time := 1499, sincePulse := some 499 }))
    (fun t => t.time.time == 1499) = true := by decide +kernel

/-- R24. -/
theorem test_pulseWatch : leads .pulseWatchExpiry
    (fresh.modTime (fun t => { t with state := .locked, watch := some 0 }))
    (fun t => t.time.state == .free && t.tally .pulseLosses == 1) = true := by decide +kernel

/-- R17, R18: a step with nothing waiting counts one millisecond. -/
theorem test_idle_counts : (match step State.reset with
    | .next t => t.time.time == 1 && t.time.drive == 19 && t.sensing.timer == 249
    | _ => false) = true := by decide +kernel

/-- R25: at the twentieth millisecond the drive interval is due. -/
theorem test_idle_drive : (match step (fresh.modTime (fun t => { t with drive := 1 })) with
    | .next t => t.pending == [.driveIntervalExpiry]
    | _ => false) = true := by decide +kernel

/-- R7, R88: 400,001 W is clamped: code 1. -/
theorem test_setBudget_clamps : answered (fresh.takeSetBudget settle 0 40000 400001) 0 1 = true ∧
    (fresh.takeSetBudget settle 0 40000 400001).power.emergency = 400000 := by decide +kernel

/-- R194: word 1 written; the answer shows bit 0. -/
theorem test_retireStation : leads (.retireStation 0 15) fresh
    (fun t => (t.station 15).fuse1 && !(t.station 15).retired && t.tally (.tagChanges 15) == 1) = true ∧
    Memory.read (fresh.takeRetireStation 0 15).mem (Layout.page 0 + 12) = 1 := by decide +kernel

/-- R194, R195: both words written, a full reset makes the station RETIRED. -/
theorem test_fullReset_retires : leads (.fullReset false false false)
    (withStation (fun x => { x with fuse1 := true, fuse2 := true }))
    (fun t => (t.station 0).retired && !(t.station 1).retired &&
      (t.station 0).az.state == .retired) = true := by decide +kernel

/-- R139: 17 stages are clamped to 16, and the request stays in flight. -/
theorem test_configureSensing : leads (.configureSensing 3 17) fresh
    (fun t => t.sensing.pendingCount == some (16, true) && t.exchange.inFlight ==
      some { page := 3, request := .configureSensing }) = true := by decide +kernel

/-- R107: an empty table: TABLE_INVALID, code 13, at entry 0; an entry of zeros names no action, which is TABLE_INVALID too. -/
theorem test_launch_empty : answered ((fresh.store (Layout.sweepEntry 0 0) [0xFF, 0xFF]).takeLaunchSweep
    0 0 1 0 0) 0 13 = true ∧ answered (fresh.takeLaunchSweep 0 0 1 0 0) 0 13 = true := by
  decide +kernel

/-- R191: the poll of the next slot carries the acknowledgement that is due. -/
theorem test_panelPoll : leads .panelPoll ((fresh.modStation 1 (fun x =>
      { x with panel := { x.panel with ack := some .full } })).modPanelLine (fun p =>
        { p with isOpen := false, elapsed := 125 }))
    (fun t => t.panelLine.slot == 1 && t.panelLine.poll == Frame.seal [1, 5] &&
      (t.station 1).panel.ack == none) = true := by decide +kernel

/-- R193: the third unanswered poll in a row. -/
theorem test_panelSlotEnd : leads .panelSlotEnd ((slotted (fun x =>
      { x with panel := { x.panel with lost := false, unanswered := 2 } })).modPanelLine (fun p =>
        { p with elapsed := 125 }))
    (fun t => (t.station 0).panel.lost && t.tally (.panelLosses 0) == 1) = true := by decide +kernel

/-- R1, R3: the host's writes reach exchange memory; the register keeps nothing. -/
theorem test_registerWriteIgnored : leads (.registerWriteIgnored
      { stores := [(0x11F00, 7)], reg := .ident } 9) fresh (fun t => t == fresh.store 0x11F00 [7]) = true := by decide +kernel

/-- R30, R82: the third missed frame faults both axes with the reason LINK, one that awaits power too. -/
theorem test_linkLoss_faults_both : leads (.linkLoss 0) (linked (fun x => { x with
      link := { x.link with answered := false, missed := 2 },
      az := { x.az with state := .tracking }, el := { x.el with state := .awaitingPower } }))
    (fun t => (t.station 0).az.reason == some .link && (t.station 0).el.reason == some .link &&
      !(t.station 0).link.up && t.tally (.axisFaults 0) == 2) = true := by decide +kernel

/-- R109, R111: two tables that wait for one pulse: T0 starts (notes/assumptions/37.md); it is empty and
ends, and T1 starts in its turn. -/
theorem test_pulse_starts_both : leads .sitePulse bothArmed
    (fun t => (t.table 0).state == .done && (t.table 1).state == .done && !(t.table 1).late &&
      t.tally .sweepEnds == 2) = true := by decide +kernel

/-! ### States and operands that meet the hypotheses of the statements

One theorem for each statement with hypotheses, named after it, a conjunct for each clause. -/

/-- A state with one command waiting. -/
def waiting (c : Instr) (s : State) : State := { s with pending := [c] }

theorem witness_IdleStepTakesOrCountsMillisecond :
    (fresh.modExchange (fun x => { x with queue := [31] })).pending = [] ∧
    (fresh.modExchange (fun x => { x with queue := [31] })).canTake = true ∧
    fresh.pending = [] ∧ fresh.canTake = false := by decide +kernel

theorem witness_RegisterAccessesActOnOneRegister :
    (Tally.answers.cls.bit.getLsbD 0 = true ∧ (Tally.panelLosses 15).cls.bit.getLsbD 11 = true) ∧
    (leads .summaryRead (fresh.bump .answers) (fun _ => true) = true ∧
      leads .summaryRead fresh (fun _ => true) = true) ∧
    (fresh.exchange.queue.length ≤ 32 ∧ (List.finRange 32).length ≤ 32) := by
  decide +kernel

theorem witness_IntFollowsLatchAndMask :
    leads .summaryRead fresh (fun _ => true) = true ∧
    leads (.intEnable false) fresh (fun _ => true) = true ∧
    (let s := fresh.modExchange (fun x => { x with intEnable := true, summary := 0x801,
                                                   mask := 0x801 })
     leads (.maskWrite 0x801) s (fun _ => true) = true ∧ s.exchange.intEnable = true ∧
      s.exchange.summary.getLsbD 11 = true ∧ (0x801 : BitVec 32).getLsbD 11 = true ∧
      s.exchange.summary.getLsbD 0 = true ∧ (0x801 : BitVec 32).getLsbD 0 = true ∧
      leads (.intEnable true) s (fun _ => true) = true ∧
      s.exchange.mask.getLsbD 11 = true ∧ s.exchange.mask.getLsbD 0 = true) := by decide +kernel

theorem witness_TallyIncrementCountsWritesAndLatches :
    (Tally.answers.address - 1 < Tally.answers.address) ∧
    (Tally.panelLosses 15).address + 2 ≤ 0x154E2 := by decide +kernel

theorem witness_ChangedStatusRegionsAreRewritten :
    let t := fresh.modTime (fun t => { t with shown := 1 })
    fresh.regions[0]?.isSome = true ∧ t.regions[0]?.isSome = true ∧
      (∃ n < fresh.regions.length, fresh.regions[n]? ≠ t.regions[n]?) := by decide +kernel

theorem witness_PostWriteAppendsOrStrays :
    let h := fresh.hostStore [(0x11F00, 1)]
    (31 < (32 : BitVec 32).toNat ∧ h.pageState 30 ≠ PageState.posted) ∧
    (¬ 31 < (31 : BitVec 32).toNat ∧ h.pageState 31 = PageState.posted ∧
      (31 : PageId) ∉ fresh.exchange.queue) := by decide +kernel

theorem witness_EveryStepKeepsTheQueueLaw :
    Law.queue fresh ∧ ∃ t, step (waiting (.postWrite [(0x11F00, 1)] 31) fresh) = .next t :=
  ⟨by decide +kernel, _, rfl⟩

theorem witness_RequestTakeRunsTheRowOnThePage :
    let q (s : State) := s.modExchange (fun x => { x with queue := [31] })
    let taken (s : State) := s.store (Layout.page 31) [2, 0, 0, 0]
    (q (paged 31 [1, 0, 0, 0, 22])).exchange.queue = [31] ∧
    (q (paged 31 [1, 0, 0, 0, 22])).exchange.inFlight = none ∧ fresh.exchange.queue = [] ∧
    (fresh.modExchange (fun x => { x with
      inFlight := some { page := 0, request := .armBook 0 } })).exchange.inFlight ≠ none ∧
    (q (paged 31 [3])).pageState 31 ≠ PageState.posted ∧
    (q (paged 31 [1, 0, 0, 0, 22])).pageState 31 = PageState.posted ∧
    (taken (paged 31 [1, 0, 0, 0, 22])).rowOnPage 31 = some (.retireStation 31 0) ∧
    (taken (paged 31 [1, 0, 0, 0, 1])).rowOnPage 31 = some (.setTime 31 0 0) ∧
    (taken (paged 31 [1, 0, 0, 0, 23])).rowOnPage 31 = none ∧
    (taken (paged 31 [1, 0, 0, 0, 0])).rowOnPage 31 = none := by decide +kernel

theorem witness_ChecksOfTheTakeAreAnswered :
    fresh.exchange.inFlight = none ∧ 16 ≤ (16 : BitVec 16).toNat ∧ (16 : BitVec 16) ≠ 0xFFFF ∧
    32 ≤ (32 : BitVec 16).toNat ∧ 4 ≤ (4 : BitVec 16).toNat ∧ 2 ≤ (2 : BitVec 16).toNat ∧
    (15 : BitVec 16).toNat = (15 : StationId).val ∧ (31 : BitVec 16).toNat / 2 = (15 : StationId).val ∧
    (allRetired.station 15).retired = true ∧ (fresh.station 15).retired = false ∧
    2 ≤ (2 : BitVec 8).toNat ∧ (0 : BitVec 8).toNat = 0 ∧ 5 ≤ (5 : BitVec 8).toNat ∧
    3 ≤ (3 : BitVec 8).toNat ∧ (1 : BitVec 16).toNat < 2 := by decide +kernel

theorem witness_ExchangeResetEmptiesTheInterface :
    fresh.noTable ∧ Tally.answers.settles = false ∧ Law.sweeps running ∧
      ((running.table 0).state = .running ∧ (running.table 1).state = .idle) := by
  refine ⟨fun t => ?_, by decide, sweeps_of (by decide +kernel) (by decide +kernel),
    by decide +kernel⟩
  match t with
  | 0 => decide +kernel
  | 1 => decide +kernel

theorem witness_SetTimeSetsOrPends : fresh.exchange.inFlight = none ∧
    (1000 : BitVec 48).toNat % 1000 = 0 ∧ (1001 : BitVec 48).toNat % 1000 ≠ 0 := by decide +kernel

theorem witness_PulseSnapsAppliesTheSetOrIsDisregarded :
    let at_ (n : Nat) (st : TimeState) (set : Option Nat) := fresh.modTime (fun t =>
      { t with state := st, sincePulse := some n, pendingSet := set })
    (500 ≤ 500 ∧ (at_ 500 .free none).time.sincePulse = some 500 ∧
      (at_ 500 .free none).time.pendingSet = none ∧ (at_ 500 .free none).time.state ≠ .unset) ∧
    (499 < 500 ∧ (at_ 499 .free none).time.sincePulse = some 499) ∧
    (at_ 500 .unset (some 1000)).time.pendingSet = some 1000 ∧
    ((at_ 500 .unset none).time.pendingSet = none ∧ (at_ 500 .unset none).time.state = .unset) ∧
    (leads .sitePulse fresh (fun _ => true) = true ∧ (fresh.table 0).launch = none ∧
      (fresh.table 1).launch = none) := by decide +kernel

theorem witness_PulseWatchFreesTime :
    let s := fresh.modTime (fun t => { t with state := .locked, watch := some 0 })
    (s.time.state = .locked ∧ s.time.watch = some 0) ∧
    (fresh.time.state ≠ .locked ∧ fresh.time.watch ≠ some 0) := by decide +kernel

theorem witness_GoodReportsAloneAreTaken :
    let x := { fresh.station 0 with link := { Link.reset with seq := some 255 } }
    let f := Frame.seal (255 :: List.replicate 16 0)
    x.goodReport f = true ∧ (fresh.station 0).goodReport f = false ∧ x.goodReport [] = false ∧
    (let a (n : Nat) (l : Level) (o : Bool) : Station := { fresh.station 0 with
      az := { (fresh.station 0).az with
        state := .releasing, releaseCount := some n, onSource := some o },
      claim := { (fresh.station 0).claim with grantedLevel := l } }
     ((a 1 .slew true).az.state = .releasing ∧ (a 1 .slew true).az.releaseCount = some 1 ∧ 0 < 1 ∧
      ¬ 0 < 0 ∧ { ready with azReleased := true }.released .az = true ∧ ready.ready .az = true ∧
      ready.limitSwitch .az = false ∧ { ready with azCw := true }.limitSwitch .az = true ∧
      { ready with azReady := false }.ready .az = false ∧ (a 1 .slew true).az.onSource = some true ∧
      (a 1 .none false).az.onSource ≠ some true)) ∧
    (let h (st : HeatState) (named : Bool) := ((withStation (fun x => { x with feed := { x.feed with
      state := st, cls := some .a, probeNamed := named } })).station 0).heater .feed
     ((h .energizing false).state = .energizing ∧ (h .energizing false).cls = some .a ∧
      160 * 500 < 100 * 801 ∧ ¬ 160 * 500 < 100 * 800 ∧ 125 * 500 < 100 * 626 ∧
      ¬ 125 * 500 < 100 * 625 ∧ 100 * 249 < 50 * 500 ∧ ¬ 100 * 250 < 50 * 500) ∧
     ((h .probing true).state = .probing ∧ (h .probing true).probeNamed = true ∧
      (h .probing false).probeNamed = false ∧ Verdict.of 700 = .good .a ∧ Verdict.of 19 = .short ∧
      Verdict.of 4001 = .open ∧ Verdict.of 20 = .invalid)) := by
  decide +kernel

theorem witness_LinkLossFaultsAndDrops :
    let l (n : Nat) := ((linked (fun x => { x with
      link := { x.link with missed := n }, az := { x.az with state := .faulted } })).station 0).link
    ((l 2).up = true ∧ (l 2).answered = false ∧ 2 ≤ (l 2).missed) ∧ ¬ 2 ≤ (l 1).missed ∧
    (fresh.station 0).az.state ≠ .retired ∧ (fresh.station 0).az.state ≠ .faulted ∧
    ((linked (fun x => { x with az := { x.az with state := .faulted } })).station 0).az.state =
      .faulted ∧
    ((withStation (fun x => { x with feed := { x.feed with state := .on } })).station
      0).feed.state = .on ∧ (allRetired.station 0).az.state = .retired := by
  decide +kernel

theorem witness_DriveIntervalSendsNextFrames :
    (fresh.modTime (fun t => { t with drive := 0 })).time.drive = 0 ∧
    (fresh.modTime (fun t => { t with drive := 1 })).time.drive ≠ 0 ∧
    (fresh.station 15).retired = false ∧ (allRetired.station 15).retired = true ∧
    (let l (n : Nat) (a : Bool) := ((linked (fun x => { x with
      link := { x.link with missed := n, answered := a } })).station 0).link
     ((l 2 false).up = true ∧ (l 2 false).answered = false ∧ 2 ≤ (l 2 false).missed ∧
      ¬ 2 ≤ (l 1 false).missed ∧ (l 0 true).answered = true)) ∧
    (let x := (withStation (fun x => { x with
      probeQueue := [.feed], bookB := { x.bookB with
        state := .pending, armed := some { number := 1, count := 2, first := 20, last := 40 } } }))
     ((x.station 0).probeQueue.head? = some .feed ∧
      ((x.station 0).heater .feed).probeNamed = false ∧
      (x.station 0).bookIn .pending = some .b ∧ ((x.station 0).book .b).armed =
        some { number := 1, count := 2, first := 20, last := 40 } ∧ x.time.time < 20 ∧
      20 ≤ (x.modTime (fun t => { t with time := 20 })).time.time)) ∧
    (let a (st : AxisState) (on : Bool) (v : Int) : Axis := { Axis.reset false with
      state := st, onSource := some on, s := v }
     ((a .catchingUp true 0).state = .catchingUp ∧ (a .catchingUp true 0).onSource = some true ∧
      (a .tracking false 0).onSource ≠ some true ∧ Level.track ≠ .none ∧
      (a .stowing true 0).s = 0 ∧ (a .stowing true 1).s ≠ 0)) := by
  decide +kernel

theorem witness_RawDemandFollowsTheTarget :
    let x := fresh.station 0
    let held := { x with az := { x.az with state := .holding, hold := some 5 } }
    let aimed (t : Target) := { x with target := t, hold := some { table := 0, az := 1, el := 2 } }
    ((0 : Int) < 20 ∧ (0 : Int) ≤ 19 ∧ (19 : Int) < 20 ∧ (600000 : Int) - 0 ≤ 600000 ∧
      ((270000000 : Int) - (-270000000)).natAbs ≤ 540000000) ∧
    ((held.axis .az).state = .holding ∧ (held.axis .az).hold = some 5) ∧
    (x.axis .az).state ≠ .holding ∧ x.target.source = .none ∧
    (aimed { source := .stow, row := 2, stow := some (0, 1), shed := none }).target.stow =
      some (0, 1) ∧
    (aimed { source := .shed, row := 6, stow := none, shed := some (0, 1) }).target.shed =
      some (0, 1) ∧
    (aimed { source := .sweep, row := 4, stow := none, shed := none }).hold =
      some { table := 0, az := 1, el := 2 } ∧
    (aimed { source := .book, row := 5, stow := none, shed := none }).target.source = .book := by
  decide +kernel

theorem witness_BrakingStepCanStop :
    let c : AxisConfig := { StationConfig.reset.az with amax := 2000000 }
    c.amax ≤ 2000000 ∧ ((1099511627775 : Int) - 0).natAbs < 2 ^ 40 ∧
    ({ c with amax := 2499 } : AxisConfig).accel = 0 ∧ c.accel = 800 := by decide +kernel

theorem witness_ComputedExpiryKeepsTheBounds :
    let c : AxisConfig := { StationConfig.reset.el with lmin := 0, lmax := 0 }
    (c.lmin ≤ c.lmax ∧ StationConfig.reset.el.lmin ≤ StationConfig.reset.el.lmax) ∧
    (lowerBound .el StationConfig.reset.el .watch 30000000 = 30000000 ∧
      (29999999 : Int) < 30000000 ∧ (90000000 : Int) < 90000001 ∧ (30000000 : Int) ≤ 90000000) ∧
    ((fresh.station 0).az.state ≠ .releasing ∧
      ({ fresh.station 0 with az := Axis.toReleasing (fresh.station 0).az 0 }).az.state =
        .releasing) ∧
    (StationConfig.reset.el.lmin ≤ 2000000 ∧ (2000000 : Int) ≤ StationConfig.reset.el.lmax) := by
  decide +kernel

theorem witness_SourceFollowsTheTable :
    (Law.source fresh ∧ ∃ t, step (waiting (.placeTag 0 0 1 1 1) fresh) = .next t) ∧
    (Law.sweeps running ∧ (running.station 0).retired = false ∧
      (running.station 0).target.row ≠ 7 ∧
      ((running.modStation 0 (fun x => { x with tags := [] })).sourceOf 0).1 ≠
        (running.station 0).target.source) ∧
    let free (f : Station → Station) := withStation (fun x => f { x with tags := [] })
    let tagged (sc : Scope) := free (fun x => { x with
      tags := [{ id := 1, kind := .personnel, scope := sc, party := .request, time := 0 }] })
    (tagged .both).sourceOf 0 = (.none, 1) ∧
    ((free id).modZone 0 (fun z => { z with state := .returnHold })).sourceOf 0 = (.stow, 2) ∧
    (tagged .service).sourceOf 0 = (.none, 3) ∧
    ((free (fun x => { x with hold := some { table := 1, az := 0, el := 0 } })).modTable 1 (fun y =>
      { y with state := .settling })).sourceOf 0 = (.sweep, 4) ∧
    (free (fun x => { x with bookB := { x.bookB with state := .running } })).sourceOf 0 =
      (.book, 5) ∧
    (free (fun x => { x with shedOrder := true })).sourceOf 0 = (.shed, 6) ∧
    (free id).sourceOf 0 = (.none, 7) ∧
    ((fresh.station 0).target.source = (fresh.sourceOf 0).1 ∧
      (fresh.station 0).target.row = (fresh.sourceOf 0).2) ∧
    ((allRetired.station 0).retired = true ∧ (fresh.station 0).shedOrder = false ∧
      fresh.shedConditions 0 = false ∧
      ((withStation (fun x => { x with shedOrder := true })).station 0).shedOrder = true) ∧
    (let due := (linked (fun x => { x with
        cfg := { x.cfg with snow := some 0 },
        reflector := { x.reflector with state := .on, onRunOut := true } })).modSensing (fun w =>
      { w with stages := [{ Stage.fresh snowStage with state := .live, high := true }] })
     due.shedConditions 0 = true) :=
  ⟨⟨⟨by decide +kernel, sweeps_of (by decide +kernel) (by decide +kernel), by decide +kernel⟩, _, rfl⟩,
    ⟨sweeps_of (by decide +kernel) (by decide +kernel), by decide +kernel⟩, by decide +kernel⟩

theorem witness_ClaimFollowsTheNeeds :
    let a (st : AxisState) : Axis := { Axis.reset false with state := st }
    (a .catchingUp).needNow = .slew ∧ (a .holding).needNow = .track ∧ (a .stowing).needNow = .slew ∧
    (a .releasing).needNow = .slew ∧ (a .stowed).needNow = .none ∧
    (let c := Claimant.station 0
     let p (held waits : Nat) : Power := { Power.afterReset false with
      grants := [{ claimant := c, cls := .move, watts := held }],
      waiting := [{ claimant := c, cls := .move, addition := waits }] }
     ((p 800 400).granted c = 800 ∧ 0 < 800 ∧ 800 ≤ (p 800 400).granted c ∧
      (p 800 400).granted c < 801 ∧ Waiting.inOrder (p 800 400).waiting ∧
      (p 800 400).waiting.find? (fun w => w.claimant == c) =
        some { claimant := c, cls := .move, addition := 400 } ∧ 1200 - 800 ≤ 400 ∧
      ¬ 1201 - 800 ≤ 400)) ∧
    (let x := fresh.station 0
     ({ x with el := { x.el with state := .awaitingPower } }.axis .el).state = .awaitingPower ∧
      (x.axis .el).state ≠ .awaitingPower) ∧
    (let s := linked (fun x => { x with
      az := { x.az with state := .awaitingPower },
      claim := { x.claim with wanted := 800, granted := 800 } })
     (s.station 0).claim.wanted ≤ (s.station 0).claim.granted ∧
      ((s.station 0).axis .az).state = .awaitingPower ∧ (s.station 0).link.report = some ready ∧
      ((s.station 0).cfg.axis .az).lmin ≤ ready.encoder .az ∧
      { ready with elEncoder := 1999999 }.encoder .el < ((s.station 0).cfg.axis .el).lmin ∧
      ((s.station 0).axis .el).state ≠ .awaitingPower ∧ (s.station 0).claim.granted < 801 ∧
      799 < (s.station 0).claim.wanted) ∧
    ((withStation (fun x => { x with claim := { x.claim with wanted := 1 } })).station
      0).claim.granted < 1 := by
  decide +kernel

theorem witness_BrakedAxesAreExamined :
    let l : Link := { Link.reset with up := true, report := some ready }
    let t : Target := { source := .stow, row := 2, stow := some (300, 0), shed := none }
    let c := StationConfig.reset.az
    ((Axis.reset false).state = .braked ∧ l.up = true ∧ l.report = some ready ∧
      ready.ready .az = true) ∧
    (t.stow = some (300, 0) ∧ c.lmin ≤ c.lmax ∧ ((300 : Int) - 0).natAbs ≤ c.window) ∧
    ((Axis.reset false).examine .az c t l).state = .stowed ∧
    ((Axis.reset false).examine .az c { t with stow := some (301, 0) } l).state = .awaitingPower ∧
    (let s := linked (fun x => { x with az := { x.az with state := .holding, holdIdle := some 0 } })
     ((s.station 0).axis .az).state = .holding ∧ ((s.station 0).axis .az).holdIdle = some 0) ∧
    ((fresh.station 0).axis .az).state ≠ .holding ∧
    (let s := linked (fun x => { x with el := { x.el with state := .faulted } })
     s.exchange.inFlight = none ∧ (s.station 0).retired = false ∧
      (s.station 0).refusesRecovery .el = false ∧ (s.station 0).refusesRecovery .az = true) := by
  decide +kernel

theorem witness_AxisMonitorsFault :
    let a (n : Nat) (e : Int) : Axis := { Axis.reset false with
      state := .tracking, errorRun := n, error := some e }
    ((a 9 20000).error = some 20000 ∧ (20000 : Int).natAbs ≤ 20000) ∧
    (20000 < (-20001 : Int).natAbs ∧ (a 8 (-20001)).errorRun < 9 ∧ 9 ≤ (a 9 (-20001)).errorRun ∧
      (a 9 (-20001)).state.moving = true) ∧
    (let s := withStation (fun x => { x with az := { x.az with
        state := .releasing, releaseCount := some 49 } })
     ((s.station 0).axis .az).state = .releasing ∧ ((s.station 0).axis .az).releaseSeen ≠ some true ∧
      49 ≤ ((s.station 0).axis .az).releaseCount.getD 0) ∧
    (let a (n : Nat) (r : Bool) : Axis := { Axis.reset false with
      state := .releasing, releaseCount := some n, releaseSeen := some r, onSource := some false }
     ((a 1 true).state = .releasing ∧ (a 1 true).releaseCount = some 1 ∧ 0 < 1 ∧ ¬ 0 < 0 ∧
      (a 1 true).releaseSeen = some true ∧ (a 1 true).onSource ≠ some true ∧
      (a 1 false).releaseSeen ≠ some true ∧ (a 49 false).releaseCount.getD 0 < 50 ∧
      50 ≤ (a 50 false).releaseCount.getD 0)) ∧
    (let s (r : Option Source) := withStation (fun x => { x with
      target := { x.target with source := .book, row := 6 },
      az := { x.az with state := .releasing, releaseCount := some 1, releaseSeen := some true,
                        releaseSource := r, onSource := some true } })
     let src (r : Option Source) :=
       ((s r).station 0).az.releaseSource.getD ((s r).station 0).target.source
     (src (some .stow) = .stow ∧ src (some .none) = .none ∧
      src none ≠ .stow ∧ src (some .sweep) ≠ .none)) := by
  decide +kernel

/-- A page's configuration of one axis with the limits, rate and allocations as given. -/
def rawAxis (lmin lmax slew track : BitVec 32) : RawAxisConfig :=
  { lmin := lmin, lmax := lmax, vmax := 3000000, amax := 2000000, errorLimit := 1000,
    window := 100000, slewWatts := slew, trackWatts := track }

/-- A page's configuration of a station. -/
def rawStation (zone snow : BitVec 8) (el : RawAxisConfig) : RawStationConfig :=
  { zone := zone, az := rawAxis 0 270000000 20000 20000, el := el, stowEl := 92000000,
    shedEl := 0, holdIdle := 3600, snow := snow, surface := 0xFF, precip := 0 }

/-- R75: a release reported under STOW sends the axis to STOWING, though the source has since become BOOK. -/
theorem test_release_goes_by_the_source_of_its_report :
    let s := withStation (fun x => { x with
      target := { x.target with source := .book, row := 6 },
      az := { x.az with state := .releasing, releaseCount := some 1, releaseSeen := some true,
                        releaseSource := some .stow, onSource := some true } })
    ((s.countRelease settle 0 .az).station 0).az.state = .stowing := by decide +kernel

/-- R84: a STOWED axis stays STOWED at the take that ends its source STOW; R75 would brake it. -/
theorem test_configured_axis_stays_stowed :
    let s := linked (fun x => { x with
      target := { x.target with source := .stow, row := 2 },
      az := { x.az with state := .stowed } })
    ((s.redecideSource settle 0).station 0).az.state = .stowed ∧
    ((s.decideSource settle 0).station 0).az.state ≠ .stowed := by decide +kernel

theorem witness_ConfigureStationChecksAndReplaces :
    let raw := rawStation 3 15 (rawAxis 0 0 0 0)
    let outside := withStation (fun x => { x with el := { x.el with state := .stowed, c := 1 } })
    (RawStation.clamped raw = false ∧ RawStation.badValue raw = false ∧
      (RawStation.config raw).inconsistent = false) ∧
    (fresh.exchange.inFlight = none ∧ (fresh.station 0).retired = false ∧
      (fresh.station 0).az.state = .braked ∧ (fresh.station 0).el.state = .braked) ∧
    RawStation.badValue (rawStation 4 0 (rawAxis 0 0 0 0)) = true ∧
    RawStation.badValue (rawStation 3 16 (rawAxis 0 0 0 0)) = true ∧
    (RawStation.config (rawStation 3 0 (rawAxis 1 0 0 0))).inconsistent = true ∧
    (RawStation.config (rawStation 3 0 (rawAxis 0 0 0 1))).inconsistent = true ∧
    ((outside.station 0).el.state = .stowed ∧
      (outside.station 0).el.keptOutside (RawStation.config raw).el = true) ∧
    ((withStation (fun x => { x with az := { x.az with state := .holding } })).station
      0).az.state.admitsConfig = false ∧
    (RawStation.clamped { rawStation 3 15 (rawAxis 0 0 0 0) with holdIdle := 3601 } = true ∧
      RawStation.clamped { rawStation 3 15 (rawAxis 0 0 0 0) with holdIdle := 1 } = false ∧
      RawStation.clamped (rawStation 3 15 (rawAxis 0xFFFFFFFF 0 0 0)) = true ∧
      RawStation.clamped (rawStation 3 15 (rawAxis 0 0 20001 0)) = true ∧
      (RawStation.config (rawStation 3 15 (rawAxis 0xFFFFFFFF 0 0 0))).el.lmin = 0) ∧
    (let stows (st : ZoneState) := ((linked (fun x => { x with
        cfg := { x.cfg with zone := 3 } })).modZone 3 (fun z => { z with state := st }))
     ((0 : ZoneId) ≠ ((stows .calm).station 0).cfg.zone ∧
      ((stows .calm).zone 3).state.stows = false ∧ ((stows .stowed).zone 3).state.stows = true ∧
      ((stows .stowed).station 0).az.state ≠ .stowed ∧
      ((stows .stowed).zone 3).exposedReason 0 = none)) ∧
    (let s := linked (fun x => { x with target := { x.target with source := .stow, row := 2 } })
     (s.station 0).retired = false ∧ (s.sourceOf 0).1 ≠ (s.station 0).target.source ∧
      (fresh.sourceOf 0).1 = (fresh.station 0).target.source ∧
      (fresh.sourceOf 0).2 = (fresh.station 0).target.row) := by
  decide +kernel

theorem witness_BookRequestsArmDisarmAndStop :
    let s (st : BookState) := (withStation (fun x => { x with
      bookB := { x.bookB with state := st } })).modTime (fun t => { t with state := .free })
    (fresh.exchange.inFlight = none ∧ (15 : BitVec 16).toNat = (15 : StationId).val ∧
      (fresh.station 15).retired = false) ∧
    fresh.time.state = .unset ∧
    ((s .running).time.state ≠ .unset ∧ (((s .running).station 0).book .b).state = .running) ∧
    (((s .pending).station 0).book .b).state ≠ .running ∧
    ((fresh.station 0).bookIn .pending = none ∧ ((s .pending).station 0).bookIn .pending = some .b) ∧
    ((fresh.station 0).bookIn .running = none ∧
      ((s .running).station 0).bookIn .running = some .b) := by decide +kernel

/-- A validation of book A of S0, due. -/
def validating (v : Validation) : State :=
  (withStation (fun x => { x with validation := some v })).modExchange (fun x =>
    { x with inFlight := some { page := 0, request := .armBook 0 } })

/-- A validation with a header, and so many points checked. -/
def validation (number count checked : Nat) : Validation :=
  { letter := .a, number := 7, checked := checked, headerNumber := number, headerCount := count,
    first := 0, previous := 0, timer := some 0 }

/-- Points of book A of S0: 20 ms apart and at rest, then one at the same time as the last. -/
def pointed (s : State) : State :=
  (s.store (Layout.point 0 .a 0) [20]).store (Layout.point 0 .a 1) [40]

theorem witness_ValidationChecksPointsInGroups :
    let s := pointed (validating (validation 7 2 0))
    (s.exchange.inFlight = some { page := 0, request := .armBook 0 } ∧
      (s.station 0).validation = some (validation 7 2 0) ∧ (validation 7 2 0).timer = some 0) ∧
    fresh.exchange.inFlight = none ∧
    (128 < (validation 7 129 0).headerCount ∧ (validation 7 0 0).headerCount = 0 ∧
      (validation 7 128 0).headerCount = 128) ∧
    ((validation 0 2 0).headerNumber = 0 ∧ (validation 8 2 0).headerNumber ≠ 7) ∧
    Memory.checkPoints s.mem 0 .a 2 0 none = .ok (some 40) ∧
    Memory.checkPoints s.mem 0 .a 3 0 none = .error (2, .spacing) ∧
    Memory.checkPoints s.mem 0 .a 1 0 (some 0) = .ok (some 20) ∧
    Memory.checkPoints s.mem 0 .a 1 0 (some 1) = .error (0, .spacing) ∧
    (0 + min 16 (17 - 0) < 17 ∧ 2 ≤ 0 + min 16 (2 - 0)) ∧
    ((s.station 0).book .a).state ≠ .running ∧ s.time.time < 40 ∧
    (((withStation (fun x => { x with bookA := { x.bookA with state := .running } })).station
      0).book .a).state = .running ∧
    40 ≤ (s.modTime (fun t => { t with time := 40 })).time.time := by decide +kernel

theorem witness_RunningBookIsReadByTheCursor :
    let s := pointed fresh
    let a : Armed := { number := 7, count := 2, first := 20, last := 40 }
    (2 ≤ 128 + 0 ∧ 0 ≤ 2 - 2) ∧ a.last ≤ 40 ∧ (19 < a.last ∧ 19 < a.first) ∧
    (20 < a.last ∧ a.first ≤ 20) ∧
    ((Memory.point s.mem 0 .a 0).range = none ∧ (Memory.point s.mem 0 .a 0).time = a.first) ∧
    Memory.search s.mem 0 .a 20 2 128 0 = 0 ∧
    ((Memory.point s.mem 0 .a 1).time = a.last ∧
      (Memory.point s.mem 0 .a 0).time + 20 ≤ (Memory.point s.mem 0 .a 1).time) ∧
    ((Memory.point fresh.mem 0 .a 0).time ≠ a.first ∧
      ¬ (Memory.point fresh.mem 0 .a 0).time + 20 ≤ (Memory.point fresh.mem 0 .a 1).time) := by
  decide +kernel

theorem witness_BudgetChangesAreSettled :
    let p := fresh.power
    ({ p with alarm := false }.inForce = p.inForce ∧ { p with alarm := true }.inForce ≠ p.inForce) ∧
    fresh.exchange.inFlight = none ∧ fresh.work = [] ∧ Law.oneGrant p ∧
    (400000 < (400001 : BitVec 32).toNat ∧ ¬ 400000 < (400000 : BitVec 32).toNat) ∧
    { p with normal := min 400000 (40000 : BitVec 32).toNat,
             emergency := min 400000 (400001 : BitVec 32).toNat }.inForce = p.inForce ∧
    { p with normal := min 400000 (400001 : BitVec 32).toNat }.inForce ≠ p.inForce ∧
    (let g (n : StationId) (cls : ClaimClass) (w : Nat) : Grant :=
      { claimant := .station n, cls := cls, watts := w }
     let q (l : List Grant) : Power := { Power.afterReset false with
      normal := 1000, grants := l,
      claims := Vector.ofFn (fun _ => { cls := .move, wanted := 600, track := 100 }) }
     (Waiting.inOrder (q [g 0 .move 600, g 1 .move 400]).waiting ∧
      (q []).claim (.station 0) = { cls := .move, wanted := 600, track := 100 } ∧
      (100 : Nat) ≠ 0 ∧ Law.oneGrant (q [g 0 .move 600, g 1 .move 400]) ∧
      (q [g 0 .move 600, g 1 .move 400]).total ≤ (q [g 0 .move 600, g 1 .move 400]).inForce ∧
      (q [g 0 .move 600, g 1 .move 401]).inForce < (q [g 0 .move 600, g 1 .move 401]).total ∧
      (let r := PowerRun.revoke 0 { power := q [g 0 .move 600, g 1 .move 600], tallies := [],
                                    touched := [] }
       r.power.grants = [g 0 .move 600, g 1 .move 100] ∧ r.power.total ≤ 1000 ∧
        g 0 .move 600 ∈ r.power.grants))) := by
  decide +kernel

/-- PB with a grant of heat, and a STOW claim that waits for exactly what is left, or one watt more. -/
def powered (watts : Nat) : Power :=
  { Power.afterReset false with
    grants := [{ claimant := .heater 0 .feed, cls := .heat, watts := 2000 }],
    waiting := [{ claimant := .station 0, cls := .stow, addition := watts },
                { claimant := .station 1, cls := .move, addition := 1 }] }

theorem witness_GrantingRoundEndsStuck :
    Law.oneGrant (powered 40001) ∧
    (powered 40001).waiting.Pairwise (fun v w => v.cls.rank ≤ w.cls.rank) ∧
    (powered 40001).total ≤ (powered 40001).inForce ∧
    (let g : Grant := { claimant := .heater 0 .feed, cls := .heat, watts := 2000 }
     (powered 38000).total + 38000 ≤ (powered 38000).inForce ∧
      ¬ (powered 38001).total + 38001 ≤ (powered 38001).inForce ∧
      (powered 38001).grants = [] ++ g :: [] ∧ g.cls = .heat ∧
      (∀ g ∈ (powered 1).grants, g.claimant ≠ .station 0) ∧
      (∀ g ∈ ({ powered 50000 with grants := [] } : Power).grants, g.cls ≠ .heat) ∧
      ({ powered 1 with waiting := [] } : Power).waiting = []) := by
  decide +kernel

/-- R95, R96: a heat grant is taken back for a STOW claim that does not fit; one that still does not fit
blocks what waits behind it, the shed zone with it. -/
theorem test_round_sheds_for_stow :
    let r (watts : Nat) := PowerRun.round 0 (powered watts).turns
      { power := powered watts, tallies := [], touched := [] }
    (r 38000).power.grants.length = 2 ∧ (r 38000).tallies = [] ∧
    (r 40000).tallies = [.sheds] ∧ (r 40000).power.total = 40000 ∧
    (r 40001).power.grants = [] ∧ (r 40001).power.waiting.length = 3 := by decide +kernel

theorem witness_EveryStepKeepsThePowerLaw :
    Law.power fresh ∧ ∃ t, step (waiting (.feederAlarmChange true) fresh) = .next t :=
  ⟨by decide +kernel, _, rfl⟩

/-- A sweep table of one entry: at once, S0, GOTO (0, 0), settled within 600 s. -/
def swept : State := (fresh.store (Layout.sweepEntry 1 0) [0, 0, 1, 0, 3, 1, 0x58, 2]).store
  (Layout.sweepEntry 1 1) [0xFF, 0xFF]

theorem witness_LaunchSweepChecksAndArmsTheTable :
    (Memory.snapshot swept.mem 1).toOption.map (fun l => (l.1.length, l.2)) = some (1, false) ∧
    (Memory.snapshot fresh.mem 1).toOption.isNone = true ∧
    (swept.exchange.inFlight = none ∧ (1 : BitVec 16).toNat = (1 : TableId).val ∧
      Code.startSource (2 : BitVec 8).toNat = some .strobe ∧
      Code.startSource (0 : BitVec 8).toNat = some .atTime) ∧
    ((tabled .settling).table 0).state = .settling ∧ (swept.table 1).state = .idle ∧
    (swept.time.state = .unset ∧
      (swept.modTime (fun t => { t with state := .free })).time.state ≠ .unset) ∧
    ((1 : Nat) ≤ 32 ∧ (Memory.entry swept.mem 1 0).offset ≠ 65535 ∧
      (Memory.entry swept.mem 1 1).offset = 65535 ∧
      (Memory.entry swept.mem 1 0).action = 3 ∧ (Memory.entry swept.mem 1 0).limit = 600 ∧
      (Memory.entry fresh.mem 1 31).offset ≠ 65535 ∧ (Memory.entry fresh.mem 1 0).action = 0) := by
  decide +kernel

/-- S0 waiting in a run of T0 with its settle timer at 0, T0 in a state. -/
def settling (st : TableState) : State :=
  (tabled st).modStation 0 (fun x => { x with progress := { x.progress with
    table := some 0, state := .moving, settle := true, timer := some 0 } })

theorem witness_SweepsEndByCancelAndBySettling :
    (fresh.exchange.inFlight = none ∧ ((tabled .armed).table 0).state = .armed ∧
      (fresh.table 0).state = .idle ∧ (0 : BitVec 16).toNat = (0 : TableId).val) ∧
    (let p := ((settling .settling).station 0).progress
     p.table = some 0 ∧ p.timer = some 0 ∧ p.state = .moving ∧
      ((settling .settling).table 0).state = .settling ∧
      ((settling .running).table 0).state = .running ∧
      ((settling .settling).station 1).progress.table = none) ∧
    (fresh.station 0).progress.table = none ∧
    (let late := (tabled .settling).modTable 1 (fun x => { x with state := .armed, startDue := true })
     ((late.table 1).state = .armed ∧ (late.table 1).startDue = true ∧
      (late.table 0).state = .settling ∧ (∀ st, (late.station st).progress.table ≠ some 0) ∧
      ((tabled .settling).table 1).state ≠ .armed)) ∧
    (let z (st : RecordState) (a : AxisState) (l : Level) : Station := { fresh.station 0 with
      progress := { (fresh.station 0).progress with table := some 0, state := st, settle := true },
      az := { (fresh.station 0).az with state := a, computed := true, onSource := some true },
      el := { (fresh.station 0).el with state := a, computed := true, onSource := some true },
      claim := { (fresh.station 0).claim with grantedLevel := l },
      target := { (fresh.station 0).target with row := 7 } }
     ((z .waiting .tracking .track).progress.table = some 0 ∧
      (z .waiting .tracking .track).claim.grantedLevel ≠ .none ∧
      (z .waiting .tracking .track).target.source = .none ∧
      (z .moving .tracking .track).az.state ≠ .braked ∧
      ((z .moving .tracking .track).axis .el).onSource = some true ∧
      (z .waiting .awaitingPower .none).claim.grantedLevel = .none)) := by
  decide +kernel

theorem witness_StrobeStartsOrExpiresTheTable :
    let armed (n : Nat) (st : TableState) := (fresh.modTable 0 (fun x => { x with
      state := .armed, strobe := some n })).modTable 1 (fun x => { x with state := st })
    (((armed 1 .running).table 0).state = .armed ∧ ((armed 1 .running).table 0).startDue = false ∧
      ((armed 1 .running).table 0).strobe ≠ none ∧ ((armed 1 .running).table 1).state = .running) ∧
    ((armed 1 .idle).table 1).state = .idle ∧ (fresh.table 0).state ≠ .armed ∧
    ((armed 0 .idle).table 0).strobe = some 0 ∧ ((armed 1 .idle).table 0).strobe ≠ some 0 ∧
    ((bothArmed.table 0).state = .armed ∧ (bothArmed.table 1).state = .armed ∧
      (bothArmed.table 0).startDue = false ∧ (bothArmed.table 1).startDue = false ∧
      (bothArmed.table 0).strobe ≠ none ∧ (bothArmed.table 1).strobe ≠ none ∧
      (bothArmed.table 1).launch = some { source := .nextPulse, time := 0, timeout := 1 } ∧
      bothArmed.time.sincePulse = none ∧ leads .sitePulse bothArmed (fun _ => true) = true) ∧
    (let timed (t : Nat) := fresh.modTable 1 (fun x => { x with
      state := .armed, launch := some { source := .atTime, time := t, timeout := 1 } })
     (((timed 0).table 1).launch = some { source := .atTime, time := 0, timeout := 1 } ∧
      0 ≤ (timed 0).time.time ∧ ¬ 1 ≤ (timed 0).time.time)) ∧
    (let due (t : Nat) := (tabled .running).modTable 0 (fun x => { x with sweepStart := some t })
     ((due 0).table 0).sweepStart = some 0 ∧ 0 + 100 * 0 ≤ (due 0).time.time ∧
      ¬ 0 + 100 * 1 ≤ (due 0).time.time ∧ (∀ st, ((due 0).station st).progress.table ≠ some 0)) ∧
    ((allRetired.station 0).retired = true ∧ (fresh.station 0).tags ≠ [] ∧
      ((linked id).station 0).tags = [] ∧ ((linked id).zone 0).state.stows = false ∧
      (((linked id).modZone 0 (fun z => { z with state := .stowed })).zone 0).state.stows = true ∧
      ((linked (fun x => { x with el := { x.el with state := .faulted } })).station 0).el.state =
        .faulted ∧ ((linked id).station 0).az.state ≠ .faulted ∧
      ((linked id).station 0).hold = none ∧ (running.station 0).hold ≠ none) ∧
    (((linked id).station 0).bookA.state = .idle ∧ Memory.wholeBook fresh.mem 0 .a = none ∧
      Memory.wholeBook (((pointed fresh).store (Layout.point 0 .a 0 + 14) [1]).store
        (Layout.point 0 .a 1 + 14) [2]).mem 0 .a =
        some { number := 1, count := 2, first := 20, last := 40 }) := by
  decide +kernel

/-- A stage in a state, with its filter values at 0. -/
def stage (st : StageState) : Stage :=
  { Stage.fresh { channel := 0, kind := .windSpeed, kf := 3, ks := 3, skip := 2, freezeLimit := 4095,
                  hysteresis := 0, high := none, low := none, gust := none } with
    state := st, f := some 0, b := some 0 }

/-- The fresh state with one stage in force. -/
def staged (g : Stage) : State := fresh.modSensing (fun w => { w with stages := [g] })

theorem witness_GoodRepliesFeedTheirStage :
    let frame (lo hi : Byte) := Frame.seal [0, 0, lo, hi]
    let good (f : Frame) := f.length = 6 ∧ f = Frame.seal (f.take 4) ∧
      f.getD 0 0 = (staged (stage .live)).sensing.pass ∧
      (staged (stage .live)).sensing.stages[(f.getD 1 0).toNat]? = some (stage .live) ∧
      (stage .live).answered = false
    good (frame 1 0x80) ∧ good (frame 0 0x80) ∧
    Frame.sampleValue (frame 1 0x80) ≠ -32768 ∧ Frame.sampleValue (frame 0 0x80) = -32768 ∧
    (stage .unseeded).state = .unseeded ∧ (stage .live).f = some 0 ∧
    ({ stage .fault with reseed := some 0 }.reseed = some 0 ∧
      ({ stage .fault with reseed := some 1 } : Stage).reseed = some 1) ∧
    fresh.sensing.stages[0]? = none ∧
    (let g (f : Int) (high : Bool) : Stage := { stage .live with
      f := some f, x := some f, high := high, gust := high, low := high,
      cfg := { (stage .live).cfg with
        hysteresis := 5, high := some 10, low := some (-10), gust := some 10 } }
     ((g 10 false).f = some 10 ∧ (g 10 false).x = some 10 ∧ (g 10 false).b = some 0 ∧
      (g 10 false).judgeFlags.high = true ∧ (g 9 false).judgeFlags.high = false ∧
      (g 5 true).judgeFlags.high = true ∧ (g 4 true).judgeFlags.high = false ∧
      (g (-10) false).judgeFlags.low = true ∧ (g (-5) true).judgeFlags.low = true ∧
      (g (-4) true).judgeFlags.low = false ∧ (g 10 false).judgeFlags.gust = true ∧
      (g 4 true).judgeFlags.gust = false ∧ (stage .live).cfg.high = none)) := by
  decide +kernel

theorem witness_PassEndWorksEachStage :
    let g := { stage .live with answered := true }
    let quiet := fresh.modSensing (fun w => { w with quietCount := 239 })
    ((stage .fault).state = .fault ∧ (stage .live).answered = false) ∧
    ({ stage .live with missed := 1 }.missed < 2 ∧ 2 ≤ { stage .live with missed := 2 }.missed) ∧
    (g.high = false ∧ g.gust = false ∧ g.skip + 1 < g.cfg.skip) ∧
    (g.cfg.skip ≤ { g with skip := 1 }.skip + 1 ∧ g.f = some 0 ∧ g.b = some 0) ∧
    ({ g with high := true }.high = true ∧ g.cfg.freezeLimit ≠ 0 ∧
      min 4095 ({ g with freeze := 4093 }.freeze + 1) < g.cfg.freezeLimit ∧
      g.cfg.freezeLimit ≤ min 4095 ({ g with freeze := 4094 }.freeze + 1)) ∧
    (quiet.sensing.rate = .full ∧ 239 ≤ quiet.sensing.quietCount ∧ quiet.sensing.stages = [] ∧
      (quiet.zone 0).state = .unwatched ∧ (quiet.zone 3).state = .unwatched) ∧
    ¬ 239 ≤ fresh.sensing.quietCount ∧
    (staged g).sensing.stages[(0 : StageId).val]? = some g ∧
    fresh.sensing.stages[(0 : StageId).val]? = none := by decide +kernel

theorem witness_PassBoundaryEndsAndStartsAPass :
    let s := (staged (stage .live)).modSensing (fun w => { w with timer := 0 })
    let p := (s.modSensing (fun w => { w with pendingCount := some (16, true) })).modExchange
      (fun x => { x with inFlight := some { page := 31, request := .configureSensing } })
    (s.sensing.timer = 0 ∧ fresh.sensing.timer ≠ 0 ∧ s.sensing.pendingCount = none) ∧
    (p.sensing.pendingCount = some (16, true) ∧ 16 ≤ 16 ∧
      p.exchange.inFlight = some { page := 31, request := .configureSensing }) ∧
    (Memory.stageList p.mem 0 0).toOption.isSome = true ∧
    (Memory.stageList p.mem 16 0).toOption.isNone = true ∧
    (let m := (fresh.store (Layout.stage 0) [15, 1, 4, 8, 16, 0]).store (Layout.stage 1) [16, 5]
     (Memory.stageList m.mem 1 0).toOption.map (fun l => (l.1.map StageConfig.channel, l.2)) =
        some ([15], false) ∧
      (Memory.stageList m.mem 2 0).toOption.isNone = true ∧
      Memory.nat m.mem (Layout.stage 1 + 0) 1 = 16 ∧ Memory.nat m.mem (Layout.stage 2 + 1) 1 = 0 ∧
      Memory.nat m.mem (Layout.stage 0 + 3) 1 = 8) ∧
    ((fresh.station 0).feed.mode ≠ .auto ∧ (fresh.station 0).retired = false ∧
      ((withStation (fun x => { x with feed := { x.feed with mode := .auto } })).station
        0).feed.mode = .auto) := by
  decide +kernel

theorem witness_SensingRequestsPendOrRecalibrate : fresh.exchange.inFlight = none := by
  decide +kernel

theorem witness_ZoneEvaluationFollowsItsCauses :
    let z (st : ZoneState) (v : Option Int) : Zone := { fresh.zone 0 with state := st, speed := v }
    ((z .calm (some 180)).speed = some 180 ∧ ((z .calm none).cfg.stow : Int) ≤ 180 ∧
      ¬ ((z .calm none).cfg.stow : Int) ≤ 179) ∧
    ((z .stowing none).state = .stowing ∧ (z .watch none).state ≠ .stowed) ∧
    ((z .calm (some 120)).cfg.watch : Int) ≤ 120 ∧ ¬ ((z .calm none).cfg.watch : Int) ≤ 119 ∧
    (99 < ((z .watch none).cfg.release : Int) ∧ ((z .watch none).cfg.release : Int) ≤ 100) ∧
    (z .returnHold (some 100)).state = .returnHold ∧ (fresh.zone 0).state = .unwatched ∧
    fresh.lines.siteStow = false ∧ (fresh.zone 0).order = false ∧ (fresh.zone 0).gust = false ∧
    (let s := (linked (fun x => { x with el := { x.el with state := .faulted } }))
     0 ∈ (fresh.zone 0).members ∧ (fresh.zone 0).exposedReason 0 = none ∧
      (fresh.station 0).az.state ≠ .stowed ∧ (s.station 0).tags = [] ∧
      (s.station 0).el.state = .faulted ∧
      ((s.modStation 0 (fun x => { x with tags := [Tag.siteTag 0] })).station 0).tags =
        [Tag.siteTag 0]) := by
  decide +kernel

theorem witness_ZoneOrdersAndLinesEvaluate :
    (fresh.exchange.inFlight = none ∧ (3 : BitVec 16).toNat = (3 : ZoneId).val) ∧
    (fresh.zone 3).blindTimer ≠ some 0 ∧
    ((fresh.modZone 3 (fun z => { z with blindTimer := some 0 })).zone 3).blindTimer = some 0 ∧
    (fresh.lines.siteStow = false ∧ fresh.lines.siteStow ≠ true) ∧
    ((State.afterReset [] [] (fun _ => (false, false)) true false false 0).zone 3).state = .stowing ∧
    (let s (st : ZoneState) (v : Option Int) (order : Bool) : State :=
      { fresh with lines := { siteStow := true, siteStop := false } }.modZone 3 (fun z => { z with
        state := st, speed := v, order := order })
     let u (s : State) : State := eachOf (List.finRange 4) (State.evaluate settle false)
      { s with lines := { s.lines with siteStow := false } }
     ((s .stowing none false).lines.siteStow ≠ false ∧
      ((u (s .stowing none false)).zone 3).causes.any = false ∧
      ((u (s .returnHold none false)).zone 3).causes.any = false ∧
      ((u (s .unwatched none false)).zone 3).causes.any = false ∧
      ((u (s .calm (some 120) false)).zone 3).causes.any = false ∧
      ((u (s .watch (some 99) false)).zone 3).causes.any = false ∧
      ((s .calm none false).zone 3).cfg.watch = 120 ∧ ((s .calm none false).zone 3).cfg.release = 100 ∧
      ((u (s .stowed none true)).zone 3).causes.any = true)) := by
  decide +kernel

theorem witness_ZoneTimersStowAndReturn :
    let late := fresh.modZone 0 (fun z => { z with state := .stowing, deadline := some 0 })
    let back := fresh.modZone 0 (fun z => { z with state := .returnHold, holdTimer := some 0 })
    ((late.zone 0).state = .stowing ∧ (late.zone 0).deadline = some 0 ∧ late.entering ≠ some 0 ∧
      (late.zone 0).members.Nodup ∧ (∀ st ∈ (late.zone 0).members, (late.station st).cfg.zone = 0)) ∧
    (fresh.zone 0).state ≠ .stowing ∧ (fresh.zone 0).state ≠ .returnHold ∧
    ((back.zone 0).state = .returnHold ∧ (back.zone 0).holdTimer = some 0) ∧
    (let zone (st : ZoneState) := fresh.modZone 3 (fun z => { z with state := st })
     ((zone .stowing).zone 3).state = .stowing ∧ (zone .stowing).entering ≠ some 3 ∧
      ((zone .stowing).zone 3).members = [] ∧
      ((fresh.modZone 0 (fun z => { z with state := .stowed })).zone 0).state = .stowed ∧
      ¬ ((fresh.zone 0).exposedReason 0 ≠ none ∨ (fresh.station 0).az.state = .stowed) ∧
      ((withStation (fun x => { x with
        az := { x.az with state := .stowed }, el := { x.el with state := .stowed } })).station 0).el.state = .stowed) ∧
    (let out := (linked id).modZone 0 (fun z => { z with exposed := [(0, .locked)] })
     (out.station 0).tags = [] ∧ (out.zone 0).exposedReason 0 = some .locked) := by
  decide +kernel

/-- A page's configuration of a wind zone with G15 listed. -/
def rawZone (count : BitVec 8) (last : BitVec 8) (watch stow release : BitVec 16) : RawZoneConfig :=
  { count := count, stage0 := 15, stage1 := 15, stage2 := 0, stage3 := last, watch := watch,
    stow := stow, release := release, gustStow := 1, returnHold := 60, deadline := 30,
    blindTimeout := 1, floor := 92000000 }

theorem witness_ConfigureZoneReplacesAndEvaluates :
    (fresh.exchange.inFlight = none ∧ (3 : BitVec 16).toNat = (3 : ZoneId).val) ∧
    (RawZone.badValue (rawZone 4 15 100 100 100) = false ∧
      RawZone.badValue (rawZone 4 16 100 100 100) = true ∧
      RawZone.badValue (rawZone 5 0 100 100 100) = true) ∧
    (let c := RawZone.config (rawZone 4 15 100 100 100)
     c.release ≤ c.watch ∧ c.watch ≤ c.stow) ∧
    (let c := RawZone.config (rawZone 4 15 100 99 100)
     ¬ c.watch ≤ c.stow) ∧
    (RawZone.config (rawZone 4 15 100 100 100)).stages = [15, 0] ∧
    (RawZone.clamped (rawZone 4 15 100 100 100) = false ∧
      RawZone.clamped (rawZone 4 15 100 32768 100) = true ∧
      RawZone.clamped { rawZone 4 15 100 100 100 with gustStow := 0 } = true ∧
      RawZone.clamped { rawZone 4 15 100 100 100 with deadline := 29 } = true) ∧
    (let z (b : Bool) (t : Timer) : Zone := { fresh.zone 0 with
      cfg := { (fresh.zone 0).cfg with stages := [0] }, blind := b, blindTimer := t }
     (z false none).cfg.stages ≠ [] ∧ (z false none).blind = false ∧
      (z false (some 1)).blindTimer ≠ none ∧ (z true none).blind = true) ∧
    (let raw (count : BitVec 8) : RawZoneConfig :=
      { rawZone count 0 120 180 100 with stage0 := 0, gustStow := 32767 }
     let s (v : Int) (st : ZoneState) : State := (staged { stage .live with
       f := some v, b := some v, x := some v }).modZone 3 (fun z => { z with
         state := st })
     let judged (s : State) (n : BitVec 8) : Zone := { s.zone 3 with cfg := RawZone.config (raw n)
       }.judgeWeather ((RawZone.config (raw n)).stages.filterMap
         (fun n => s.usableStage n .windSpeed))
     let e (s : State) (n : BitVec 8) : ZoneState :=
       (((s.modZone 3 (fun _ => judged s n)).evaluate settle false 3).zone 3).state
     (RawZone.config (raw 1)).stages ≠ [] ∧ (RawZone.config (raw 0)).stages = [] ∧
     (RawZone.config (raw 1)).watch = 120 ∧ (RawZone.config (raw 1)).release = 100 ∧
     ((judged (s 120 .unwatched) 1).speed = some 120 ∧ e (s 120 .unwatched) 1 = .unwatched) ∧
     ((judged (s 119 .unwatched) 1).speed = some 119 ∧
       (judged (s 119 .unwatched) 1).gust = false ∧ e (s 119 .unwatched) 1 = .unwatched) ∧
     (e (s 120 .calm) 1 = .watch ∧ e (s 119 .calm) 1 = .calm ∧ e (s 119 .calm) 0 = .calm) ∧
     ((judged (s 99 .watch) 1).speed = some 99 ∧ e (s 99 .watch) 1 = .calm ∧
       e (s 100 .watch) 1 = .watch ∧ e (s 99 .watch) 0 = .watch) ∧
     (e (s 99 .unwatched) 0 = .unwatched ∧ e (s 99 .stowed) 1 = .returnHold ∧
       e (s 99 .returnHold) 1 = .returnHold ∧ e (s 180 .calm) 1 = .stowed) ∧
     (((judged (s 179 .calm) 1).causesNow false).any = false ∧
       ((judged (s 180 .calm) 1).causesNow false).any = true)) := by
  decide +kernel

theorem witness_ResistancesAreClassified :
    let h (k : HeatClass) : Heater := { Heater.reset with cls := some k, current := 249 }
    (h .a).cls = some .a ∧ (h .b).cls = some .b ∧ (h .c).cls = some .c ∧
    (h .a).below 50 = true ∧ { h .a with current := 250 }.below 50 = false ∧
    { h .a with current := 800 }.above 160 = false ∧ { h .a with current := 801 }.above 160 = true := by
  decide +kernel

/-- S0 up and untagged, with its FEED zone in a mode and a state. -/
def heated (m : HeatMode) (st : HeatState) : State :=
  linked (fun x => { x with feed := { x.feed with mode := m, state := st } })

theorem witness_HeatCallChangesAreAnswered :
    let f (h : Heater) : Heater := { h with manual := true }
    let g (h : Heater) : Heater := { h with manual := false }
    let h (st : HeatState) := ((heated .manual st).station 0).feed
    (∀ k, (f k).state = k.state) ∧ Waiting.inOrder fresh.power.waiting ∧
    ((f (h .idle)).call = true ∧ (f (h .ready)).call = true ∧
      ((linked id).station 0).link.up = true ∧ ((linked id).station 0).retired = false) ∧
    (((h .on).state = .on ∧ { h .on with state := .idle }.state = .idle) ∧
      { h .ready with state := .waitingPower, cls := some .a }.cls = some HeatClass.a) ∧
    ((h .idle).call = false ∧ (f (h .idle)).call = true ∧ (h .idle).state = .idle ∧
      (h .ready).state = .ready) ∧
    ((f (h .on)).call = true ∧ (g (f (h .on))).call = false ∧ (h .shed).state = .shed) ∧
    (f (f (h .on))).call = (f (h .on)).call ∧
    (((heated .manual .idle).station 0).tags = [] ∧ ((heated .manual .idle).station 0).link.up = true ∧
      ((heated .manual .idle).station 0).retired = false) :=
  ⟨fun _ => rfl, by decide +kernel, by decide +kernel⟩

theorem witness_HeatDemandsAndProbes :
    let s := withStation (fun x => { x with feed := { x.feed with meltOff := some 0 } })
    (((s.station 0).heater .feed).meltOff = some 0 ∧
      ((fresh.station 0).heater .feed).meltOff ≠ some 0) ∧
    (fresh.exchange.inFlight = none ∧ (fresh.station 15).retired = false ∧
      (31 : BitVec 16).toNat = 2 * (15 : StationId).val + 1) ∧
    (((fresh.station 15).heater .feed).mode ≠ .manual ∧
      (((heated .manual .ready).station 0).heater .feed).mode = .manual ∧
      (((heated .manual .ready).station 0).heater .feed).state = .ready) ∧
    (((heated .manual .ready).station 0).tags = [] ∧
      ((heated .manual .ready).station 0).link.up = true) := by decide +kernel

theorem witness_HeatModeChanges :
    (fresh.exchange.inFlight = none ∧ (fresh.station 15).retired = false ∧
      (30 : BitVec 16).toNat = 2 * (15 : StationId).val + 0 ∧ (2 : BitVec 8).toNat = 2) ∧
    (((fresh.station 15).heater .feed).mode = .off ∧
      (((heated .manual .on).station 0).heater .feed).mode = .manual ∧
      (((heated .auto .on).station 0).heater .feed).mode = .auto) ∧
    (let s := linked (fun x => { x with feed := { x.feed with meltOff := some 1 } })
     ((s.station 0).heater .feed).meltOff ≠ none ∧ (s.station 0).tags = [] ∧
      (s.station 0).link.up = true) := by decide +kernel

theorem witness_HeaterRunOutsFault :
    let h (st : HeatState) (n i : Nat) := ((withStation (fun x => { x with feed := { x.feed with
      state := st, probeWindow := some n, energize := some n, overload := some n,
      openElement := some n, cls := some .a, current := i } })).station 0).heater .feed
    ((h .probing 0 0).state = .probing ∧ (h .probing 0 0).probeWindow = some 0) ∧
    (h .probing 1 0).probeWindow ≠ some 0 ∧
    ((h .energizing 0 249).energize = some 0 ∧
      ¬ (HeatClass.a.rated ≤ 2 * 249 ∧ 4 * 249 ≤ 5 * HeatClass.a.rated) ∧
      ¬ (HeatClass.a.rated ≤ 2 * 626 ∧ 4 * 626 ≤ 5 * HeatClass.a.rated)) ∧
    ((h .on 0 0).state = .on ∧ (h .on 0 0).overload = some 0 ∧ (h .on 0 0).openElement = some 0) := by
  decide +kernel

theorem witness_HeaterRunOutsGoOn :
    let s := linked (fun x => { x with
      feed := { x.feed with state := .cooldown, cooldown := some 0, mode := .manual, manual := true },
      reflector := { x.reflector with state := .on, onRun := some 0 } })
    ((s.station 0).feed.state = .cooldown ∧ (s.station 0).feed.cooldown = some 0 ∧
      (s.station 0).feed.call = true ∧ (s.station 0).tags = [] ∧ (s.station 0).link.up = true) ∧
    ((s.station 0).reflector.state = .on ∧ (s.station 0).reflector.onRun = some 0) ∧
    (HeatClass.a.rated ≤ 2 * 250 ∧ 4 * 250 ≤ 5 * HeatClass.a.rated ∧
      HeatClass.a.rated ≤ 2 * 625 ∧ 4 * 625 ≤ 5 * HeatClass.a.rated) ∧
    (fresh.station 0).feed.state ≠ .cooldown ∧ (fresh.station 0).reflector.state ≠ .on ∧
    ((heated .manual .waitingPower).station 0).feed.state = .waitingPower ∧
    ((heated .manual .energizing).station 0).feed.state = .energizing ∧
    ((heated .manual .ready).station 0).feed.state = .ready := by
  decide +kernel

/-- A tag of an ID. -/
def tag (id : Nat) : Tag :=
  { id := id, kind := .personnel, scope := .both, party := .request, time := 0 }

/-- The tags 1 to n. -/
def tags (n : Nat) : List Tag := (List.range n).map (fun i => tag (i + 1))

theorem witness_TagsArePlacedByRequestAndPanel :
    let frame := Frame.seal [0, 1, 2, 4, 0xFD, 0xFF]
    (fresh.exchange.inFlight = none ∧ (fresh.station 15).retired = false ∧
      Code.tagKind (1 : BitVec 8).toNat = some .personnel ∧
      Code.scope (4 : BitVec 8).toNat = some .service ∧
      Code.tagKind (4 : BitVec 8).toNat = some .site) ∧
    (65533 < (65534 : BitVec 16).toNat ∧ ¬ 65533 < (65533 : BitVec 16).toNat ∧
      (0 : BitVec 16).toNat = 0) ∧
    ((tags 8).length = 8 ∧ (tags 7).length < 8 ∧ (tags 8).any (fun t => t.id == 8) = true) ∧
    ((slotted id).goodAnswer frame = true ∧ Frame.panelCode frame = 1 ∧
      Frame.lockTag frame = some (.electrical, .service) ∧ fresh.goodAnswer [] = false ∧
      Frame.lockTag (Frame.seal [0, 1, 2, 4, 0xFE, 0xFF]) = none) ∧
    ((slotted (fun x => { x with retired := true })).station 0).retired = true := by decide +kernel

theorem witness_ClearingRequestsRemoveTags :
    let s := withStation (fun x => { x with tags := tags 8, sitePending := true })
    (fresh.exchange.inFlight = none ∧ fresh.lines.siteStop = false ∧
      (State.afterReset [] [] (fun _ => (false, false)) false true false 0).lines.siteStop = true) ∧
    ((fresh.station 0).retired = false ∧ (fresh.station 0).hasTag 65534 = true ∧
      (fresh.station 0).hasTag 65535 = false ∧ (fresh.station 0).sitePending = false) ∧
    ((s.station 0).hasTag 65534 = false ∧ (s.station 0).sitePending = true) := by decide +kernel

theorem witness_PanelAnswersActOrAreRefused :
    let frame (code lo hi : Byte) := Frame.seal [0, code, 0, 0, lo, hi]
    let s := slotted (fun x => { x with tags := [tag 5, Tag.siteTag 0], fuse2 := true })
    (s.goodAnswer (frame 0 0 0) = true ∧ s.goodAnswer (frame 4 0 0) = true ∧
      s.goodAnswer (frame 2 5 0) = true ∧ s.goodAnswer (frame 3 0 0) = true) ∧
    (Frame.panelId (frame 2 0xFF 0xFF) = 65535 ∧ Frame.panelId (frame 2 5 0) = 5) ∧
    ((s.station 0).hasTag 5 = true ∧ (s.station 0).hasTag 6 = false) ∧
    ((s.station 0).fuse2 = true ∧ ((slotted id).station 0).fuse2 = false) ∧
    s.goodAnswer [] = false := by decide +kernel

theorem witness_SiteStopTagsEveryStation :
    (fresh.lines.siteStop = false ∧ fresh.lines.siteStop ≠ true) ∧
    (State.afterReset [] [] (fun _ => (false, false)) false true false 0).lines.siteStop ≠ false ∧
    ((allRetired.station 0).retired = true ∧ (fresh.station 0).retired = false ∧
      (fresh.station 0).hasTag 65535 = false) ∧
    (8 ≤ (tags 8).length ∧ (tags 7).length < 8) ∧
    (Tally.answers.settles = false ∧ ∀ y, Tally.answers ≠ .tagChanges y) :=
  ⟨by decide +kernel, by decide +kernel, by decide +kernel, by decide, by decide,
    fun _ => Tally.noConfusion⟩

theorem witness_FuseWordsAreWrittenOnce :
    (fresh.exchange.inFlight = none ∧ (fresh.station 15).retired = false ∧
      (fresh.station 15).fuse1 = false) ∧
    ((withStation (fun x => { x with fuse1 := true })).station 0).fuse1 = true ∧
    ∃ t, step (waiting (.retireStation 0 15) fresh) = .next t :=
  ⟨by decide +kernel, by decide +kernel, _, rfl⟩

theorem witness_PanelLinePollsAndJudges :
    let s (b : Bool) (e n : Nat) := (slotted (fun x => { x with
        panel := { x.panel with lost := false, unanswered := n } })).modPanelLine (fun p =>
          { p with isOpen := b, elapsed := e })
    ((s false 125 0).panelLine.isOpen = false ∧ 125 ≤ (s false 125 0).panelLine.elapsed ∧
      ¬ 125 ≤ (s false 124 0).panelLine.elapsed) ∧
    ((s true 125 0).panelLine.isOpen = true ∧ (s true 125 0).panelLine.answered = false ∧
      ((s true 125 1).station 0).panel.lost = false ∧ ((s true 125 1).station 0).panel.unanswered < 2 ∧
      2 ≤ ((s true 125 2).station 0).panel.unanswered) ∧
    (fresh.station 0).panel.lost = true := by decide +kernel

theorem witness_CheckWordTellsAChangedByte :
    2 ≤ 2 ∧ CheckWord.of ([1] ++ 2 :: [3]) = CheckWord.of ([1] ++ 2 :: [3]) ∧
    CheckWord.of [1, 2, 3] ≠ CheckWord.of [1, 4, 3] := by decide +kernel

theorem witness_EveryStepKeepsTheMemoryForm :
    Law.memory fresh ∧ ∃ t, step (waiting (.postWrite [(0, 1)] 0) fresh) = .next t :=
  ⟨by decide +kernel, _, rfl⟩

theorem witness_EveryStepKeepsTheTagLaw :
    Law.tags fresh ∧ ∃ t, step (waiting (.placeTag 0 0 1 1 1) fresh) = .next t :=
  ⟨by decide +kernel, _, rfl⟩

end Sys2Proof.Tests
end

section
/-! PROOFS. What an event leaves of the posting queue and of the form of exchange memory. The queue changes by
POST_WRITE, by REQUEST_TAKE and by the two resets alone. `Steady` says of two states that the second has the
queue of the first, and a memory in canonical form where the first has one. The operations are taken in the
order in which the model defines them; what the settling of an event does is taken from `Kept`. -/

namespace Sys2Proof.Machine

/-- The posting queue stands, and the canonical form of exchange memory is kept. -/
structure Steady (s t : State) : Prop where
  queue : t.exchange.queue = s.exchange.queue
  form : Memory.wf s.mem → Memory.wf t.mem

namespace Steady

/-! ### The relation and the named updates -/

theorem refl (s : State) : Steady s s := ⟨rfl, id⟩

/-- A last step, after the steps before it. -/
theorem after {s t u : State} (k : Steady t u) (h : Steady s t) : Steady s u :=
  ⟨k.queue.trans h.queue, fun w => k.form (h.form w)⟩

/-- A change that touches neither the queue nor exchange memory. -/
theorem same {s t : State} (hq : t.exchange.queue = s.exchange.queue) (hm : t.mem = s.mem) :
    Steady s t :=
  ⟨hq, fun w => hm ▸ w⟩

theorem of_kept {E : TableId → Prop} {Q : Prop} {s t : State} (h : Kept E Q s t) : Steady s t := by
  obtain ⟨b, hb⟩ := h.exchange
  exact ⟨by rw [hb], h.wf⟩

theorem ite {c : Prop} [Decidable c] {s t u : State} (h : Steady s t) (k : Steady s u) :
    Steady s (if c then t else u) := by
  split
  · exact h
  · exact k

theorem modStation (st : StationId) (f : Station → Station) (s : State) :
    Steady s (s.modStation st f) := .same rfl rfl

theorem modAxis (st : StationId) (ax : AxisId) (f : Axis → Axis) (s : State) :
    Steady s (s.modAxis st ax f) := .same rfl rfl

theorem modHeater (st : StationId) (area : Area) (f : Heater → Heater) (s : State) :
    Steady s (s.modHeater st area f) := .same rfl rfl

theorem modBook (st : StationId) (l : Letter) (f : Book → Book) (s : State) :
    Steady s (s.modBook st l f) := .same rfl rfl

theorem modProgress (st : StationId) (f : Progress → Progress) (s : State) :
    Steady s (s.modProgress st f) := .same rfl rfl

theorem modZone (z : ZoneId) (f : Zone → Zone) (s : State) : Steady s (s.modZone z f) :=
  .same rfl rfl

theorem modTable (x : TableId) (f : SweepTable → SweepTable) (s : State) :
    Steady s (s.modTable x f) := .same rfl rfl

theorem modTime (f : TimeUnit → TimeUnit) (s : State) : Steady s (s.modTime f) := .same rfl rfl

theorem modSensing (f : Sensing → Sensing) (s : State) : Steady s (s.modSensing f) :=
  .same rfl rfl

theorem modStage (n : Nat) (f : Stage → Stage) (s : State) : Steady s (s.modStage n f) :=
  .same rfl rfl

theorem modPanelLine (f : PanelLine → PanelLine) (s : State) : Steady s (s.modPanelLine f) :=
  .same rfl rfl

theorem modPower (f : Power → Power) (s : State) : Steady s (s.modPower f) := .same rfl rfl

theorem bump (x : Tally) (s : State) : Steady s (s.bump x) := ⟨rfl, State.wf_bump⟩

theorem answer (p : PageId) (r : Result) (d : List Byte) (s : State) : Steady s (s.answer p r d) :=
  ⟨rfl, State.wf_answer⟩

theorem publish {s t : State} (h : Steady s t) (r : State) : Steady s (r.publish t) :=
  ⟨h.queue, fun w => State.wf_publish (h.form w)⟩

theorem eachOf {α : Type} {f : α → State → State} (l : List α) (h : ∀ a s, Steady s (f a s))
    (s : State) : Steady s (eachOf l f s) := by
  induction l generalizing s with
  | nil => exact .refl s
  | cons a l ih => exact (ih _).after (h a s)

theorem settle (s : State) : Steady s (settle s) := .of_kept (.settle s)

theorem settle_leave (w : Work) (s : State) : Steady s (Machine.settle (s.leave w)) :=
  (settle _).after (.same rfl rfl)

/-! ### Targets, axes and faults -/

theorem formClaim (st : StationId) (s : State) : Steady s (s.formClaim Machine.settle st) :=
  .of_kept (E := fun _ => False) (Q := True) (.formClaim Kept.settle st s)

theorem changeAxes (st : StationId) (f : Station → Station) (s : State) :
    Steady s (s.changeAxes Machine.settle st f) := by
  unfold State.changeAxes
  dsimp only
  have h := (formClaim st (s.modStation st f)).after (modStation st f s)
  exact .ite ((settle_leave _ _).after h) h

theorem decideSource (st : StationId) (s : State) : Steady s (s.decideSource Machine.settle st) :=
  .of_kept (E := fun _ => False) (Q := True) (.decideSource Kept.settle st s)

theorem redecideSource (st : StationId) (s : State) :
    Steady s (s.redecideSource Machine.settle st) :=
  .of_kept (E := fun _ => False) (Q := True) (.redecideSource Kept.settle st s)

theorem judgeShed (st : StationId) (s : State) : Steady s (s.judgeShed Machine.settle st) :=
  .of_kept (E := fun _ => False) (Q := True) (.judgeShed Kept.settle st s)

theorem inputChanged (st : StationId) (s : State) : Steady s (s.inputChanged Machine.settle st) :=
  .of_kept (E := fun _ => False) (Q := True) (.inputChanged Kept.settle st s)

theorem axesChanged (st : StationId) (s : State) : Steady s (s.axesChanged Machine.settle st) :=
  .of_kept (.axesChanged Kept.settle st s)

theorem afterFault (st : StationId) (s : State) : Steady s (s.afterFault Machine.settle st) :=
  .of_kept (.afterFault Kept.settle st s)

theorem faultAxis (st : StationId) (ax : AxisId) (r : AxisFault) (s : State) :
    Steady s (s.faultAxis Machine.settle st ax r) := by
  unfold State.faultAxis
  exact (afterFault st _).after (modAxis ..)

/-! ### Heater zones -/

theorem changeHeater (st : StationId) (area : Area) (f : Heater → Heater) (s : State) :
    Steady s (s.changeHeater Machine.settle st area f) :=
  (of_kept (Settled.changeHeater Kept.settle s st area f rfl)).after (modStation ..)

theorem judgeClaim (st : StationId) (area : Area) (s : State) :
    Steady s (s.judgeClaim Machine.settle st area) :=
  .ite (changeHeater st area _ s) (.refl s)

theorem judgeProbe (st : StationId) (area : Area) (s : State) :
    Steady s (s.judgeProbe Machine.settle st area) :=
  .ite (changeHeater st area _ s) (.refl s)

theorem judgeHeat (st : StationId) (area : Area) (s : State) :
    Steady s (s.judgeHeat Machine.settle st area) :=
  (judgeClaim st area _).after (judgeProbe st area s)

theorem judgeHeatBoth (st : StationId) (s : State) :
    Steady s (s.judgeHeatBoth Machine.settle st) :=
  (judgeHeat st .feed _).after (judgeHeat st .reflector s)

theorem changeCall (st : StationId) (area : Area) (f : Heater → Heater) (s : State) :
    Steady s (s.changeCall Machine.settle st area f) := by
  unfold State.changeCall
  dsimp only
  exact .ite (modHeater ..) (.ite (.after (judgeHeat ..) (modHeater ..))
    (.after (changeHeater ..) (modHeater ..)))

theorem faultHeater (st : StationId) (area : Area) (r : HeatFault) (v : Nat) (s : State) :
    Steady s (s.faultHeater Machine.settle st area r v) := by
  unfold State.faultHeater
  exact .after (bump ..) (.after (modStation ..) (changeHeater ..))

theorem dropHeat (st : StationId) (s : State) : Steady s (s.dropHeat Machine.settle st) := by
  unfold State.dropHeat
  exact .after (changeHeater ..) (changeHeater ..)

theorem reportCurrent (st : StationId) (area : Area) (current : Nat) (s : State) :
    Steady s (s.reportCurrent Machine.settle st area current) := by
  unfold State.reportCurrent
  dsimp only
  split
  case h_1 => exact .ite (.after (faultHeater ..) (modHeater ..)) (modHeater ..)
  case h_2 =>
    exact .ite (.after (faultHeater ..) (modHeater ..)) (.after (modHeater ..) (modHeater ..))
  all_goals exact modHeater ..

theorem probeResult (st : StationId) (area : Area) (resistance : Nat) (s : State) :
    Steady s (s.probeResult Machine.settle st area resistance) := by
  unfold State.probeResult
  dsimp only
  refine .ite ?_ (.refl s)
  split
  case h_1 => exact .after (judgeClaim ..) (.after (changeHeater ..) (modHeater ..))
  all_goals exact .after (faultHeater ..) (modHeater ..)

theorem judgeAuto (st : StationId) (area : Area) (s : State) :
    Steady s (s.judgeAuto Machine.settle st area) :=
  .ite (changeCall st area _ s) (.refl s)

theorem heatPassEnd (st : StationId) (s : State) :
    Steady s (s.heatPassEnd Machine.settle st) := by
  unfold State.heatPassEnd
  exact .after (judgeShed ..) (.after (judgeAuto ..) (judgeAuto ..))

/-! ### Books -/

theorem bookEvent (st : StationId) (kind : BookEventKind) (l : Letter) (s : State) :
    Steady s (s.bookEvent st kind l) :=
  (bump ..).after (modStation ..)

theorem startBook (st : StationId) (l : Letter) (s : State) : Steady s (s.startBook st l) :=
  (bookEvent ..).after (modStation ..)

theorem startDueBook (st : StationId) (s : State) : Steady s (s.startDueBook st) := by
  unfold State.startDueBook
  dsimp only
  split
  · exact .refl s
  · split
    · exact .refl s
    · exact .ite (startBook ..) (.refl s)

theorem faultBook (st : StationId) (l : Letter) (i : Nat) (r : BookReason) (s : State) :
    Steady s (s.faultBook st l i r) :=
  (bookEvent ..).after (modBook ..)

theorem readArmed (st : StationId) (l : Letter) (a : Armed) (cursor : Nat × Nat) (s : State) :
    Steady s (s.readArmed st l a cursor).1 := by
  unfold State.readArmed
  dsimp only
  split
  · exact .after (bookEvent ..) (modBook ..)
  · split
    · split
      · exact faultBook ..
      · exact modBook ..
    · split
      · exact faultBook ..
      · split
        · exact faultBook ..
        · exact modBook ..

theorem readBook (st : StationId) (s : State) : Steady s (s.readBook st).1 := by
  unfold State.readBook
  dsimp only
  split
  · exact .refl s
  · split
    · exact readArmed ..
    · exact readArmed ..
    · exact .refl s

theorem endValidation (st : StationId) (s : State) : Steady s (s.endValidation st) :=
  modStation ..

theorem supersede (st : StationId) (l : Letter) (s : State) : Steady s (s.supersede st l) := by
  unfold State.supersede
  exact .ite (.after (bookEvent ..) (modBook ..)) (.refl s)

theorem acceptBook (st : StationId) (l : Letter) (a : Armed) (page : PageId) (s : State) :
    Steady s (s.acceptBook st l a page) := by
  unfold State.acceptBook
  dsimp only
  exact .ite (.after (answer ..) (endValidation ..)) (.ite (.after (answer ..) (endValidation ..))
    (.after (answer ..) (.after (endValidation ..) (.after (modBook ..) (supersede ..)))))

theorem rejectBook (st : StationId) (place : Place) (r : BookReason) (page : PageId) (s : State) :
    Steady s (s.rejectBook st place r page) :=
  (answer ..).after (endValidation ..)

theorem validateGroup (st : StationId) (v : Validation) (page : PageId) (s : State) :
    Steady s (s.validateGroup st v page) := by
  unfold State.validateGroup
  dsimp only
  split
  · exact rejectBook ..
  · split
    · exact rejectBook ..
    · exact .ite (modStation ..) (acceptBook ..)

/-! ### Sweeps -/

theorem closeTable (x : TableId) {state : TableState} (h : state ≠ .armed) (kind : EndKind)
    (s : State) : Steady s (s.closeTable Machine.settle x state kind) :=
  .of_kept (Kept.closeTable (E := fun _ => True) (fun s => (Kept.settle s).weaken) trivial h kind s)

theorem judgeEnd (fuel : Nat) (x : TableId) (s : State) :
    Steady s (s.judgeEnd Machine.settle fuel x) :=
  .of_kept (.judgeEnd Kept.settle fuel x s)

theorem startTable (x : TableId) (late : Bool) {s : State} (h : (s.table x).state = .armed) :
    Steady s (s.startTable Machine.settle x late) :=
  (judgeEnd 2 x _).after (of_kept (Kept.beginTable (E := fun _ => True) (Q := True)
    (fun s => (Kept.settle s).weaken) trivial late h))

theorem arriveStart (x : TableId) (s : State) : Steady s (s.arriveStart Machine.settle x) := by
  unfold State.arriveStart
  dsimp only
  split
  · rename_i h
    exact .ite (modTable ..) (startTable x false h.1)
  · exact .refl s

theorem cancelTable (x : TableId) (late : Bool) (s : State) :
    Steady s (s.cancelTable Machine.settle x late) := by
  have h := closeTable x (state := .cancelled) (by decide) .cancelled s
  unfold State.cancelTable
  dsimp only
  split
  · rename_i c
    exact (startTable _ true c.2.2.1).after h
  · exact h

theorem abandon (st : StationId) (r : SweepReason) (s : State) :
    Steady s (s.abandon Machine.settle st r) :=
  .of_kept (.abandon Kept.settle st r s)

theorem clearHold (st : StationId) (s : State) : Steady s (s.clearHold Machine.settle st) := by
  unfold State.clearHold State.setHold
  exact .ite (.refl s) (.after (inputChanged ..) (modStation ..))

theorem judgeRecord (x : TableId) (st : StationId) (s : State) :
    Steady s (s.judgeRecord Machine.settle x st) := by
  unfold State.judgeRecord
  dsimp only
  exact .ite (.refl s) (.ite (.after (clearHold ..) (.after (modTable ..) (modProgress ..)))
    (.ite (modProgress ..) (modProgress ..)))

theorem judgeTable (x : TableId) (s : State) : Steady s (s.judgeTable Machine.settle x) := by
  unfold State.judgeTable
  have issue (s : State) : Steady s (s.judgeIssue Machine.settle x) := of_kept (Kept.judgeIssue
    (E := fun _ => True) (Q := True) (fun s => (Kept.settle s).weaken) trivial s)
  exact .ite (.after (judgeEnd ..) (.after (issue _) (eachOf _ (judgeRecord x) s))) (.refl s)

theorem arriveAtTime (x : TableId) (s : State) : Steady s (s.arriveAtTime Machine.settle x) := by
  unfold State.arriveAtTime
  split
  · exact .refl s
  · exact .ite (arriveStart x s) (.refl s)

theorem strobe (x : TableId) (s : State) : Steady s (s.strobe Machine.settle x) := by
  unfold State.strobe
  exact .ite (.after (arriveStart ..) (modTable ..)) (.refl s)

/-! ### Wind zones -/

theorem zoneEvent (z : ZoneId) (left : ZoneState) (s : State) : Steady s (s.zoneEvent z left) :=
  (bump ..).after (modZone ..)

theorem judgeMembers (z : ZoneId) (s : State) : Steady s (s.judgeMembers Machine.settle z) :=
  eachOf _ judgeShed s

theorem moveZone (z : ZoneId) (to_ : ZoneState) (f : Zone → Zone) (s : State) :
    Steady s (s.moveZone Machine.settle z to_ f) := by
  unfold State.moveZone
  exact .after (judgeMembers ..) (.after (zoneEvent ..) (modZone ..))

theorem stowedTest (z : ZoneId) (s : State) : Steady s (s.stowedTest Machine.settle z) :=
  .ite (moveZone z .stowed _ s) (.refl s)

theorem enterStowing (z : ZoneId) (s : State) : Steady s (s.enterStowing Machine.settle z) :=
  (of_kept (Kept.enterStowing Kept.settle z s)).after (modZone ..)

theorem joinExposed (st : StationId) (r : ExposeReason) (s : State) :
    Steady s (s.joinExposed Machine.settle st r) :=
  .of_kept (.joinExposed Kept.settle st r s)

theorem ableToMove (st : StationId) (s : State) : Steady s (s.ableToMove Machine.settle st) :=
  .of_kept (.ableToMove Kept.settle st s)

theorem moveByWeather (z : ZoneId) (s : State) : Steady s (s.moveByWeather Machine.settle z) :=
  .ite (moveZone z .watch id s) (.ite (moveZone z .calm id s) (.refl s))

theorem evaluate (passEnd : Bool) (z : ZoneId) (s : State) :
    Steady s (s.evaluate Machine.settle passEnd z) := by
  unfold State.evaluate
  dsimp only
  split
  case h_5 => exact modZone ..
  case h_6 | h_7 => exact .after (moveByWeather ..) (modZone ..)
  case h_8 | h_9 => exact modZone ..
  case h_10 | h_11 => exact .after (moveZone ..) (modZone ..)
  case h_12 => exact .ite (.after (modZone ..) (modZone ..)) (modZone ..)
  all_goals exact .after (enterStowing ..) (modZone ..)

theorem windPassEnd (s : State) : Steady s (s.windPassEnd Machine.settle) :=
  (eachOf _ (evaluate true) _).after (eachOf _ (fun _ _ => modZone ..) s)

theorem expose (st : StationId) (r : ExposeReason) (s : State) : Steady s (s.expose st r) :=
  .ite (modZone ..) (.refl s)

theorem deadlineOut (z : ZoneId) (s : State) : Steady s (s.deadlineOut Machine.settle z) := by
  unfold State.deadlineOut
  dsimp only
  refine .after (stowedTest ..) ?_
  have h := (eachOf ((s.modZone z (fun x => { x with deadline := none })).zone z).members
    (fun st => expose st .deadline) _).after (modZone z (fun x => { x with deadline := none }) s)
  exact .ite h (.after (bump ..) (.after (modZone ..) h))

theorem holdOut (z : ZoneId) (s : State) : Steady s (s.holdOut Machine.settle z) := by
  unfold State.holdOut
  exact .after (judgeMembers ..) (.after (zoneEvent ..)
    (.after (eachOf _ decideSource _) (modZone ..)))

theorem stowMember (st : StationId) (s : State) : Steady s (s.stowMember Machine.settle st) :=
  .of_kept (.stowMember Kept.settle st s)

theorem moveMember (st : StationId) (old : ZoneId) (s : State) :
    Steady s (s.moveMember Machine.settle st old) := by
  unfold State.moveMember
  dsimp only
  refine .ite (.refl s) ?_
  generalize hu : State.modZone (State.stowedTest Machine.settle old _) _ _ = u
  have h : Steady s u := hu ▸ .after (modZone ..) (.after (stowedTest ..) (modZone ..))
  have h' := (stowMember st u).after h
  exact .ite (.ite (.after (enterStowing ..) h') h') h

/-! ### Links -/

theorem loseLink (st : StationId) (s : State) : Steady s (s.loseLink Machine.settle st) := by
  unfold State.loseLink
  dsimp only
  exact .after (dropHeat ..) (.after (.ite (afterFault ..) (.refl _))
    (.after (.ite (afterFault ..) (.refl _))
      (.after (modStation ..) (.after (bump ..) (modStation ..)))))

theorem closeWindow (st : StationId) (s : State) : Steady s (s.closeWindow Machine.settle st) :=
  .ite (.ite (modStation ..) (loseLink st s)) (.refl s)

theorem linkExpiry (s : State) : Steady s (s.linkExpiry Machine.settle) :=
  (eachOf _ (fun _ _ => modStation ..) _).after (eachOf _ closeWindow s)

theorem reportAxis (st : StationId) (r : Report) (ax : AxisId) (s : State) :
    Steady s (s.reportAxis Machine.settle st r ax) := by
  unfold State.reportAxis
  dsimp only
  split
  · exact .after (faultAxis ..) (modAxis ..)
  · exact .after (modStation ..) (modAxis ..)

theorem afterAxes (st : StationId) (before : Station) (s : State) :
    Steady s (s.afterAxes Machine.settle st before) := by
  unfold State.afterAxes
  dsimp only
  exact .after (axesChanged ..) (.after (.ite (settle_leave ..) (.refl _)) (formClaim ..))

theorem takeReport (st : StationId) (r : Report) (s : State) :
    Steady s (s.takeReport Machine.settle st r) := by
  unfold State.takeReport
  dsimp only
  generalize hu : (if (s.station st).link.up = true then _ else _) = u
  have h : Steady s u := hu ▸ .ite (modStation ..) (.after (judgeHeatBoth ..) (modStation ..))
  generalize hv : State.afterAxes Machine.settle st (u.station st) _ = v
  have h' : Steady s v := hv ▸ .after (afterAxes ..) (.after (reportAxis ..)
    (.after (reportAxis ..) h))
  have h'' := (reportCurrent st .feed r.feedCurrent _).after
    ((reportCurrent st .reflector r.reflectorCurrent v).after h')
  split
  · exact h''
  · exact .after (probeResult ..) h''

/-! ### Lockouts -/

theorem lockoutEvent (st : StationId) (kind : LockoutKind) (what : Nat) (party : Party)
    (s : State) : Steady s (s.lockoutEvent st kind what party) :=
  (bump ..).after (modStation ..)

theorem placeTag (st : StationId) (t : Tag) (s : State) :
    Steady s (s.placeTag Machine.settle st t) := by
  unfold State.placeTag
  dsimp only
  refine .after (lockoutEvent ..) (.after (decideSource ..)
    (.after (.ite (joinExposed ..) (.refl _)) (.after (abandon ..)
      (.after (.ite (dropHeat ..) (.refl _)) ?_))))
  exact .ite (.after (formClaim ..) (.after (modStation ..) (modStation ..))) (modStation ..)

theorem placeSite (st : StationId) (s : State) : Steady s (s.placeSite Machine.settle st) :=
  placeTag ..

theorem placePending (st : StationId) (s : State) :
    Steady s (s.placePending Machine.settle st) := by
  unfold State.placePending
  exact .ite (.after (placeSite ..) (modStation ..)) (.refl s)

theorem removeTag (st : StationId) (id : Nat) (party : Party) (s : State) :
    Steady s (s.removeTag Machine.settle st id party) := by
  unfold State.removeTag
  dsimp only
  exact .after (lockoutEvent ..) (.after (placePending ..)
    (.after (.ite (judgeHeatBoth ..) (.refl _)) (.after (ableToMove ..)
      (.after (decideSource ..) (modStation ..)))))

theorem stopStation (st : StationId) (s : State) : Steady s (s.stopStation Machine.settle st) :=
  .ite (.refl s) (.ite (modStation ..) (placeSite st s))

theorem writeFuse (st : StationId) (word : Nat) (party : Party) (s : State) :
    Steady s (s.writeFuse st word party) :=
  (lockoutEvent ..).after (modStation ..)

theorem acknowledge (st : StationId) (a : Ack) (s : State) : Steady s (s.acknowledge st a) :=
  modStation ..

theorem panelAnswer (code : Nat → Bool) {act : StationId → State → State}
    (h : ∀ st s, Steady s (act st s)) (f : Frame) (s : State) :
    Steady s (s.panelAnswer code act f) := by
  unfold State.panelAnswer State.panelHeard
  exact .ite (.after (h ..) (.after (modStation ..) (modPanelLine ..))) (.refl s)

theorem lock (f : Frame) (st : StationId) (s : State) : Steady s (s.lock Machine.settle f st) := by
  unfold State.lock
  dsimp only
  refine .ite (acknowledge ..) ?_
  split
  · exact acknowledge ..
  · exact .ite (acknowledge ..) (.ite (acknowledge ..) (.after (acknowledge ..) (placeTag ..)))

theorem unlock (f : Frame) (st : StationId) (s : State) :
    Steady s (s.unlock Machine.settle f st) := by
  unfold State.unlock
  exact .ite (acknowledge ..) (.ite (.after (acknowledge ..) (removeTag ..)) (acknowledge ..))

theorem confirmRetire (st : StationId) (s : State) : Steady s (s.confirmRetire st) := by
  unfold State.confirmRetire
  exact .ite (acknowledge ..) (.after (acknowledge ..) (writeFuse ..))

theorem losePanel (st : StationId) (s : State) : Steady s (s.losePanel st) :=
  (bump ..).after (modStation ..)

theorem judgePanel (st : StationId) (s : State) : Steady s (s.judgePanel st) :=
  .ite (.refl s) (.ite (modStation ..) (losePanel st s))

theorem poll (s : State) : Steady s s.poll := .same rfl rfl

/-! ### Sensing -/

theorem sensingEvent (kind : SensingKind) (n : Nat) (s : State) :
    Steady s (s.sensingEvent kind n) :=
  (bump ..).after (modSensing ..)

theorem takeValue (n : Nat) (x : Int) (s : State) : Steady s (s.takeValue n x) := by
  unfold State.takeValue
  dsimp only
  split
  · exact modStage ..
  · exact .ite (.ite (.after (modStage ..) (modStage ..))
      (.after (sensingEvent ..) (.after (modStage ..) (modStage ..))))
      (.after (modStage ..) (modStage ..))

theorem passWork (s : State) : Steady s s.passWork := by
  unfold State.passWork
  dsimp only
  exact .after (eachOf (f := fun (e : SensingEvent) s => s.bump e.kind.tally) _
    (fun _ _ => bump ..) _) (.after (modSensing ..) (modSensing ..))

theorem loadList (s : State) : Steady s s.loadList := by
  unfold State.loadList
  split
  · dsimp only
    split
    · exact .after (answer ..) (modSensing ..)
    · exact .after (answer ..) (.after (modSensing ..) (modSensing ..))
  · exact .refl s

theorem passBoundary (s : State) : Steady s (s.passBoundary Machine.settle) := by
  unfold State.passBoundary
  dsimp only
  exact .after (modSensing ..) (.after (loadList _) (.after (eachOf _ heatPassEnd _)
    (.after (windPassEnd _) (passWork s))))

/-! ### The drive-interval expiry -/

theorem monitorAxis (st : StationId) (ax : AxisId) (s : State) :
    Steady s (s.monitorAxis Machine.settle st ax) := by
  unfold State.monitorAxis
  dsimp only
  exact .ite (.ite (faultAxis ..) (modAxis ..)) (.refl s)

theorem countRelease (st : StationId) (ax : AxisId) (s : State) :
    Steady s (s.countRelease Machine.settle st ax) := by
  unfold State.countRelease
  dsimp only
  exact .ite (.ite (modAxis ..) (.ite (.refl s) (faultAxis ..))) (.refl s)

theorem startAtExpiry (st : StationId) (s : State) : Steady s (s.startAtExpiry st) := by
  unfold State.startAtExpiry
  dsimp only
  exact .ite (.refl s) (.ite (startDueBook ..) (.after (modStation ..) (startDueBook ..)))

theorem readAtExpiry (st : StationId) (s : State) : Steady s (s.readAtExpiry st) := by
  unfold State.readAtExpiry
  exact .ite (.refl s) (readBook st s)

theorem bookPhase (s : State) : Steady s s.bookPhase.read := by
  unfold State.bookPhase
  dsimp only
  exact .after (eachOf _ readAtExpiry _) (eachOf _ startAtExpiry s)

theorem driveStation (b : BookPhase) (st : StationId) (s : State) :
    Steady s (s.driveStation Machine.settle b st) := by
  unfold State.driveStation
  dsimp only
  refine .ite (.refl s) ?_
  generalize hu : (if b.moved st = true then _ else _) = u
  have h : Steady s u := hu ▸ .ite (inputChanged st s) (.refl s)
  exact .after (afterAxes ..) (.after (modStation ..) (.after (countRelease ..)
    (.after (countRelease ..) (.after (monitorAxis ..) (.after (monitorAxis ..)
      (.after (modStation ..) h))))))

theorem judgeTables (s : State) : Steady s (s.judgeTables Machine.settle) := by
  unfold State.judgeTables
  dsimp only
  have h : Steady s (if (s.table 0).state.runs = true then s.judgeTable Machine.settle 0 else s) :=
    .ite (judgeTable 0 s) (.refl s)
  exact .ite (.after (judgeTable ..) h) h

theorem driveExpiry (s : State) : Steady s (s.driveExpiry Machine.settle) := by
  unfold State.driveExpiry
  dsimp only
  exact .after (modTime ..) (.after (linkExpiry _) (.after (arriveAtTime ..)
    (.after (arriveAtTime ..) (.after (judgeTables _) (.after (eachOf _ (driveStation _) _)
      (.after (bookPhase _) (modTime ..)))))))

/-! ### Time -/

theorem countStep (step : Bool) (s : State) : Steady s (s.countStep step) :=
  .ite (bump _ s) (.refl s)

theorem setTimeNow (value : Nat) (s : State) : Steady s (s.setTimeNow value) :=
  (countStep ..).after (modTime ..)

theorem pulseTime (s : State) : Steady s s.pulseTime := by
  unfold State.pulseTime State.applySet State.snap
  dsimp only
  split
  case h_2 => exact .refl s
  all_goals exact .after (countStep ..) (modTime ..)

theorem pulseTable (x : TableId) (s : State) : Steady s (s.pulseTable Machine.settle x) := by
  unfold State.pulseTable
  split
  · exact .refl s
  · exact .ite (arriveStart x s) (.refl s)

/-! ### The request kinds -/

theorem onStation (page : PageId) (target : BitVec 16) {f : StationId → State → State}
    (h : ∀ st s, Steady s (f st s)) (s : State) : Steady s (s.onStation page target f) := by
  unfold State.onStation
  split
  · exact answer ..
  · exact .ite (answer ..) (h _ s)

theorem onHeater (page : PageId) (target : BitVec 16) {f : StationId → Area → State → State}
    (h : ∀ st area s, Steady s (f st area s)) (s : State) : Steady s (s.onHeater page target f) := by
  unfold State.onHeater
  split
  · exact answer ..
  · exact .ite (answer ..) (h _ _ s)

theorem onZone (page : PageId) (target : BitVec 16) {f : ZoneId → State → State}
    (h : ∀ z s, Steady s (f z s)) (s : State) : Steady s (s.onZone page target f) := by
  unfold State.onZone
  split
  · exact answer ..
  · exact h _ s

theorem onTable (page : PageId) (target : BitVec 16) {f : TableId → State → State}
    (h : ∀ x s, Steady s (f x s)) (s : State) : Steady s (s.onTable page target f) := by
  unfold State.onTable
  split
  · exact answer ..
  · exact h _ s

theorem named {α : Type} (page : PageId) (code : Option α) {f : α → State → State}
    (h : ∀ a s, Steady s (f a s)) (s : State) : Steady s (s.named page code f) := by
  unfold State.named
  split
  · exact answer ..
  · exact h _ s

theorem takeSetTime (page : PageId) (value : BitVec 48) (mode : BitVec 8) (s : State) :
    Steady s (s.takeSetTime page value mode) := by
  refine named page _ (fun m s => ?_) s
  cases m with
  | immediate => exact .after (answer ..) (setTimeNow ..)
  | atPulse => exact .ite (.after (answer ..) (modTime ..)) (answer ..)

theorem takeArmBook (page : PageId) (target : BitVec 16) (letter : BitVec 8) (number : BitVec 16)
    (s : State) : Steady s (s.takeArmBook page target letter number) := by
  refine onStation page target (fun st s => named page _ (fun l s => ?_) s) s
  exact .ite (answer ..) (.ite (answer ..) (.same rfl rfl))

theorem takeDisarmBook (page : PageId) (target : BitVec 16) (s : State) :
    Steady s (s.takeDisarmBook page target) := by
  refine onStation page target (fun st s => ?_) s
  split
  · exact answer ..
  · exact .after (answer ..) (modBook ..)

theorem takeStopBook (page : PageId) (target : BitVec 16) (s : State) :
    Steady s (s.takeStopBook Machine.settle page target) := by
  refine onStation page target (fun st s => ?_) s
  split
  · exact answer ..
  · exact .after (answer ..) (.after (inputChanged ..) (modBook ..))

theorem configure (st : StationId) (cfg : StationConfig) (s : State) :
    Steady s (s.configure Machine.settle st cfg) := by
  unfold State.configure
  dsimp only
  exact .after (axesChanged ..) (.after (formClaim ..) (.after (redecideSource ..)
    (.after (moveMember ..) (modStation ..))))

theorem takeConfigureStation (page : PageId) (target : BitVec 16) (raw : RawStationConfig)
    (s : State) : Steady s (s.takeConfigureStation Machine.settle page target raw) := by
  refine onStation page target (fun st s => ?_) s
  exact .ite (answer ..) (.ite (answer ..) (.ite (answer ..) (.ite (answer ..)
    (.after (answer ..) (configure ..)))))

theorem recover (st : StationId) (ax : AxisId) (s : State) :
    Steady s (s.recover Machine.settle st ax) := by
  unfold State.recover
  exact .after (ableToMove ..) (changeAxes ..)

theorem takeRecoverAxis (page : PageId) (target : BitVec 16) (axis : BitVec 8) (s : State) :
    Steady s (s.takeRecoverAxis Machine.settle page target axis) := by
  refine onStation page target (fun st s => named page _ (fun ax s => ?_) s) s
  exact .ite (answer ..) (.after (answer ..) (recover ..))

theorem rebudget (f : Power → Power) (s : State) : Steady s (s.rebudget Machine.settle f) := by
  unfold State.rebudget
  exact .ite (modPower ..) (.after (settle_leave ..) (modPower ..))

theorem takeSetBudget (page : PageId) (normal emergency : BitVec 32) (s : State) :
    Steady s (s.takeSetBudget Machine.settle page normal emergency) := by
  unfold State.takeSetBudget
  exact .after (answer ..) (rebudget ..)

theorem takeLaunchSweep (page : PageId) (target : BitVec 16) (source : BitVec 8)
    (start : BitVec 48) (timeout : BitVec 32) (s : State) :
    Steady s (s.takeLaunchSweep page target source start timeout) := by
  refine onTable page target (fun x s => named page _ (fun src s => ?_) s) s
  refine .ite (answer ..) (.ite (answer ..) ?_)
  split
  · exact answer ..
  · exact .after (answer ..) (modTable ..)

theorem takeCancelSweep (page : PageId) (target : BitVec 16) (s : State) :
    Steady s (s.takeCancelSweep Machine.settle page target) := by
  refine onTable page target (fun x s => ?_) s
  exact .ite (.after (answer ..) (cancelTable ..)) (answer ..)

theorem takeConfigureSensing (page : PageId) (count : BitVec 8) (s : State) :
    Steady s (s.takeConfigureSensing page count) :=
  .same rfl rfl

theorem takeRecalibrate (page : PageId) (s : State) : Steady s (s.takeRecalibrate page) := by
  unfold State.takeRecalibrate State.recalibrateAll
  exact .after (answer ..) (modSensing ..)

theorem answerZone (page : PageId) (r : Result) (z : ZoneId) (s : State) :
    Steady s (s.answerZone page r z) :=
  answer ..

theorem configureZone (z : ZoneId) (cfg : ZoneConfig) (s : State) :
    Steady s (s.configureZone Machine.settle z cfg) := by
  unfold State.configureZone State.judgeWeather
  dsimp only
  generalize hu : State.evaluate Machine.settle false z _ = u
  have h : Steady s u := hu ▸ .after (evaluate ..) (.after (modZone ..) (modZone ..))
  split
  case h_1 => exact .ite h (.after (moveByWeather ..) (.after (moveZone ..) h))
  case h_2 | h_3 => exact .ite (.after (moveZone ..) h) h
  all_goals exact h

theorem takeConfigureZone (page : PageId) (target : BitVec 16) (raw : RawZoneConfig) (s : State) :
    Steady s (s.takeConfigureZone Machine.settle page target raw) := by
  refine onZone page target (fun z s => ?_) s
  exact .ite (answer ..) (.ite (.after (answerZone ..) (configureZone ..)) (answer ..))

theorem orderZone (z : ZoneId) (order : Bool) (s : State) :
    Steady s (s.orderZone Machine.settle z order) := by
  unfold State.orderZone
  exact .after (evaluate ..) (modZone ..)

theorem takeStowZone (page : PageId) (target : BitVec 16) (s : State) :
    Steady s (s.takeStowZone Machine.settle page target) :=
  onZone page target (fun z s => (answerZone ..).after (orderZone z true s)) s

theorem takeReleaseZone (page : PageId) (target : BitVec 16) (s : State) :
    Steady s (s.takeReleaseZone Machine.settle page target) :=
  onZone page target (fun z s => (answerZone ..).after (orderZone z false s)) s

theorem answerHeater (page : PageId) (r : Result) (st : StationId) (area : Area) (s : State) :
    Steady s (s.answerHeater page r st area) :=
  answer ..

theorem setMode (st : StationId) (area : Area) (mode : HeatMode) (s : State) :
    Steady s (s.setMode Machine.settle st area mode) := by
  unfold State.setMode
  dsimp only
  refine .ite (.refl s) ?_
  split
  · exact changeHeater ..
  · exact .after (judgeProbe ..) (changeHeater ..)
  · exact changeCall ..

theorem takeSetHeatMode (page : PageId) (target : BitVec 16) (mode : BitVec 8) (s : State) :
    Steady s (s.takeSetHeatMode Machine.settle page target mode) :=
  onHeater page target (fun st area s => named page _ (fun m s =>
    (answerHeater ..).after (setMode st area m s)) s) s

theorem manualDemand (page : PageId) (demand : Bool) (st : StationId) (area : Area) (s : State) :
    Steady s (s.manualDemand Machine.settle page demand st area) := by
  unfold State.manualDemand
  exact .ite (.after (answerHeater ..) (changeCall ..)) (answer ..)

theorem takeHeatOn (page : PageId) (target : BitVec 16) (s : State) :
    Steady s (s.takeHeatOn Machine.settle page target) :=
  onHeater page target (manualDemand page true) s

theorem takeHeatOff (page : PageId) (target : BitVec 16) (s : State) :
    Steady s (s.takeHeatOff Machine.settle page target) :=
  onHeater page target (manualDemand page false) s

theorem takeProbeHeater (page : PageId) (target : BitVec 16) (s : State) :
    Steady s (s.takeProbeHeater Machine.settle page target) := by
  refine onHeater page target (fun st area s => ?_) s
  exact .ite (.after (answerHeater ..) (changeHeater ..)) (answer ..)

theorem takePlaceTag (page : PageId) (target : BitVec 16) (kind scope : BitVec 8)
    (id : BitVec 16) (s : State) :
    Steady s (s.takePlaceTag Machine.settle page target kind scope id) := by
  refine onStation page target (fun st s => named page _ (fun _ s =>
    named page _ (fun _ s => ?_) s) s) s
  exact .ite (answer ..) (.ite (answer ..) (.ite (answer ..) (.after (answer ..) (placeTag ..))))

theorem takeClearReturn (page : PageId) (target : BitVec 16) (s : State) :
    Steady s (s.takeClearReturn Machine.settle page target) := by
  unfold State.takeClearReturn
  refine .ite (.after (answer ..) (eachOf _ (fun st => removeTag st _ _) s))
    (onStation page target (fun st s => ?_) s)
  exact .ite (.after (answer ..) (removeTag ..)) (answer ..)

theorem clearStation (st : StationId) (s : State) :
    Steady s (s.clearStation Machine.settle st) := by
  unfold State.clearStation
  exact .ite (.after (removeTag ..) (modStation ..)) (modStation ..)

theorem takeClearSite (page : PageId) (target : BitVec 16) (s : State) :
    Steady s (s.takeClearSite Machine.settle page target) := by
  unfold State.takeClearSite
  refine .ite (.ite (answer ..) (.after (answer ..) (eachOf _ clearStation s)))
    (onStation page target (fun st s => ?_) s)
  exact .ite (answer ..) (.ite (.after (answer ..) (clearStation ..)) (answer ..))

theorem takeRetireStation (page : PageId) (target : BitVec 16) (s : State) :
    Steady s (s.takeRetireStation page target) := by
  refine onStation page target (fun st s => ?_) s
  exact .ite (answer ..) (.after (answer ..) (writeFuse ..))

theorem runPage (p : PageId) (s : State) : Steady s (s.runPage Machine.settle p) := by
  unfold State.runPage
  dsimp only
  split
  · exact takeSetTime ..
  · exact takeArmBook ..
  · exact takeDisarmBook ..
  · exact takeStopBook ..
  · exact takeConfigureStation ..
  · exact takeRecoverAxis ..
  · exact takeSetBudget ..
  · exact takeLaunchSweep ..
  · exact takeCancelSweep ..
  · exact takeConfigureSensing ..
  · exact takeRecalibrate ..
  · exact takeConfigureZone ..
  · exact takeStowZone ..
  · exact takeReleaseZone ..
  · exact takeSetHeatMode ..
  · exact takeHeatOn ..
  · exact takeHeatOff ..
  · exact takeProbeHeater ..
  · exact takePlaceTag ..
  · exact takeClearReturn ..
  · exact takeClearSite ..
  · exact takeRetireStation ..
  · exact answer ..

/-! ### Validation, run-outs and the clock -/

theorem validate (s : State) : Steady s s.validate := by
  unfold State.validate
  split
  · split
    · exact .ite (validateGroup ..) (.refl s)
    · exact .refl s
  · exact .refl s
  · exact .refl s

theorem endStart (st : StationId) (area : Area) (s : State) :
    Steady s (s.endStart Machine.settle st area) := by
  unfold State.endStart
  dsimp only
  exact .ite (faultHeater ..) (changeHeater ..)

theorem tick (s : State) : Steady s s.tick := .same rfl rfl

theorem millisecond (s : State) : Steady s s.millisecond := by
  have h := (tick s).publish s
  exact ⟨h.queue, h.form⟩

end Steady

end Sys2Proof.Machine
end

section
/-! PROOFS. What a step can do, and the posting queue through every step (R4). -/

namespace Sys2Proof.Machine

/-! ### What a step can do -/

/-- A step runs the front command, takes a request, or counts a millisecond. -/
theorem step_cases {s t : State} (h : step s = .next t) :
    (∃ c rest, s.pending = c :: rest ∧ exec c { s with pending := rest } = .next t) ∨
    (s.pending = [] ∧ s.canTake = true ∧ exec .requestTake s = .next t) ∨
    (s.pending = [] ∧ s.canTake = false ∧ t = s.millisecond) := by
  unfold step at h
  split at h
  · rename_i e
    unfold State.idle at h
    split at h
    · rename_i c
      exact .inr (.inl ⟨e, c, h⟩)
    · rename_i c
      refine .inr (.inr ⟨e, by simpa using c, ?_⟩)
      cases h
      rfl
  · rename_i c rest e
    exact .inl ⟨c, rest, e, h⟩

/-- A command that is one event answers what it publishes. -/
theorem event_next {s t : State} {f : State → State} (h : event s f = .next t) :
    t = s.publish (f s) := by
  rw [event_eq] at h
  cases h
  rfl

namespace Steady

theorem of_event {f : State → State} {s t : State} (h : event s f = .next t)
    (hf : ∀ s, Steady s (f s)) : Steady s t :=
  event_next h ▸ (hf s).publish s

theorem of_request {f : State → State} {s t : State} (h : request s f = .next t)
    (hf : ∀ s, Steady s (f s)) : Steady s t :=
  of_event h fun s => .ite (.refl s) (hf s)

theorem hostStore (l : List (BitVec 18 × Byte)) (s : State) : Steady s (s.hostStore l) := by
  refine ⟨?_, State.wf_hostStore l s⟩
  induction l generalizing s with
  | nil => rfl
  | cons x l ih => exact ih _

/-- A stage of the list in force, acted on where it is there. -/
theorem onStage (n : Nat) {f : Stage → State} (s : State) (hf : ∀ g, Steady s (f g)) :
    Steady s (match s.stage n with
      | none => s
      | some g => f g) := by
  split
  · exact .refl s
  · exact hf _

end Steady

/-- The commands that act on the posting queue. -/
def actsOnQueue : Instr → Bool
  | .postWrite _ _ | .requestTake | .exchangeReset _ | .fullReset _ _ _ => true
  | _ => false

open Steady in
/-- Every other command leaves the posting queue and keeps the canonical form of exchange memory. -/
theorem exec_steady {i : Instr} (hi : actsOnQueue i = false) {s t : State}
    (h : exec i s = .next t) : Steady s t := by
  unfold exec at h
  cases i with
  | postWrite | requestTake | exchangeReset | fullReset => cases hi
  | summaryRead | maskWrite | intEnable => exact of_event h (fun _ => .same rfl rfl)
  | registerWriteIgnored reg _ => exact of_event h (hostStore reg.stores)
  | setTime p v m => exact of_request h (takeSetTime p v m)
  | armBook p x l n => exact of_request h (takeArmBook p x l n)
  | disarmBook p x => exact of_request h (takeDisarmBook p x)
  | stopBook p x => exact of_request h (takeStopBook p x)
  | configureStation p x c => exact of_request h (takeConfigureStation p x c)
  | recoverAxis p x a => exact of_request h (takeRecoverAxis p x a)
  | setBudget p n e => exact of_request h (takeSetBudget p n e)
  | launchSweep p x a b c => exact of_request h (takeLaunchSweep p x a b c)
  | cancelSweep p x => exact of_request h (takeCancelSweep p x)
  | configureSensing p n => exact of_request h (takeConfigureSensing p n)
  | recalibrate p => exact of_request h (takeRecalibrate p)
  | configureZone p x c => exact of_request h (takeConfigureZone p x c)
  | stowZone p x => exact of_request h (takeStowZone p x)
  | releaseZone p x => exact of_request h (takeReleaseZone p x)
  | setHeatMode p x m => exact of_request h (takeSetHeatMode p x m)
  | heatOn p x => exact of_request h (takeHeatOn p x)
  | heatOff p x => exact of_request h (takeHeatOff p x)
  | probeHeater p x => exact of_request h (takeProbeHeater p x)
  | placeTag p x k c n => exact of_request h (takePlaceTag p x k c n)
  | clearReturn p x => exact of_request h (takeClearReturn p x)
  | clearSite p x => exact of_request h (takeClearSite p x)
  | retireStation p x => exact of_request h (takeRetireStation p x)
  | validationCompletion => exact of_event h validate
  | sitePulse =>
    exact of_event h (fun s => .ite (.after (pulseTable 1 _) (.after (pulseTable 0 _)
      (.after (pulseTime _) (modTime _ s)))) (.refl s))
  | pulseWatchExpiry => exact of_event h (fun s => .ite (.after (bump ..) (modTime _ s)) (.refl s))
  | sweepStrobe => exact of_event h (fun s => (strobe 1 _).after (strobe 0 s))
  | siteStowChange level =>
    exact of_event h (fun s => .ite (.refl s) (.after (Steady.eachOf _ (evaluate false) _) (.same rfl rfl)))
  | siteStopChange level =>
    exact of_event h (fun s => .ite (.refl s)
      (.ite (.after (Steady.eachOf _ stopStation _) (.same rfl rfl)) (.same rfl rfl)))
  | feederAlarmChange level => exact of_event h (rebudget _)
  | driveIntervalExpiry => exact of_event h (fun s => .ite (driveExpiry s) (.refl s))
  | linkLoss st => exact of_event h (fun s => .ite (loseLink st s) (.refl s))
  | reportFrame st f => exact of_event h (fun s => .ite (takeReport st _ s) (.refl s))
  | brakeTimeout st ax => exact of_event h (fun s => .ite (faultAxis st ax .brake s) (.refl s))
  | trackingFault st ax => exact of_event h (fun s => .ite (faultAxis st ax .tracking s) (.refl s))
  | holdIdleExpiry st ax =>
    exact of_event h (fun s => .ite (.after (axesChanged st _) (changeAxes st _ s)) (.refl s))
  | strobeTimeout x => exact of_event h (fun s => .ite (.after (bump ..) (modTable x _ s)) (.refl s))
  | settleTimeout st =>
    refine of_event h fun s => ?_
    dsimp only
    split
    · exact .refl s
    · exact .ite (.after (judgeEnd 2 _ _) (.after (modTable ..) (modProgress st _ s))) (.refl s)
  | passBoundary => exact of_event h (fun s => .ite (passBoundary s) (.refl s))
  | quietRateEntry => exact of_event h (fun s => .ite (modSensing _ s) (.refl s))
  | stageMisses g =>
    exact of_event h (fun s => onStage g.val s fun _ =>
      .ite (.after (sensingEvent ..) (modStage ..)) (.refl s))
  | baselineStep g =>
    exact of_event h (fun s => onStage g.val s fun _ => .ite (modStage ..) (.refl s))
  | forcedRecalibration g =>
    exact of_event h (fun s => onStage g.val s fun _ =>
      .ite (.after (sensingEvent ..) (modStage ..)) (.refl s))
  | sampleReply f => exact of_event h (fun s => .ite (takeValue _ _ s) (.refl s))
  | blindTimerExpiry z =>
    exact of_event h (fun s => .ite (.after (evaluate false z _) (modZone z _ s)) (.refl s))
  | stowDeadlineExpiry z => exact of_event h (fun s => .ite (deadlineOut z s) (.refl s))
  | returnHoldExpiry z => exact of_event h (fun s => .ite (holdOut z s) (.refl s))
  | probeWindowExpiry st a => exact of_event h (fun s => .ite (faultHeater st a _ _ s) (.refl s))
  | energizeWindowExpiry st a => exact of_event h (fun s => .ite (endStart st a s) (.refl s))
  | overloadExpiry st a => exact of_event h (fun s => .ite (faultHeater st a _ _ s) (.refl s))
  | openElementExpiry st a => exact of_event h (fun s => .ite (faultHeater st a _ _ s) (.refl s))
  | cooldownExpiry st a =>
    exact of_event h (fun s => .ite (.after (judgeProbe st a _) (changeHeater st a _ s)) (.refl s))
  | meltOffExpiry st a => exact of_event h (fun s => .ite (changeCall st a _ s) (.refl s))
  | onRunExpiry st =>
    exact of_event h (fun s => .ite (.after (judgeShed st _) (modHeater st .reflector _ s)) (.refl s))
  | panelPoll => exact of_event h (fun s => .ite (poll s) (.refl s))
  | panelSlotEnd =>
    exact of_event h (fun s => .ite (.after (modPanelLine ..) (judgePanel _ s)) (.refl s))
  | panelLost st => exact of_event h (fun s => .ite (losePanel st s) (.refl s))
  | panelNone f => exact of_event h (panelAnswer _ (fun _ s => .refl s) f)
  | panelLock f => exact of_event h (panelAnswer _ (lock f) f)
  | panelRelease f => exact of_event h (panelAnswer _ (unlock f) f)
  | retireConfirm f => exact of_event h (panelAnswer _ confirmRetire f)
  | unlistedPanelAnswer f => exact of_event h (panelAnswer _ (fun st s => acknowledge st _ s) f)

/-! ### The commands that act on the queue -/

theorem exec_postWrite (stores : List (BitVec 18 × Byte)) (v : BitVec 32) (s : State) :
    exec (.postWrite stores v) s = .next (s.publish ((s.hostStore stores).post v)) := rfl

theorem exec_exchangeReset (b : Bool) (s : State) :
    exec (.exchangeReset b) s = .next (s.publish
      ((s.modExchange (fun x => { x with intEnable := b })).exchangeReset settle)) := rfl

theorem exec_fullReset (a b c : Bool) (s : State) :
    exec (.fullReset a b c) s = .next (State.afterReset s.pending s.mem
      (fun st => ((s.station st).fuse1, (s.station st).fuse2)) a b c s.freeCount) := rfl

/-- What can be taken: a queue that is not empty, and no request in flight (R5). -/
theorem State.canTake_iff (s : State) : s.canTake = true ↔
    s.exchange.queue ≠ [] ∧ s.exchange.inFlight = none := by
  simp [State.canTake]

theorem exec_requestTake_of_not {s : State} (h : s.canTake = false) :
    exec .requestTake s = .next s := by
  have e : exec .requestTake s = event s (fun s => if s.canTake then
      (match s.exchange.queue with
        | [] => s
        | p :: rest => s.take settle p rest) else s) := rfl
  rw [e, event_eq, h]
  simp [State.publish_eq]

theorem exec_requestTake {s : State} {p : PageId} {rest : List PageId}
    (hq : s.exchange.queue = p :: rest) (hf : s.exchange.inFlight = none) :
    exec .requestTake s = .next (s.publish (s.take settle p rest)) := by
  have e : exec .requestTake s = event s (fun s => if s.canTake then
      (match s.exchange.queue with
        | [] => s
        | p :: rest => s.take settle p rest) else s) := rfl
  rw [e, event_eq, (State.canTake_iff s).2 ⟨by simp [hq], hf⟩]
  simp [hq]

/-- When a POST write is a stray post (R4). -/
theorem State.stray_iff (s : State) (v : BitVec 32) : s.stray v = true ↔
    31 < v.toNat ∨ s.pageState (Fin.ofNat 32 v.toNat) ≠ PageState.posted ∨
      Fin.ofNat 32 v.toNat ∈ s.exchange.queue := by
  simp only [State.stray, Bool.or_eq_true, decide_eq_true_eq, bne_iff_ne, List.contains_iff_mem,
    or_assoc]

/-! ### The queue law -/

/-- There are 32 indices, so a queue without repetition is short enough. -/
theorem queueLaw_iff (s : State) : Law.queue s ↔ s.exchange.queue.Nodup :=
  ⟨fun h => h.1, fun h => ⟨h, by simpa using h.length_le_card⟩⟩

theorem Steady.queueLaw {s t : State} (h : Steady s t) (l : Law.queue s) : Law.queue t := by
  rw [queueLaw_iff, h.queue]
  exact l.1

/-- A POST write appends an index that the queue does not hold. -/
theorem queueLaw_post {s : State} (v : BitVec 32) (l : Law.queue s) : Law.queue (s.post v) := by
  unfold State.post
  split
  · exact (Steady.bump _ s).queueLaw l
  · rename_i h
    have hn : Fin.ofNat 32 v.toNat ∉ s.exchange.queue := fun e =>
      h ((s.stray_iff v).2 (.inr (.inr e)))
    rw [queueLaw_iff]
    exact List.nodup_append.2 ⟨l.1, List.nodup_singleton _, by
      rintro a ha b hb rfl
      exact hn (List.mem_singleton.1 hb ▸ ha)⟩

/-- A take drops the head of the queue, whatever the page then holds. -/
theorem queue_take (p : PageId) (rest : List PageId) (s : State) :
    (s.take settle p rest).exchange.queue = rest := by
  unfold State.take
  dsimp only
  split
  · exact (Steady.runPage p _).queue
  · rfl

theorem Steady.resetTable (x : TableId) (s : State) :
    Steady s (s.resetTable Machine.settle x) := by
  unfold State.resetTable
  exact .ite (cancelTable x false s) (.refl s)

/-- An exchange reset leaves an empty queue (R15). -/
theorem queue_exchangeReset (s : State) : (s.exchangeReset settle).exchange.queue = [] := by
  unfold State.exchangeReset
  dsimp only
  exact ((Steady.resetTable 1 _).after (Steady.resetTable 0 _)).queue

theorem queueLaw_exec {i : Instr} {s t : State} (l : Law.queue s) (h : exec i s = .next t) :
    Law.queue t := by
  by_cases hi : actsOnQueue i = false
  · exact (exec_steady hi h).queueLaw l
  · cases i with
    | postWrite stores v =>
      cases (exec_postWrite stores v s).symm.trans h
      exact queueLaw_post v ((Steady.hostStore stores s).queueLaw l)
    | requestTake =>
      cases hc : s.canTake with
      | false =>
        cases (exec_requestTake_of_not hc).symm.trans h
        exact l
      | true =>
        obtain ⟨hq, hf⟩ := (State.canTake_iff s).1 hc
        obtain ⟨p, rest, hq⟩ := List.exists_cons_of_ne_nil hq
        cases (exec_requestTake hq hf).symm.trans h
        rw [queueLaw_iff, State.publish_exchange, queue_take]
        exact (List.nodup_cons.1 (hq ▸ l.1)).2
    | exchangeReset b =>
      cases (exec_exchangeReset b s).symm.trans h
      rw [queueLaw_iff, State.publish_exchange, queue_exchangeReset]
      exact .nil
    | fullReset a b c =>
      cases (exec_fullReset a b c s).symm.trans h
      exact (queueLaw_iff _).2 .nil
    | _ => exact absurd rfl hi

/-- Settles O10: the queue changes by a POST write, a take and the resets alone, and each keeps it free of
repetition. -/
theorem everyStepKeepsTheQueueLaw : Obligations.EveryStepKeepsTheQueueLaw := by
  intro s t l h
  rcases step_cases h with ⟨c, rest, -, e⟩ | ⟨-, -, e⟩ | ⟨-, -, rfl⟩
  · exact queueLaw_exec (s := { s with pending := rest }) l e
  · exact queueLaw_exec l e
  · exact (Steady.millisecond s).queueLaw l

end Sys2Proof.Machine
end

section
/-! PROOFS. The status regions: they stand at fixed places and do not overlap, so each region that an event
changed reads, after the event, as its record then stands (R2), and a full reset leaves every one whole
(R16). -/

namespace Sys2Proof.Machine

/-! ### The places of the regions -/

/-- The offset and the length of every status region, in the order of `Status.regions` (R197). -/
def Status.extents : List (Nat × Nat) :=
  [(0x15000, 32), (0x15020, 32), (0x15040, 448)] ++
  (List.range 4).map (fun z => (0x15200 + 80 * z, 80)) ++
  (List.range 2).map (fun t => (0x15340 + 96 * t, 96)) ++
  (List.range 16).map (fun st => (0x13000 + 512 * st, 512)) ++
  (List.range 16).map (fun i => (0x15800 + 64 * i, 64))

/-- Two runs of bytes without a common byte. -/
abbrev Extent.apart (a b : Nat × Nat) : Prop := a.1 + a.2 ≤ b.1 ∨ b.1 + b.2 ≤ a.1

/-- The place of a region. -/
def Region.extent (r : Nat × List Byte) : Nat × Nat := (r.1, r.2.length)

theorem Status.extents_apart : Status.extents.Pairwise Extent.apart := by decide

theorem State.regions_extents (s : State) : s.regions.map Region.extent = Status.extents := by
  simp [State.regions, Status.regions, Status.extents, Region.extent, Status.stationRegion,
    Layout.stationStatus, Layout.stageStatus, List.finRange_succ, List.range_succ]

theorem State.regions_apart (s : State) :
    s.regions.Pairwise (fun a b => Extent.apart (Region.extent a) (Region.extent b)) := by
  rw [← List.pairwise_map, s.regions_extents]
  exact Status.extents_apart

/-! ### A rewriting and a whole writing of regions, read back -/

/-- The bytes of a region that later regions leave as it stands. -/
theorem Status.bytes_rewrite_apart {olds news : List (Nat × List Byte)} {r : Nat × List Byte}
    {m : Mem} (h : ∀ n ∈ news, Extent.apart (Region.extent r) (Region.extent n)) :
    Memory.bytes (Status.rewrite olds news m) r.1 r.2.length = Memory.bytes m r.1 r.2.length := by
  refine Memory.bytes_congr fun b h1 h2 => Status.read_rewrite fun n hn => ?_
  have := h n hn
  simp only [Extent.apart, Region.extent] at this
  omega

/-- A region that changed reads as the new one. -/
theorem Status.bytes_rewrite {olds news : List (Nat × List Byte)} {m : Mem} {n : Nat}
    {a b : Nat × List Byte}
    (h : news.Pairwise (fun a b => Extent.apart (Region.extent a) (Region.extent b)))
    (ha : olds[n]? = some a) (hb : news[n]? = some b) (hab : a ≠ b) :
    Memory.bytes (Status.rewrite olds news m) b.1 b.2.length = b.2 := by
  induction olds generalizing news m n with
  | nil => simp at ha
  | cons o olds ih =>
    cases news with
    | nil => simp at hb
    | cons w news =>
      obtain ⟨hw, hn⟩ := List.pairwise_cons.1 h
      cases n with
      | zero =>
        cases ha
        cases hb
        simp only [Status.rewrite, if_neg hab]
        rw [Status.bytes_rewrite_apart hw, Memory.bytes_store]
      | succ n => exact ih hn (by simpa using ha) (by simpa using hb)

theorem Status.read_writeAll {l : List (Nat × List Byte)} {m : Mem} {a : Nat}
    (h : ∀ r ∈ l, a < r.1 ∨ r.1 + r.2.length ≤ a) :
    Memory.read (Status.writeAll l m) a = Memory.read m a := by
  induction l generalizing m with
  | nil => rfl
  | cons r l ih =>
    exact (ih fun r' hr => h r' (by simp [hr])).trans
      (Memory.read_store_outside (h r (by simp)))

/-- Every region that is written whole reads back. -/
theorem Status.bytes_writeAll {l : List (Nat × List Byte)} {m : Mem}
    (h : l.Pairwise (fun a b => Extent.apart (Region.extent a) (Region.extent b)))
    {r : Nat × List Byte} (hr : r ∈ l) :
    Memory.bytes (Status.writeAll l m) r.1 r.2.length = r.2 := by
  induction l generalizing m with
  | nil => simp at hr
  | cons w l ih =>
    obtain ⟨hw, hl⟩ := List.pairwise_cons.1 h
    rcases List.mem_cons.1 hr with rfl | hr
    · refine Eq.trans (Memory.bytes_congr (m := Memory.store m r.1 r.2) fun b h1 h2 =>
        Status.read_writeAll (l := l) fun n hn => ?_) (Memory.bytes_store m r.1 r.2)
      have := hw n hn
      simp only [Extent.apart, Region.extent] at this
      omega
    · exact ih hl hr

/-! ### Every command and every step -/

theorem Rewritten.publish (s u : State) : Rewritten s (s.publish u) := fun _ _ _ ha hb hab =>
  Status.bytes_rewrite u.regions_apart ha hb hab

/-- What a full reset writes: 0 in the tally area, then every region (R16). -/
theorem State.mem_afterReset (p : List Instr) (m : Mem) (f : StationId → Bool × Bool)
    (a b c : Bool) (n : Nat) : (State.afterReset p m f a b c n).mem =
      Status.writeAll (State.afterReset p m f a b c n).regions
        (Memory.store m Layout.tallies (List.replicate Layout.tallyArea 0)) := by
  simp only [State.afterReset, State.regions]

/-- After a full reset every region reads as its record stands. -/
theorem State.bytes_afterReset {p : List Instr} {m : Mem} {f : StationId → Bool × Bool}
    {a b c : Bool} {n : Nat} {r : Nat × List Byte} (h : r ∈ (State.afterReset p m f a b c n).regions) :
    Memory.bytes (State.afterReset p m f a b c n).mem r.1 r.2.length = r.2 := by
  rw [State.mem_afterReset]
  exact Status.bytes_writeAll (State.regions_apart _) h

/-- A request ends by publishing what it changed. -/
theorem request_publishes {s t : State} {f : State → State} (h : request s f = .next t) :
    ∃ u, t = s.publish u :=
  ⟨_, event_next h⟩

/-- Every command but FULL_RESET ends by publishing what it changed (R2). -/
theorem exec_publishes {i : Instr} {s t : State} (h : exec i s = .next t)
    (hi : ∀ a b c, i ≠ .fullReset a b c) : ∃ u, t = s.publish u := by
  unfold exec at h
  cases i with
  | fullReset a b c => exact absurd rfl (hi a b c)
  | setTime | armBook | disarmBook | stopBook | configureStation | recoverAxis | setBudget
  | launchSweep | cancelSweep | configureSensing | recalibrate | configureZone | stowZone
  | releaseZone | setHeatMode | heatOn | heatOff | probeHeater | placeTag | clearReturn | clearSite
  | retireStation => exact request_publishes h
  | _ => exact ⟨_, event_next h⟩

theorem exec_rewritten {i : Instr} {s t : State} (h : exec i s = .next t) : Rewritten s t := by
  by_cases hi : ∃ a b c, i = .fullReset a b c
  · obtain ⟨a, b, c, rfl⟩ := hi
    cases (exec_fullReset a b c s).symm.trans h
    exact fun _ _ _ _ hb _ => State.bytes_afterReset (List.mem_of_getElem? hb)
  · obtain ⟨u, rfl⟩ := exec_publishes h fun a b c e => hi ⟨a, b, c, e⟩
    exact .publish s u

/-- What counting a millisecond publishes: the commands that then wait show in no status area. -/
theorem millisecond_rewritten (s : State) : Rewritten s s.millisecond :=
  Rewritten.publish s s.tick

/-- Settles O8: the regions do not overlap, and every event ends by rewriting those it changed. -/
theorem changedStatusRegionsAreRewritten : Obligations.ChangedStatusRegionsAreRewritten := by
  refine ⟨fun s t n a b ha hb hab => ⟨?_, fun i hi => State.read_publish hi⟩,
    fun i s t h => exec_rewritten h, fun s t h => ?_⟩
  · exact Status.bytes_rewrite t.regions_apart ha hb hab
  · rcases step_cases h with ⟨c, rest, -, e⟩ | ⟨-, -, e⟩ | ⟨-, -, rfl⟩
    · exact exec_rewritten (s := { s with pending := rest }) e
    · exact exec_rewritten e
    · exact millisecond_rewritten s

end Sys2Proof.Machine
end

section
/-! PROOFS. XI: the register window, tallies, posting, the take of a request and its checks, answers (R3 to
R14, R197). -/

namespace Sys2Proof.Machine

/-! ### The register window (R3, R13, R14) -/

theorem exec_summaryRead (s : State) : exec .summaryRead s = .next { s with exchange :=
    { s.exchange with readData := s.exchange.summary.setWidth 32, summary := 0 } } :=
  event_of_blocks (f := fun s => s.modExchange (fun x =>
    { x with readData := x.summary.setWidth 32, summary := 0 })) rfl

theorem exec_maskWrite (v : BitVec 32) (s : State) : exec (.maskWrite v) s =
    .next { s with exchange := { s.exchange with mask := v.setWidth 12 } } :=
  event_of_blocks (f := fun s => s.modExchange (fun x => { x with mask := v.setWidth 12 })) rfl

theorem exec_intEnable (b : Bool) (s : State) : exec (.intEnable b) s =
    .next { s with exchange := { s.exchange with intEnable := b } } :=
  event_of_blocks (f := fun s => s.modExchange (fun x => { x with intEnable := b })) rfl

@[simp] theorem State.blocks_hostStore (l : List (BitVec 18 × Byte)) (s : State) :
    (s.hostStore l).blocks = s.blocks := by
  induction l generalizing s with
  | nil => rfl
  | cons x l ih => exact ih _

@[simp] theorem State.hostStore_exchange (l : List (BitVec 18 × Byte)) (s : State) :
    (s.hostStore l).exchange = s.exchange := by
  induction l generalizing s with
  | nil => rfl
  | cons x l ih => exact ih _

theorem exec_registerWriteIgnored (w : IgnoredWrite) (v : BitVec 32) (s : State) :
    exec (.registerWriteIgnored w v) s = .next (s.hostStore w.stores) :=
  event_of_blocks (f := fun s => s.hostStore w.stores) (s.blocks_hostStore w.stores)

/-- A tally's class bit is one of the twelve. -/
theorem SummaryClass.bit_or (c : SummaryClass) (x : BitVec 12) (i : Fin 12)
    (h : c.bit.getLsbD i.val = true) : (x ||| c.bit).getLsbD i.val = true := by
  rw [BitVec.getLsbD_or, h, Bool.or_true]

/-- Settles O5: each access is an event that leaves the blocks, and so publishes nothing. -/
theorem registerAccessesActOnOneRegister : Obligations.RegisterAccessesActOnOneRegister := by
  refine ⟨fun s => ⟨exec_summaryRead s, rfl⟩, ⟨rfl, fun x => ⟨fun h => ?_, fun i => ?_, fun i => ?_⟩⟩,
    fun s t x i hi => ⟨fun h => ?_, fun h => ?_⟩,
    exec_maskWrite, exec_intEnable, exec_registerWriteIgnored, fun s => ⟨rfl, fun _ _ _ => rfl⟩⟩
  · rw [Exchange.readPost, BitVec.toNat_ofNat, Nat.mod_eq_of_lt (by omega)]
  · rw [Exchange.readMask, BitVec.getLsbD_setWidth]
    by_cases hi : i < 12
    · simp [hi, show i < 32 by omega]
    · simp [hi, BitVec.getLsbD_of_ge x.mask i (by omega)]
  · unfold Exchange.readControl
    cases x.intEnable <;> simp [BitVec.getLsbD_one]
  · cases (exec_summaryRead _).symm.trans h
    refine ⟨?_, rfl⟩
    rw [BitVec.getLsbD_setWidth]
    simpa [show i.val < 32 by omega] using x.cls.bit_or s.exchange.summary i hi
  · cases (exec_summaryRead s).symm.trans h
    refine ⟨?_, x.cls.bit_or _ i hi⟩
    rw [BitVec.getLsbD_setWidth]
    simp [show i.val < 32 by omega]

/-- INT as R14 puts it. -/
theorem Exchange.int_iff (x : Exchange) : x.int = true ↔ x.intEnable = true ∧
    ∃ i : Fin 12, x.summary.getLsbD i.val = true ∧ x.mask.getLsbD i.val = true := by
  have h : (x.summary &&& x.mask != 0) = true ↔
      ∃ i : Fin 12, x.summary.getLsbD i.val = true ∧ x.mask.getLsbD i.val = true := by
    rw [bne_iff_ne, ← not_iff_not, not_not]
    constructor
    · rintro e ⟨i, hs, hm⟩
      have := congrArg (fun v => v.getLsbD i.val) e
      rw [BitVec.getLsbD_and, hs, hm] at this
      exact absurd (this.trans BitVec.getLsbD_zero) (by decide)
    · intro e
      refine BitVec.eq_of_getLsbD_eq fun i hi => ?_
      rw [BitVec.getLsbD_and]
      simpa using fun hs => Bool.eq_false_iff.2 fun hm => e ⟨⟨i, hi⟩, hs, hm⟩
  rw [Exchange.int, Bool.and_eq_true, h]

/-- Settles O6. -/
theorem intFollowsLatchAndMask : Obligations.IntFollowsLatchAndMask := by
  refine ⟨Exchange.int_iff, fun s t h => ?_, fun s t h => ?_, fun s t v i h he hs hv => ?_,
    fun s t i h hs hm => ?_⟩
  · cases (exec_summaryRead s).symm.trans h
    simp [Exchange.int]
  · cases (exec_intEnable false s).symm.trans h
    exact ⟨rfl, rfl⟩
  · cases (exec_maskWrite v s).symm.trans h
    exact (Exchange.int_iff _).2 ⟨he, i, hs, by simp [hv]⟩
  · cases (exec_intEnable true s).symm.trans h
    exact (Exchange.int_iff _).2 ⟨rfl, i, hs, hm⟩

/-! ### Tallies and posting (R4, R11, R12) -/

/-- Settles O7. -/
theorem tallyIncrementCountsWritesAndLatches :
    Obligations.TallyIncrementCountsWritesAndLatches := by
  refine fun s x => ⟨.bump s x, ?_, fun a h => State.read_bump h, rfl, rfl⟩
  have h := Memory.bytes_store s.mem x.address (Bytes.ofNat 2 (s.tally x + 1).toNat)
  rw [Bytes.length_ofNat] at h
  rw [Memory.nat, State.bump_mem, h, Bytes.toNat_ofNat]
  exact (s.tally x + 1).isLt

/-- A POST write publishes nothing: XI, the tallies and exchange memory are all that it touches. -/
theorem State.publish_post (l : List (BitVec 18 × Byte)) (v : BitVec 32) (s : State) :
    s.publish ((s.hostStore l).post v) = (s.hostStore l).post v := by
  refine State.publish_of_blocks (.trans ?_ (s.blocks_hostStore l))
  unfold State.post
  split <;> rfl

/-- Settles O9. -/
theorem postWriteAppendsOrStrays : Obligations.PostWriteAppendsOrStrays := by
  intro stores value s h strays
  have hs : h.stray value = true ↔ strays := by
    rw [State.stray_iff, s.hostStore_exchange]
  rw [exec_postWrite, State.publish_post]
  refine ⟨fun e => ⟨_, rfl, ?_⟩, fun e => ?_⟩
  · rw [State.post, if_pos (hs.2 e)]
    exact ⟨s.blocks_hostStore stores, .bump h .strayPosts⟩
  · rw [State.post, if_neg fun g => e (hs.1 g), State.modExchange, s.hostStore_exchange]

/-! ### Answers and the take (R5, R6, R8) -/

/-- Settles O12. -/
theorem answerWritesPageAndCounts : Obligations.AnswerWritesPageAndCounts :=
  fun s p r data => ⟨.of_counts (.refl s) p r data, rfl⟩

/-- A page handed to its owner is the row of its kind (notes/assumptions/12.md). -/
theorem State.runPage_row {s : State} {p : PageId} {i : Instr} (hf : s.exchange.inFlight = none)
    (h : s.rowOnPage p = some i) : exec i s = .next (s.publish (s.runPage settle p)) := by
  unfold State.rowOnPage at h
  unfold State.runPage
  dsimp only at h ⊢
  generalize s.field p 4 2 = kind at h ⊢
  split at h
  all_goals cases h
  all_goals exact request_eq hf _

/-- A kind that is not assigned is answered UNKNOWN_KIND. -/
theorem State.runPage_unknown {s : State} {p : PageId} (h : s.rowOnPage p = none) :
    s.runPage settle p = s.answer p .unknownKind [] := by
  unfold State.rowOnPage at h
  unfold State.runPage
  dsimp only at h ⊢
  generalize s.field p 4 2 = kind at h ⊢
  split
  case h_23 => rfl
  all_goals cases h

/-- Settles O11. -/
theorem requestTakeRunsTheRowOnThePage : Obligations.RequestTakeRunsTheRowOnThePage := by
  refine fun s p rest => ⟨fun h => exec_requestTake_of_not ?_, fun hq hf => ?_⟩
  · rw [Bool.eq_false_iff, Ne, State.canTake_iff]
    rintro ⟨h1, h2⟩
    exact h.elim h1 (fun h => h h2)
  · intro q u
    have hw : s.take settle p rest =
        if s.pageState p = PageState.posted then u.runPage settle p else q.bump .strayPosts := rfl
    rw [exec_requestTake hq hf, hw]
    refine ⟨fun h => ?_, fun h => ⟨fun i hi => ?_, fun hi => ?_⟩⟩
    · rw [if_neg h]
      exact congrArg _ (State.publish_of_blocks rfl)
    · rw [if_pos h, State.runPage_row (s := u) hf hi]
      rfl
    · rw [if_pos h, State.runPage_unknown hi]
      exact congrArg _ (State.publish_of_blocks rfl)

/-! ### The checks of the take (R6, R7) -/

section Checks

variable {s : State} {page : PageId} {target : BitVec 16}

theorem State.onStation_badTarget (h : 16 ≤ target.toNat) (f : StationId → State → State) :
    s.onStation page target f = s.answer page .badTarget [] := by
  rw [State.onStation, Target.station_none h]

theorem State.onHeater_badTarget (h : 32 ≤ target.toNat) (f : StationId → Area → State → State) :
    s.onHeater page target f = s.answer page .badTarget [] := by
  rw [State.onHeater, Target.heater_none h]

theorem State.onZone_badTarget (h : 4 ≤ target.toNat) (f : ZoneId → State → State) :
    s.onZone page target f = s.answer page .badTarget [] := by
  rw [State.onZone, Target.zone_none h]

theorem State.onTable_badTarget (h : 2 ≤ target.toNat) (f : TableId → State → State) :
    s.onTable page target f = s.answer page .badTarget [] := by
  rw [State.onTable, Target.table_none h]

theorem State.onStation_retired {st : StationId} (h : target.toNat = st.val)
    (hr : (s.station st).retired = true) (f : StationId → State → State) :
    s.onStation page target f = s.answer page .retired [] := by
  rw [State.onStation, Target.station_eq h]
  exact if_pos hr

/-- The two heater zones of a station are named by two targets that halve to it. -/
theorem Target.heater_half {st : StationId} (h : target.toNat / 2 = st.val) :
    ∃ area : Area, target.toNat = 2 * st.val + (if area = .reflector then 0 else 1) := by
  rcases Nat.mod_two_eq_zero_or_one target.toNat with e | e
  · exact ⟨.reflector, by simp; omega⟩
  · exact ⟨.feed, by simp; omega⟩

theorem State.onHeater_retired {st : StationId} (h : target.toNat / 2 = st.val)
    (hr : (s.station st).retired = true) (f : StationId → Area → State → State) :
    s.onHeater page target f = s.answer page .retired [] := by
  obtain ⟨area, e⟩ := Target.heater_half h
  rw [State.onHeater, Target.heater_eq e]
  exact if_pos hr

/-- CLEAR_RETURN and CLEAR_SITE for one station (R188, R189). -/
theorem State.takeClearReturn_one (k : Settle) (h : target ≠ 0xFFFF) :
    s.takeClearReturn k page target = s.onStation page target (fun st s =>
      if (s.station st).hasTag Config.returnId then
        (s.removeTag k st Config.returnId .request).answer page .done []
      else s.answer page .notNow []) :=
  if_neg h

theorem State.takeClearSite_one (k : Settle) (h : target ≠ 0xFFFF) :
    s.takeClearSite k page target = s.onStation page target (fun st s =>
      if s.lines.siteStop then s.answer page .notPermitted []
      else if (s.station st).siteHeld then (s.clearStation k st).answer page .done []
      else s.answer page .notNow []) :=
  if_neg h

theorem Target.ne_all {st : StationId} (h : target.toNat = st.val) : target ≠ 0xFFFF := by
  rintro rfl
  have := st.isLt
  simp at h
  omega

end Checks

/-- The codes that name nothing (R197). -/
theorem Code.letter_none {x : Nat} (h : 2 ≤ x) : Code.letter x = none := by
  obtain ⟨n, rfl⟩ := Nat.exists_eq_add_of_le' h
  rfl

theorem Code.axis_none {x : Nat} (h : 2 ≤ x) : Code.axis x = none := by
  obtain ⟨n, rfl⟩ := Nat.exists_eq_add_of_le' h
  rfl

theorem Code.timeMode_none {x : Nat} (h : 2 ≤ x) : Code.timeMode x = none := by
  obtain ⟨n, rfl⟩ := Nat.exists_eq_add_of_le' h
  rfl

theorem Code.heatMode_none {x : Nat} (h : 3 ≤ x) : Code.heatMode x = none := by
  obtain ⟨n, rfl⟩ := Nat.exists_eq_add_of_le' h
  rfl

theorem Code.startSource_none {x : Nat} (h : 3 ≤ x) : Code.startSource x = none := by
  obtain ⟨n, rfl⟩ := Nat.exists_eq_add_of_le' h
  rfl

theorem Code.tagKind_none {x : Nat} (h : x = 0 ∨ 5 ≤ x) : Code.tagKind x = none := by
  rcases h with rfl | h
  · rfl
  · obtain ⟨n, rfl⟩ := Nat.exists_eq_add_of_le' h
    rfl

theorem Code.scope_none {x : Nat} (h : x = 0 ∨ 5 ≤ x) : Code.scope x = none := by
  rcases h with rfl | h
  · rfl
  · obtain ⟨n, rfl⟩ := Nat.exists_eq_add_of_le' h
    rfl

/-- A tag's kind or its scope is not one of its names (R185). -/
theorem State.takePlaceTag_badValue {s : State} {page : PageId} {target : BitVec 16}
    {st : StationId} {kind scope : BitVec 8} (id : BitVec 16) (h : target.toNat = st.val)
    (hr : (s.station st).retired = false)
    (hk : kind.toNat = 0 ∨ 5 ≤ kind.toNat ∨ scope.toNat = 0 ∨ 5 ≤ scope.toNat) :
    s.takePlaceTag settle page target kind scope id = s.answer page .badValue [] := by
  unfold State.takePlaceTag
  rw [State.onStation_eq h hr]
  by_cases e : kind.toNat = 0 ∨ 5 ≤ kind.toNat
  · exact State.named_none (Code.tagKind_none e) _
  · have e' : Code.scope scope.toNat = none := Code.scope_none (by omega)
    cases hc : Code.tagKind kind.toNat with
    | none => rfl
    | some k => exact (State.named_some rfl _).trans (State.named_none e' _)

/-- Settles O13: each request reaches its checks through `onStation`, `onHeater`, `onZone` or `onTable`, and
then through `named`. -/
theorem checksOfTheTakeAreAnswered : Obligations.ChecksOfTheTakeAreAnswered := by
  refine ⟨fun s page target hf => ?_, fun s page target st hf => ?_⟩
  · intro refused
    refine ⟨fun h => ?_, fun h => ?_, fun h => ?_, fun h => ?_⟩
    · have bad (f) : request s (State.onStation page target f) = _ :=
        request_answer hf (State.onStation_badTarget h f)
      refine ⟨fun _ _ => bad _, bad _, bad _, fun _ => bad _, fun _ => bad _, fun _ _ _ => bad _,
        bad _, fun ha => ⟨?_, ?_⟩⟩
      · exact request_answer hf ((State.takeClearReturn_one settle ha).trans
          (State.onStation_badTarget h _))
      · exact request_answer hf ((State.takeClearSite_one settle ha).trans
          (State.onStation_badTarget h _))
    · have bad (f) : request s (State.onHeater page target f) = _ :=
        request_answer hf (State.onHeater_badTarget h f)
      exact ⟨fun _ => bad _, bad _, bad _, bad _⟩
    · have bad (f) : request s (State.onZone page target f) = _ :=
        request_answer hf (State.onZone_badTarget h f)
      exact ⟨fun _ => bad _, bad _, bad _⟩
    · have bad (f) : request s (State.onTable page target f) = _ :=
        request_answer hf (State.onTable_badTarget h f)
      exact ⟨fun _ _ _ => bad _, bad _⟩
  · intro refused
    refine ⟨fun h => ⟨fun hr => ?_, fun hr => ⟨fun l n hl => ?_, fun a ha => ?_, fun k c n hk => ?_⟩⟩,
      fun h => ⟨fun hr => ?_, fun hr m hm => ?_⟩, fun v m hm => ?_, fun h src a b hs => ?_⟩
    · have bad (f) : request s (State.onStation page target f) = _ :=
        request_answer hf (State.onStation_retired h hr f)
      refine ⟨fun _ _ => bad _, bad _, bad _, fun _ => bad _, fun _ => bad _, fun _ _ _ => bad _,
        ?_, ?_, bad _⟩
      · exact request_answer hf ((State.takeClearReturn_one settle (Target.ne_all h)).trans
          (State.onStation_retired h hr _))
      · exact request_answer hf ((State.takeClearSite_one settle (Target.ne_all h)).trans
          (State.onStation_retired h hr _))
    · exact request_answer hf ((State.onStation_eq h hr _).trans
        (State.named_none (Code.letter_none hl) _))
    · exact request_answer hf ((State.onStation_eq h hr _).trans
        (State.named_none (Code.axis_none ha) _))
    · exact request_answer hf (State.takePlaceTag_badValue n h hr hk)
    · have bad (f) : request s (State.onHeater page target f) = _ :=
        request_answer hf (State.onHeater_retired h hr f)
      exact ⟨fun _ => bad _, bad _, bad _, bad _⟩
    · obtain ⟨area, e⟩ := Target.heater_half h
      exact request_answer hf ((State.onHeater_eq e hr _).trans
        (State.named_none (Code.heatMode_none hm) _))
    · exact request_answer hf (State.named_none (Code.timeMode_none hm) _)
    · exact request_answer hf ((State.onTable_eq (x := ⟨target.toNat, h⟩) rfl _).trans
        (State.named_none (Code.startSource_none hs) _))

end Sys2Proof.Machine
end

section
/-! PROOFS. What a full reset leaves in every block (R16). -/

namespace Sys2Proof.Machine

section AfterReset

variable {p : List Instr} {m : Mem} {f : StationId → Bool × Bool} {a b c : Bool} {n : Nat}

@[simp] theorem State.pending_afterReset : (State.afterReset p m f a b c n).pending = p := rfl

@[simp] theorem State.station_afterReset (st : StationId) :
    (State.afterReset p m f a b c n).station st = Station.afterReset (f st).1 (f st).2 a b :=
  Vector.getElem_ofFn st.isLt

@[simp] theorem State.zone_afterReset (z : ZoneId) : (State.afterReset p m f a b c n).zone z =
    Zone.afterReset (if z.val = 0 then
      State.workingStations (State.afterReset p m f a b c n).stations else []) a :=
  Vector.getElem_ofFn z.isLt

@[simp] theorem State.table_afterReset (t : TableId) :
    (State.afterReset p m f a b c n).table t = SweepTable.reset :=
  Vector.getElem_replicate t.isLt

@[simp] theorem State.tally_afterReset (x : Tally) :
    (State.afterReset p m f a b c n).tally x = 0 :=
  Vector.getElem_replicate _

/-- Memory outside the part's own areas stands at a full reset. -/
theorem State.read_afterReset_apart {i : Nat} (h : ¬ Layout.isOwn i) :
    Memory.read (State.afterReset p m f a b c n).mem i = Memory.read m i := by
  rw [State.mem_afterReset]
  unfold Layout.isOwn at h
  refine (Status.read_writeAll fun r hr => ?_).trans (Memory.read_store_outside ?_)
  · have := State.regions_bound hr
    simp only [Layout.tallies, Layout.tallyArea] at *
    omega
  · simp only [Layout.tallies, Layout.tallyArea, List.length_replicate] at *
    omega

/-- The tally area reads as 0 after a full reset. -/
theorem State.read_afterReset_tallies {i : Nat} (h : Layout.tallies ≤ i)
    (h' : i < Layout.tallies + Layout.tallyArea) :
    Memory.read (State.afterReset p m f a b c n).mem i = 0 := by
  obtain ⟨k, rfl⟩ := Nat.exists_eq_add_of_le h
  have hk : k < (List.replicate Layout.tallyArea (0 : Byte)).length := by
    rw [List.length_replicate]
    omega
  rw [State.mem_afterReset]
  refine (Status.read_writeAll fun r hr => ?_).trans ((Memory.read_store_inside hk).trans ?_)
  · have := State.regions_bound hr
    omega
  · exact List.getElem_replicate hk

/-- The member set of a zone at a full reset (R145). -/
theorem State.members_afterReset (z : ZoneId) (st : StationId) :
    st ∈ ((State.afterReset p m f a b c n).zone z).members ↔
      z = 0 ∧ ((State.afterReset p m f a b c n).station st).retired = false := by
  have hz : z = 0 ↔ z.val = 0 := Fin.ext_iff
  rw [State.zone_afterReset, hz]
  by_cases h : z.val = 0
  · simp only [Zone.afterReset, h, if_true, State.workingStations, List.mem_filter,
      List.mem_finRange, true_and, Bool.not_eq_true']
    rfl
  · simp [Zone.afterReset, h]

end AfterReset

/-- The target record at a full reset (R48). -/
theorem Station.resetTarget_eq (retired siteStow siteStop : Bool) :
    Station.resetTarget retired siteStow siteStop =
      if retired = true ∨ siteStop = true then
        { source := .none, row := 1, stow := none, shed := none }
      else if siteStow then { source := .stow, row := 2, stow := some (0, 90000000), shed := none }
      else { source := .none, row := 3, stow := none, shed := none } := by
  unfold Station.resetTarget
  simp only [Bool.or_eq_true]
  rfl

/-- Settles O3: each block is the one that the reset writes, whatever it found. -/
theorem fullResetRestoresEveryBlock : Obligations.FullResetRestoresEveryBlock := by
  intro siteStow siteStop alarm s
  refine ⟨_, exec_fullReset siteStow siteStop alarm s, State.pending_afterReset, rfl,
    State.tally_afterReset, fun a => State.read_afterReset_tallies, fun r hr => State.bytes_afterReset hr, rfl,
    ⟨rfl, rfl, rfl, rfl⟩, fun a => State.read_afterReset_apart,
    ?_, ?_, ?_, ?_, fun z => ?_,
    fun st => ?_⟩
  · exact ⟨rfl, rfl, rfl, rfl, rfl, rfl, rfl⟩
  · refine ⟨rfl, rfl, rfl, rfl, rfl, rfl⟩
  · refine ⟨rfl, rfl, rfl, rfl, rfl, rfl, rfl⟩
  · exact State.table_afterReset
  · refine ⟨?_, ?_, ?_, ?_, ?_, ?_, ?_, ?_, ?_, ?_, ?_, ?_, ?_, State.members_afterReset z⟩
    all_goals rw [State.zone_afterReset]; rfl
  · rw [State.station_afterReset]
    generalize (s.station st).fuse1 = f1, (s.station st).fuse2 = f2
    refine ⟨rfl, rfl, rfl, rfl, rfl, rfl, rfl, rfl, rfl, rfl, rfl, rfl, rfl, rfl, rfl, rfl, rfl, rfl,
      rfl, rfl, rfl, rfl, fun ax => ?_, Station.resetTarget_eq _ _ _, fun h => ?_, fun h => ?_⟩
    · cases ax <;> exact ⟨⟨rfl, rfl, rfl, rfl, rfl, rfl, rfl, rfl, rfl⟩, rfl, rfl, rfl, rfl, rfl,
        rfl, rfl⟩
    · replace h : (f1 && f2) = true := h
      simp [Station.afterReset, Station.resetTags, Axis.reset, h]
    · replace h : (f1 && f2) = false := h
      simp only [Station.afterReset, Station.resetTags, Axis.reset, h]
      cases siteStop <;> exact ⟨rfl, rfl, rfl⟩

/-! ### The laws at reset -/

/-- No fuse word of a new part is written. -/
theorem State.station_reset (st : StationId) :
    State.reset.station st = Station.afterReset false false false false :=
  State.station_afterReset st

/-- Settles O4. -/
theorem resetKeepsTheLaws : Obligations.ResetKeepsTheLaws := by
  refine ⟨State.wf_afterReset ⟨List.Pairwise.nil, by simp⟩, ⟨List.nodup_nil, Nat.zero_le _⟩,
    ⟨List.nodup_nil, .inl (Nat.zero_le _)⟩, fun st => ?_, fun st z => ?_,
    ⟨fun x y _ h => ?_, fun st h e => ?_⟩, fun st _ => ?_⟩
  · rw [State.station_reset]
    decide
  · refine (State.members_afterReset z st).trans ?_
    rw [and_comm, eq_comm (a := z), State.station_reset, State.station_afterReset]
    rfl
  · rw [State.reset, State.table_afterReset] at h
    cases h
  · rw [State.station_reset] at e
    cases e
  · revert st
    decide +kernel

end Sys2Proof.Machine
end

section
/-! PROOFS. The step of a part with no command waiting: a take, or a millisecond of every timer and the
commands that are then due (R5, R17, R18). -/

namespace Sys2Proof.Machine

/-! ### The commands that are due -/

theorem mem_dueIf {b : Bool} {i j : Instr} : i ∈ (dueIf b j).flatten ↔ b = true ∧ i = j := by
  cases b <;> simp [dueIf]

theorem mem_flatten_placeAt {g : List Instr} {n : Nat} {l : List (List Instr)} {i : Instr} :
    i ∈ (placeAt g n l).flatten ↔ i ∈ g ∨ i ∈ l.flatten := by
  induction n generalizing l with
  | zero => simp [placeAt]
  | succ n ih =>
    cases l with
    | nil => simp [placeAt]
    | cons x l => simp [placeAt, -List.mem_flatten, ih, or_left_comm]

/-- The free order changes none of the commands. -/
theorem mem_flatten_arrange {n : Nat} {l : List (List Instr)} {i : Instr} :
    i ∈ (arrange n l).flatten ↔ i ∈ l.flatten := by
  induction l generalizing n with
  | nil => rfl
  | cons g l ih =>
    cases l with
    | nil => rfl
    | cons x l =>
      rw [arrange, mem_flatten_placeAt, ih, List.flatten_cons (l := g), List.mem_append]
      simp

theorem mem_flatten_flatMap {α : Type} {l : List α} {f : α → List (List Instr)} {i : Instr} :
    i ∈ (l.flatMap f).flatten ↔ ∃ x ∈ l, i ∈ (f x).flatten := by
  induction l with
  | nil => simp
  | cons x l ih =>
    rw [List.flatMap_cons, List.flatten_append, List.mem_append, ih]
    simp only [List.mem_cons, exists_eq_or_imp]

theorem Heater.mem_due {h : Heater} {st : StationId} {area : Area} {i : Instr} :
    i ∈ (h.due st area).flatten ↔
      (Timer.out h.probeWindow = true ∧ i = .probeWindowExpiry st area) ∨
      (Timer.out h.energize = true ∧ i = .energizeWindowExpiry st area) ∨
      (Timer.out h.overload = true ∧ i = .overloadExpiry st area) ∨
      (Timer.out h.openElement = true ∧ i = .openElementExpiry st area) ∨
      (Timer.out h.cooldown = true ∧ i = .cooldownExpiry st area) ∨
      (Timer.out h.meltOff = true ∧ i = .meltOffExpiry st area) ∨
      (area = .reflector ∧ Timer.out h.onRun = true ∧ i = .onRunExpiry st) := by
  cases area <;>
    simp [Heater.due, List.flatten_append, mem_dueIf, -List.mem_flatten]

theorem Station.mem_due {x : Station} {st : StationId} {i : Instr} :
    i ∈ (x.due st).flatten ↔
      (∃ ax, Timer.out (x.axis ax).holdIdle = true ∧ i = .holdIdleExpiry st ax) ∨
      (Timer.out x.progress.timer = true ∧ i = .settleTimeout st) ∨
      ((∃ v, x.validation = some v ∧ Timer.out v.timer = true) ∧ i = .validationCompletion) ∨
      ∃ area, i ∈ ((x.heater area).due st area).flatten := by
  have axes {P : AxisId → Prop} : (∃ ax, P ax) ↔ P .az ∨ P .el :=
    ⟨fun ⟨ax, h⟩ => by cases ax <;> simp [h], fun h => h.elim (⟨_, ·⟩) (⟨_, ·⟩)⟩
  have areas {P : Area → Prop} : (∃ a, P a) ↔ P .reflector ∨ P .feed :=
    ⟨fun ⟨a, h⟩ => by cases a <;> simp [h], fun h => h.elim (⟨_, ·⟩) (⟨_, ·⟩)⟩
  rw [axes, areas, ← Option.any_eq_true]
  simp only [Station.due, List.flatten_append, List.mem_append, mem_dueIf, or_assoc]
  rfl

theorem Zone.mem_due {x : Zone} {z : ZoneId} {i : Instr} :
    i ∈ (x.due z).flatten ↔ (Timer.out x.blindTimer = true ∧ i = .blindTimerExpiry z) ∨
      (Timer.out x.deadline = true ∧ i = .stowDeadlineExpiry z) ∨
      (Timer.out x.holdTimer = true ∧ i = .returnHoldExpiry z) := by
  simp only [Zone.due, List.flatten_append, List.mem_append, mem_dueIf, or_assoc]

theorem State.mem_due {s : State} {i : Instr} : i ∈ s.due.flatten ↔
    (s.time.drive = 0 ∧ i = .driveIntervalExpiry) ∨ (s.sensing.timer = 0 ∧ i = .passBoundary) ∨
    (Timer.out s.time.watch = true ∧ i = .pulseWatchExpiry) ∨
    (∃ x, Timer.out (s.table x).strobe = true ∧ i = .strobeTimeout x) ∨
    (Config.slotQuarters ≤ s.panelLine.elapsed ∧ (i = .panelSlotEnd ∨ i = .panelPoll)) ∨
    (∃ z, i ∈ ((s.zone z).due z).flatten) ∨ ∃ st, i ∈ ((s.station st).due st).flatten := by
  have slot : i ∈ (if Config.slotQuarters ≤ s.panelLine.elapsed then
      [[Instr.panelSlotEnd, .panelPoll]] else []).flatten ↔
      Config.slotQuarters ≤ s.panelLine.elapsed ∧ (i = .panelSlotEnd ∨ i = .panelPoll) := by
    split <;> simp [*]
  rw [Fin.exists_fin_two]
  simp only [State.due, List.flatten_append, List.mem_append, mem_dueIf, slot, mem_flatten_flatMap,
    beq_iff_eq, or_assoc, allZones, allStations, List.mem_finRange, true_and]

/-! ### One millisecond -/

/-- A timer that counts runs out from 1, or stands at 0. -/
theorem Timer.out_tick {t : Timer} : Timer.out (Timer.tick t) = true ↔ ∃ n ≤ 1, t = some n := by
  cases t with
  | none => simp [Timer.out, Timer.tick]
  | some n => simp [Timer.out, Timer.tick, Nat.sub_eq_zero_iff_le]

@[simp] theorem State.station_tick (s : State) (st : StationId) :
    s.tick.station st = (s.station st).tick :=
  Vector.getElem_ofFn st.isLt

@[simp] theorem State.zone_tick (s : State) (z : ZoneId) : s.tick.zone z = (s.zone z).tick :=
  Vector.getElem_ofFn z.isLt

@[simp] theorem State.table_tick (s : State) (t : TableId) :
    s.tick.table t = { s.table t with strobe := Timer.tick (s.table t).strobe } :=
  Vector.getElem_ofFn t.isLt

@[simp] theorem Station.axis_tick (x : Station) (ax : AxisId) : x.tick.axis ax = (x.axis ax).tick := by
  cases ax <;> rfl

@[simp] theorem Station.heater_tick (x : Station) (a : Area) :
    x.tick.heater a = (x.heater a).tick := by
  cases a <;> rfl

/-- A station's validation completes where its timer has run out. -/
theorem Station.validation_tick {x : Station} :
    (∃ v, x.tick.validation = some v ∧ Timer.out v.timer = true) ↔
      ∃ v, x.validation = some v ∧ ∃ n ≤ 1, v.timer = some n := by
  cases h : x.validation with
  | none => simp [Station.tick, h]
  | some v => simp [Station.tick, h, Timer.out_tick]

/-- The commands that wait after a millisecond are those then due. -/
theorem State.mem_pending_millisecond {s : State} (h : s.pending = []) {i : Instr} :
    i ∈ s.millisecond.pending ↔ i ∈ s.tick.due.flatten := by
  have e : s.millisecond.pending = s.pending ++ (arrange s.freeCount s.tick.due).flatten := rfl
  rw [e, h, List.nil_append, mem_flatten_arrange]

/-- The step of a part with no command waiting. -/
theorem step_idle {s : State} (h : s.pending = []) : step s = s.idle := by
  unfold step
  rw [h]

theorem State.read_millisecond (s : State) {a : Nat} (h : ¬ Layout.isStatus a) :
    Memory.read s.millisecond.mem a = Memory.read s.mem a :=
  State.read_publish (s := s) (t := s.tick) h

/-- Settles O2. -/
theorem idleStepTakesOrCountsMillisecond : Obligations.IdleStepTakesOrCountsMillisecond := by
  refine fun s hs => ⟨fun h => (step_idle hs).trans (if_pos h), fun h =>
    ⟨s.millisecond, (step_idle hs).trans (if_neg (by simp [h])), ?_⟩⟩
  intro down heater out
  have due (i) := State.mem_pending_millisecond hs (i := i)
  simp only [State.mem_due, Zone.mem_due, Station.mem_due, Heater.mem_due] at due
  have drive : s.tick.time.drive = 0 ↔ s.time.drive ≤ 1 := Nat.sub_eq_zero_iff_le
  have pass : s.tick.sensing.timer = 0 ↔ s.sensing.timer ≤ 1 := Nat.sub_eq_zero_iff_le
  have watch : Timer.out s.tick.time.watch = true ↔ out s.time.watch := Timer.out_tick
  have slot : Config.slotQuarters ≤ s.tick.panelLine.elapsed ↔ 125 ≤ s.panelLine.elapsed + 4 := .rfl
  refine ⟨⟨rfl, rfl, rfl, rfl, rfl, rfl⟩, millisecond_rewritten s, fun a => s.read_millisecond, rfl, rfl,
    rfl, s.table_tick, s.zone_tick, s.station_tick, ?_⟩
  refine ⟨?_, ?_, ?_, ?_, ?_, fun x => ?_, fun z => ⟨?_, ?_, ?_⟩, ?_, fun st => ⟨?_, ?_, fun ax => ?_,
    fun area => ⟨?_, ?_, ?_, ?_, ?_, ?_⟩⟩⟩
  · simp [due, drive]
  · simp [due, pass]
  · simp [due, watch]
  · simp [due, slot]
  · simp [due, slot]
  · simp [due, Timer.out_tick, out]
  · simp [due, Zone.tick, Timer.out_tick, out]
  · simp [due, Zone.tick, Timer.out_tick, out]
  · simp [due, Zone.tick, Timer.out_tick, out]
  · simp [due, Station.validation_tick, out]
  · simp [due, Station.tick, Timer.out_tick, out]
  · change _ ↔ out ((s.station st).heater .reflector).onRun
    simp [due, Heater.tick, Timer.out_tick, out]
  · simp [due, Axis.tick, Timer.out_tick, out]
  all_goals simp [due, Heater.tick, Timer.out_tick, out]

end Sys2Proof.Machine
end

section
/-! PROOFS. Where no table runs, settling starts none, ends none and leaves every hold and every progress
record as it is (R111, R116, R120, R121): a station is abandoned only by the table that runs. `Unswept` says so
of two states. -/

namespace Sys2Proof.Machine

/-- No table is RUNNING or SETTLING. -/
def State.noneRuns (s : State) : Prop := ∀ x : TableId, (s.table x).state.runs = false

/-- What concerns sweeps stands: the tables, the holds, the progress records and SWEEP_ENDS. -/
structure SweepsStand (s t : State) : Prop where
  table : ∀ x, t.table x = s.table x
  hold : ∀ st, (t.station st).hold = (s.station st).hold
  progress : ∀ st, (t.station st).progress = (s.station st).progress
  ends : t.tally .sweepEnds = s.tally .sweepEnds

/-- What concerns sweeps stands where no table runs. -/
structure Unswept (s t : State) : Prop where
  stands : s.noneRuns → SweepsStand s t

variable {k : Settle}

namespace Unswept

theorem refl (s : State) : Unswept s s := ⟨fun _ => ⟨fun _ => rfl, fun _ => rfl, fun _ => rfl, rfl⟩⟩

theorem after {s t u : State} (k : Unswept t u) (h : Unswept s t) : Unswept s u := by
  refine ⟨fun n => ?_⟩
  obtain ⟨table, hold, progress, ends⟩ := h.stands n
  have n' : t.noneRuns := fun x => by rw [table]; exact n x
  obtain ⟨table', hold', progress', ends'⟩ := k.stands n'
  exact ⟨fun x => (table' x).trans (table x), fun st => (hold' st).trans (hold st),
    fun st => (progress' st).trans (progress st), ends'.trans ends⟩

theorem ite {c : Prop} [Decidable c] {s t u : State} (h : Unswept s t) (k : Unswept s u) :
    Unswept s (if c then t else u) := by
  split
  · exact h
  · exact k

/-- A change of what does not concern sweeps. -/
theorem same {s t : State} (hs : t.stations = s.stations) (ht : t.tables = s.tables)
    (he : t.tally .sweepEnds = s.tally .sweepEnds) : Unswept s t :=
  ⟨fun _ => ⟨State.table_congr ht, fun st => by rw [State.station_congr hs],
    fun st => by rw [State.station_congr hs], he⟩⟩

/-- A change of one station but for its hold and its record. -/
theorem modStation {s : State} {st : StationId} {f : Station → Station}
    (q : StationQuiet (s.station st) (f (s.station st))) : Unswept s (s.modStation st f) := by
  have same (x) : ((s.modStation st f).station x).hold = (s.station x).hold ∧
      ((s.modStation st f).station x).progress = (s.station x).progress := by
    rw [State.station_modStation]
    split
    · rename_i e
      subst e
      exact ⟨q.hold, q.progress⟩
    · exact ⟨rfl, rfl⟩
  exact ⟨fun _ => ⟨fun _ => rfl, fun x => (same x).1, fun x => (same x).2, rfl⟩⟩

theorem bump (x : Tally) (h : x ≠ .sweepEnds) (s : State) : Unswept s (s.bump x) :=
  .same rfl rfl (by rw [State.tally_bump, if_neg h])

theorem eachOf {α : Type} {f : α → State → State} (l : List α) (h : ∀ a s, Unswept s (f a s))
    (s : State) : Unswept s (eachOf l f s) := by
  induction l generalizing s with
  | nil => exact .refl s
  | cons a l ih => exact (ih _).after (h a s)

theorem modZone (z : ZoneId) (f : Zone → Zone) (s : State) : Unswept s (s.modZone z f) :=
  .same rfl rfl rfl

/-- The mark of the zone whose entry is under way. -/
theorem entering (z : Option ZoneId) {s t : State} (h : Unswept s t) :
    Unswept s { t with entering := z } :=
  (same (s := t) (t := { t with entering := z }) rfl rfl rfl).after h

section

variable (hk : ∀ s, Unswept s (k s))
include hk

/-! ### Claims, sources and shed orders -/

theorem settle_leave (w : Work) (s : State) : Unswept s (k (s.leave w)) :=
  (hk _).after (.same rfl rfl rfl)

theorem formClaim (st : StationId) (s : State) : Unswept s (s.formClaim k st) := by
  have h : Unswept s (s.modStation st Station.reform) := modStation ⟨rfl, rfl, rfl, rfl, rfl⟩
  unfold State.formClaim
  exact .ite h ((settle_leave hk _ _).after h)

theorem changeAxes {st : StationId} {f : Station → Station} {s : State}
    (q : StationQuiet (s.station st) (f (s.station st))) : Unswept s (s.changeAxes k st f) := by
  have h := (formClaim hk st _).after (modStation q)
  unfold State.changeAxes
  exact .ite ((settle_leave hk _ _).after h) h

theorem decideSource (st : StationId) (s : State) : Unswept s (s.decideSource k st) := by
  unfold State.decideSource
  exact .ite (.refl s) (changeAxes hk (.answerSource _ _ _ _))

theorem judgeShed (st : StationId) (s : State) : Unswept s (s.judgeShed k st) := by
  unfold State.judgeShed
  exact .ite (.refl s) (.ite (.after (decideSource hk st _) (modStation ⟨rfl, rfl, rfl, rfl, rfl⟩))
    (.after (decideSource hk st _) (modStation ⟨rfl, rfl, rfl, rfl, rfl⟩)))

theorem inputChanged (st : StationId) (s : State) : Unswept s (s.inputChanged k st) :=
  (judgeShed hk st _).after (decideSource hk st s)

/-! ### Heater zones -/

theorem changeHeater (st : StationId) (area : Area) (f : Heater → Heater) (s : State) :
    Unswept s (s.changeHeater k st area f) := by
  unfold State.changeHeater
  dsimp only
  generalize hu : (s.modHeater st area f).modStation st _ = u
  have h : Unswept s u := hu ▸ .after (modStation ⟨rfl, rfl, rfl, rfl, rfl⟩)
    (modStation (by cases area <;> exact ⟨rfl, rfl, rfl, rfl, rfl⟩))
  have claims (b c : Bool) (cls : Option HeatClass) : Unswept u
      (if b then k (u.leave (.heatWithdraw st area))
        else match cls with
          | some cls => if c then k (u.leave (.heat st area cls.watts)) else u
          | none => u) := by
    refine .ite (settle_leave hk _ u) ?_
    split
    · exact .ite (settle_leave hk _ u) (.refl u)
    · exact .refl u
  exact .ite (.after (judgeShed hk st _) (.after (claims ..) h)) (.after (claims ..) h)

theorem heatGrant (st : StationId) (area : Area) (watts : Nat) (s : State) :
    Unswept s (s.heatGrant k st area watts) := by
  unfold State.heatGrant
  split
  · exact .ite (.refl s) (changeHeater hk ..)
  · exact .ite (.refl s) (changeHeater hk ..)
  · exact .ite (changeHeater hk ..) (.refl s)
  · exact .ite (changeHeater hk ..) (.refl s)
  all_goals exact .ite (.refl s) (settle_leave hk _ s)

/-! ### Abandonment and wind zones -/

omit hk in
/-- No station is abandoned where no table runs (R120). -/
theorem abandon (st : StationId) (r : SweepReason) (s : State) : Unswept s (s.abandon k st r) := by
  refine ⟨fun n => ?_⟩
  have e : s.abandon k st r = s := by
    unfold State.abandon
    dsimp only
    split
    · rfl
    · rw [n, Bool.and_false]
      rfl
  rw [e]
  exact (refl s).stands n

omit hk in
theorem expose (st : StationId) (r : ExposeReason) (s : State) : Unswept s (s.expose st r) :=
  .ite (modZone _ _ s) (.refl s)

omit hk in
theorem exposeBlocked (st : StationId) (s : State) : Unswept s (s.exposeBlocked st) :=
  .ite (expose ..) (.ite (expose ..) (.refl s))

omit hk in
theorem zoneEvent (z : ZoneId) (left : ZoneState) (s : State) : Unswept s (s.zoneEvent z left) := by
  unfold State.zoneEvent
  exact .after (bump _ (by simp) _) (modZone _ _ s)

theorem judgeMembers (z : ZoneId) (s : State) : Unswept s (s.judgeMembers k z) :=
  eachOf _ (judgeShed hk) s

theorem moveZone (z : ZoneId) (to_ : ZoneState) (f : Zone → Zone) (s : State) :
    Unswept s (s.moveZone k z to_ f) := by
  unfold State.moveZone
  exact .after (judgeMembers hk ..) (.after (zoneEvent ..) (modZone ..))

theorem stowedTest (z : ZoneId) (s : State) : Unswept s (s.stowedTest k z) :=
  .ite (moveZone hk z .stowed _ s) (.refl s)

theorem stowMember (st : StationId) (s : State) : Unswept s (s.stowMember k st) := by
  unfold State.stowMember
  exact .after (exposeBlocked ..) (.after (formClaim hk ..) (.after (decideSource hk ..)
    (.after (modStation ⟨rfl, rfl, rfl, rfl, rfl⟩) (abandon ..))))

theorem enterStowing (z : ZoneId) (s : State) : Unswept s (s.enterStowing k z) := by
  unfold State.enterStowing
  dsimp only
  exact .after (stowedTest hk ..) (.entering _ (.after (judgeMembers hk ..)
    (.after (zoneEvent ..) (.after (eachOf _ (stowMember hk) _)
      (.after (modZone ..) (.entering (some z) (.refl s)))))))

theorem testZone (z : ZoneId) (s : State) : Unswept s (s.testZone k z) :=
  .ite (enterStowing hk z s) (stowedTest hk z s)

theorem axesChanged (st : StationId) (s : State) : Unswept s (s.axesChanged k st) := by
  unfold State.axesChanged
  exact .after (testZone hk ..) (.ite (modZone ..) (.refl s))

theorem joinExposed (st : StationId) (r : ExposeReason) (s : State) :
    Unswept s (s.joinExposed k st r) := by
  unfold State.joinExposed
  exact .ite (.after (testZone hk ..) (expose ..)) (.refl s)

/-! ### Faults and grants -/

omit hk in
theorem modAxis (st : StationId) (ax : AxisId) (f : Axis → Axis) (s : State) :
    Unswept s (s.modAxis st ax f) :=
  modStation (.modAxis _ _ _)

theorem faultAxis (st : StationId) (ax : AxisId) (r : AxisFault) (s : State) :
    Unswept s (s.faultAxis k st ax r) := by
  unfold State.faultAxis State.afterFault
  exact .after (joinExposed hk ..) (.after (abandon ..) (.after (bump _ (by simp) _)
    (.after (formClaim hk ..) (modAxis ..))))

theorem releaseAxis (st : StationId) (ax : AxisId) (s : State) :
    Unswept s (s.releaseAxis k st ax) := by
  unfold State.releaseAxis
  dsimp only
  split
  · exact .ite (modAxis ..) (faultAxis hk ..)
  · exact .refl s

theorem judgeAwaiting (st : StationId) (s : State) : Unswept s (s.judgeAwaiting k st) := by
  unfold State.judgeAwaiting
  exact .ite (.after (formClaim hk ..) (.after (releaseAxis hk ..) (releaseAxis hk ..))) (.refl s)

omit hk in
theorem answerLevel (st : StationId) (rises : Bool) (s : State) :
    Unswept s (s.modStation st (Station.answerLevel rises)) :=
  modStation ⟨rfl, rfl, rfl, rfl, rfl⟩

theorem driveGrant (st : StationId) (watts : Nat) (s : State) :
    Unswept s (s.driveGrant k st watts) := by
  unfold State.driveGrant
  dsimp only
  have h : Unswept s (s.modStation st (Station.takeGrant watts)) :=
    modStation ⟨rfl, rfl, rfl, rfl, rfl⟩
  refine .after ?_ h
  generalize s.modStation st (Station.takeGrant watts) = u
  refine .ite ?_ (.ite (.ite ?_ ?_) (.refl u))
  · exact .after (formClaim hk ..) (.after (judgeAwaiting hk ..) (answerLevel ..))
  · refine .after (axesChanged hk ..) (changeAxes hk (.trans ?_ (.examineBoth _)))
    exact ⟨rfl, rfl, rfl, rfl, rfl⟩
  · exact .after (formClaim hk ..) (answerLevel ..)

theorem report (c : Claimant) (s : State) : Unswept s (s.report k c) := by
  cases c with
  | station => exact driveGrant hk ..
  | heater => exact heatGrant hk ..

end

/-! ### Settling -/

theorem powerChange (w : Work) (s : State) : Unswept s (s.powerChange w).1 := by
  have bumps (l : List Tally) (h : ∀ t ∈ l, t = .sheds ∨ t = .revocations) (u : State) :
      Unswept u (l.foldl State.bump u) := by
    induction l generalizing u with
    | nil => exact .refl u
    | cons t l ih =>
      refine .after (ih (fun x hx => h x (by simp [hx])) _) (bump t ?_ u)
      rcases h t (by simp) with rfl | rfl <;> simp
  exact .after (bumps _ ((s.power.change_kept s.now w).1.tallies (by simp)) _) (.same rfl rfl rfl)

theorem later (s : State) : Unswept s (Settle.later s) := .refl s

theorem deliver (w : Work) (s : State) : Unswept s (State.deliver w s) := by
  cases w with
  | awaiting st => exact judgeAwaiting later st s
  | _ => exact .after (eachOf _ (report later) _) (powerChange _ s)

theorem settle (s : State) : Unswept s (settle s) := by
  have drain (n : Nat) (s : State) : Unswept s (State.drain n s) := by
    induction n generalizing s with
    | zero => exact .refl s
    | succ n ih =>
      unfold State.drain
      split
      · exact .refl s
      · exact .after (ih _) (.after (deliver ..) (.same rfl rfl rfl))
  exact drain _ s

end Unswept

end Sys2Proof.Machine
end

section
/-! PROOFS. The cancellation of a table, and an exchange reset (R10, R15, R116, R122, R123). -/

namespace Sys2Proof.Machine

variable {k : Settle}

/-! ### The release of a table (R122) -/

/-- The holds of a table's run cleared, S0 first. -/
def State.releaseHolds (k : Settle) (x : TableId) (s : State) : State :=
  eachOf allStations (fun st s =>
    if (s.station st).hold.any (fun h => h.table == x) then s.setHold k st none else s) s

/-- The settle timer of a record of a table's run stopped. -/
def Progress.stop (x : TableId) (p : Progress) : Progress :=
  if p.table = some x then { p with timer := none } else p

/-- The settle timers of a table's run stopped. -/
def State.stopTimers (x : TableId) (s : State) : State :=
  eachOf allStations (fun st s => s.modProgress st (Progress.stop x)) s

theorem State.releaseTable_eq (x : TableId) (s : State) :
    s.releaseTable k x = (s.releaseHolds k x).stopTimers x := rfl

theorem eachOf_id {α : Type} {f : α → State → State} {s : State} (l : List α)
    (h : ∀ a, f a s = s) : eachOf l f s = s := by
  induction l with
  | nil => rfl
  | cons a l ih => rw [eachOf_cons, h, ih]

/-- One change of every station. -/
theorem State.station_eachOf_modStation {l : List StationId} (hl : l.Nodup) (f : Station → Station)
    (s : State) (st : StationId) : (eachOf l (fun a s => s.modStation a f) s).station st =
      if st ∈ l then f (s.station st) else s.station st := by
  induction l generalizing s with
  | nil => rfl
  | cons a l ih =>
    obtain ⟨ha, hl⟩ := List.nodup_cons.1 hl
    rw [eachOf_cons, ih hl, State.station_modStation]
    by_cases e : a = st
    · subst e
      simp [ha]
    · simp [e, Ne.symm e]

theorem State.station_stopTimers (x : TableId) (s : State) (st : StationId) :
    (s.stopTimers x).station st =
      { s.station st with progress := (s.station st).progress.stop x } :=
  (State.station_eachOf_modStation (List.nodup_finRange 16) _ s st).trans
    (if_pos (List.mem_finRange st))

/-- Stopping timers changes the stations alone. -/
theorem State.stopTimers_eq (x : TableId) (s : State) :
    ∃ v, s.stopTimers x = { s with stations := v } := by
  unfold State.stopTimers
  generalize allStations = l
  induction l generalizing s with
  | nil => exact ⟨_, rfl⟩
  | cons a l ih =>
    obtain ⟨v, h⟩ := ih (s.modProgress a _)
    exact ⟨v, h⟩

/-- With no hold of the table, none is released. -/
theorem State.releaseHolds_none {x : TableId} {s : State}
    (h : ∀ st, (s.station st).hold.any (fun h => h.table == x) = false) :
    s.releaseHolds k x = s :=
  eachOf_id _ fun st => if_neg (by rw [h]; decide)

/-- What the release of a table's holds leaves. -/
structure Released (x : TableId) (s t : State) : Prop where
  table : ∀ y, t.table y = s.table y
  hold : ∀ st, (t.station st).hold =
    if (s.station st).hold.any (fun h => h.table == x) then none else (s.station st).hold
  progress : ∀ st, (t.station st).progress = (s.station st).progress
  ends : t.tally .sweepEnds = s.tally .sweepEnds

/-- The hold of one station cleared where no table runs. -/
theorem SweepsStand.setHold {s : State} (n : s.noneRuns) (st : StationId) :
    SweepsStand (s.modStation st (fun x => { x with hold := none })) (s.setHold settle st none) :=
  (Unswept.inputChanged Unswept.settle st _).stands n

/-- Where no table runs, the holds of a table alone are cleared. -/
theorem State.released_of_noneRuns {x : TableId} {s : State} (n : s.noneRuns) :
    Released x s (s.releaseHolds settle x) := by
  have go (l : List StationId) (hl : l.Nodup) (s : State) (n : s.noneRuns) :
      let t := eachOf l (fun st s => if (s.station st).hold.any (fun h => h.table == x) then
        s.setHold settle st none else s) s
      (∀ y, t.table y = s.table y) ∧ (∀ st, (t.station st).hold =
        if st ∈ l ∧ (s.station st).hold.any (fun h => h.table == x) then none
        else (s.station st).hold) ∧
      (∀ st, (t.station st).progress = (s.station st).progress) ∧
      t.tally .sweepEnds = s.tally .sweepEnds := by
    induction l generalizing s with
    | nil => simp
    | cons a l ih =>
      obtain ⟨ha, hl⟩ := List.nodup_cons.1 hl
      simp only [eachOf_cons]
      by_cases c : (s.station a).hold.any (fun h => h.table == x) = true
      · obtain ⟨table, hold, progress, ends⟩ := SweepsStand.setHold n a
        rw [if_pos c]
        generalize s.setHold settle a none = u at *
        obtain ⟨table', hold', progress', ends'⟩ := ih hl u fun y => by rw [table]; exact n y
        refine ⟨fun y => (table' y).trans (table y), fun st => ?_, fun st => ?_, ends'.trans ends⟩
        · rw [hold', hold, State.station_modStation]
          by_cases e : a = st
          · subst e
            simp [c]
          · simp [e, Ne.symm e]
        · rw [progress', progress, State.station_modStation]
          split
          · rename_i e
            rw [e]
          · rfl
      · rw [if_neg c]
        obtain ⟨table, hold, progress, ends⟩ := ih hl s n
        refine ⟨table, fun st => ?_, progress, ends⟩
        rw [hold]
        by_cases e : st = a
        · subst e
          simp [ha, c]
        · simp [e]
  obtain ⟨table, hold, progress, ends⟩ := go allStations (List.nodup_finRange 16) s n
  exact ⟨table, fun st => (hold st).trans (by simp [allStations]), progress, ends⟩

/-- Released where there is nothing to release. -/
theorem State.released_of_none {x : TableId} {s : State}
    (h : ∀ st, (s.station st).hold.any (fun h => h.table == x) = false) :
    Released x s (s.releaseHolds settle x) := by
  rw [State.releaseHolds_none h]
  exact ⟨fun _ => rfl, fun st => by rw [h]; rfl, fun _ => rfl, rfl⟩

/-! ### The cancellation of a table (R122) -/

theorem TableState.cancellable_iff {x : TableState} :
    x.cancellable = true ↔ x = .armed ∨ x = .running ∨ x = .settling := by
  cases x <;> simp [TableState.cancellable]

/-- A cancellation that lets no late start follow is the end of the table. -/
theorem State.cancelTable_alone (x : TableId) (s : State) :
    s.cancelTable k x false = s.closeTable k x .cancelled .cancelled := by
  unfold State.cancelTable
  exact if_neg (by simp)

theorem State.resetTable_kept {E : TableId → Prop} {x : TableId} (hE : E x) (s : State) :
    Kept E False s (s.resetTable settle x) := by
  unfold State.resetTable
  split
  · rw [State.cancelTable_alone]
    exact .closeTable (state := .cancelled) (fun s => (Kept.settle s).weaken) hE (by decide) _ s
  · exact .refl s

/-- What the cancellation of a table, if it is in use, leaves of the sweeps. -/
structure Cancelled (x : TableId) (s t : State) : Prop where
  used : (s.table x).state.cancellable = true → (t.table x).state = .cancelled ∧
    (t.table x).strobe = none ∧ (t.table x).startDue = false ∧
    (t.table x).ended = some (.cancelled, s.time.time)
  unused : (s.table x).state.cancellable = false → t.table x = s.table x
  other : ∀ y, y ≠ x → t.table y = s.table y
  hold : ∀ st, (t.station st).hold =
    if (s.station st).hold.any (fun h => h.table == x) then none else (s.station st).hold
  progress : ∀ st, (t.station st).progress =
    if (s.table x).state.cancellable then (s.station st).progress.stop x
    else (s.station st).progress
  ends : t.tally .sweepEnds = s.tally .sweepEnds +
    if (s.table x).state.cancellable then 1 else 0

/-- The table as the release of its run finds it. -/
def SweepTable.cancel (x : SweepTable) : SweepTable :=
  { x with state := .cancelled, strobe := none, startDue := false }

/-- Where one table runs at most and only it holds stations, the release finds no table that runs, or no
hold. -/
theorem State.released_of_sweeps {x : TableId} {s : State} (h : Law.sweeps s) :
    Released x (s.modTable x SweepTable.cancel)
      ((s.modTable x SweepTable.cancel).releaseHolds settle x) := by
  cases hr : (s.table x).state.runs with
  | true =>
    refine State.released_of_noneRuns fun y => ?_
    rw [State.table_modTable]
    split
    · rfl
    · rename_i e
      exact h.1 x y e hr
  | false =>
    refine State.released_of_none fun st => ?_
    rw [State.station_modTable, Option.any_eq_false_iff_get]
    intro c
    have := h.2 st _ (Option.some_get c).symm
    rw [beq_eq_false_iff_ne]
    intro e
    rw [e, hr] at this
    cases this

/-- The end of a table that is cancelled: its release, its end record, its count (R122, R124). -/
theorem State.closeTable_eq (x : TableId) (s : State) :
    s.closeTable k x .cancelled .cancelled =
      (((s.modTable x SweepTable.cancel).releaseTable k x).modTable x (fun t => { t with
        ended := some (.cancelled, ((s.modTable x SweepTable.cancel).releaseTable k x).now) })).bump
          .sweepEnds := rfl

theorem State.cancelled_closeTable {x : TableId} {s : State} (h : Law.sweeps s)
    (hc : (s.table x).state.cancellable = true) :
    Cancelled x s (s.closeTable settle x .cancelled .cancelled) := by
  obtain ⟨table, hold, progress, ends⟩ := State.released_of_sweeps (x := x) h
  have now : ((s.modTable x SweepTable.cancel).releaseTable settle x).now = s.time.time :=
    congrArg TimeUnit.time
      (Kept.releaseTable (E := fun _ => False) (fun s => (Kept.settle s).weaken) x _).time
  rw [State.closeTable_eq, now, State.releaseTable_eq]
  generalize (s.modTable x SweepTable.cancel).releaseHolds settle x = u at *
  obtain ⟨v, hv⟩ := State.stopTimers_eq x u
  have stops := State.station_stopTimers x u
  have table' (y) : (u.stopTimers x).table y = u.table y := by rw [hv]; rfl
  have ends' : (u.stopTimers x).tally .sweepEnds = u.tally .sweepEnds := by rw [hv]; rfl
  refine ⟨fun _ => ?_, fun e => ?_, fun y e => ?_, fun st => ?_, fun st => ?_, ?_⟩
  · rw [State.table_bump, State.table_modTable, if_pos rfl, table', table, State.table_modTable,
      if_pos rfl]
    exact ⟨rfl, rfl, rfl, rfl⟩
  · rw [hc] at e
    cases e
  · rw [State.table_bump, State.table_modTable, if_neg e.symm, table', table, State.table_modTable,
      if_neg e.symm]
  · rw [State.station_bump, State.station_modTable, stops]
    exact hold st
  · rw [State.station_bump, State.station_modTable, stops, if_pos hc]
    exact congrArg (Progress.stop x) (progress st)
  · rw [State.tally_bump, if_pos rfl, State.tally_modTable, ends', ends, if_pos hc]
    rfl

/-- A table that does not run holds no station. -/
theorem State.not_held {x : TableId} {s : State} (h : Law.sweeps s)
    (hr : (s.table x).state.runs = false) (st : StationId) :
    (s.station st).hold.any (fun h => h.table == x) = false := by
  rw [Option.any_eq_false_iff_get]
  intro c
  have held := h.2 st _ (Option.some_get c).symm
  rw [beq_eq_false_iff_ne]
  intro e
  rw [e, hr] at held
  cases held

theorem TableState.not_runs {x : TableState} (h : x.cancellable = false) : x.runs = false := by
  cases x with
  | idle | armed | done | cancelled | expired => rfl
  | running | settling => cases h

theorem State.cancelled_resetTable (x : TableId) {s : State} (h : Law.sweeps s) :
    Cancelled x s (s.resetTable settle x) := by
  unfold State.resetTable
  cases hc : (s.table x).state.cancellable with
  | false =>
    have held := State.not_held h (TableState.not_runs hc)
    rw [if_neg (by decide)]
    exact ⟨fun e => by simp [hc] at e, fun _ => rfl, fun _ _ => rfl,
      fun st => by rw [held]; rfl, fun st => by simp [hc], by simp [hc]⟩
  | true =>
    rw [if_pos rfl, State.cancelTable_alone]
    exact State.cancelled_closeTable h hc

/-- The cancellation of a table keeps the law of sweeps. -/
theorem Cancelled.sweeps {x : TableId} {s t : State} (c : Cancelled x s t) (h : Law.sweeps s) :
    Law.sweeps t := by
  have runs (y : TableId) : (t.table y).state.runs = true →
      y ≠ x ∧ (s.table y).state.runs = true := by
    by_cases e : y = x
    · subst e
      cases hc : (s.table y).state.cancellable with
      | true =>
        rw [(c.used hc).1]
        rintro ⟨⟩
      | false =>
        rw [c.unused hc, TableState.not_runs hc]
        rintro ⟨⟩
    · rw [c.other y e]
      exact fun r => ⟨e, r⟩
  refine ⟨fun y z hyz ry => ?_, fun st g e => ?_⟩
  · rw [← Bool.not_eq_true]
    intro rz
    have := h.1 y z hyz (runs y ry).2
    rw [(runs z rz).2] at this
    cases this
  · rw [c.hold] at e
    split at e
    · cases e
    · rename_i n
      have hg : g.table ≠ x := fun e' => n (by rw [e]; simp [e'])
      rw [c.other _ hg]
      exact h.2 st g e

/-! ### An exchange reset (R10, R15, R123) -/

/-- The state with the work of the request in flight dropped (R10). -/
def State.dropped (s : State) : State :=
  match s.exchange.inFlight with
  | none => s
  | some { page := _, request := .armBook st } =>
    s.modStation st (fun x => { x with validation := none })
  | some { page := _, request := .configureSensing } =>
    s.modSensing (fun w => { w with pendingCount := none })

/-- The state in which an exchange reset cancels the tables (R10, R15): the request in flight abandoned, the
queue empty and the latch cleared. -/
def State.cleared (enable : Bool) (s : State) : State :=
  { s.dropped with exchange := { s.exchange with
      queue := [], inFlight := none, summary := 0, intEnable := enable } }

theorem State.exchangeReset_eq (enable : Bool) (s : State) :
    (s.modExchange (fun x => { x with intEnable := enable })).exchangeReset k =
      ((s.cleared enable).resetTable k 0).resetTable k 1 := by
  have e : ((s.modExchange (fun x => { x with intEnable := enable })).abandonRequest.modExchange
      (fun x => { x with queue := [], summary := 0 })) = s.cleared enable := by
    unfold State.cleared State.dropped State.abandonRequest
    have flight : (s.modExchange (fun x => { x with intEnable := enable })).exchange.inFlight =
      s.exchange.inFlight := rfl
    rcases h : s.exchange.inFlight with _ | ⟨page, st | _⟩ <;> rw [flight, h] <;> rfl
  exact congrArg (fun u => (u.resetTable k 0).resetTable k 1) e

theorem State.resetTable_eq (x : TableId) (s : State) :
    ((s.table x).state.cancellable = true → s.resetTable k x = s.cancelTable k x false) ∧
    ((s.table x).state.cancellable = false → s.resetTable k x = s) :=
  ⟨fun h => if_pos h, fun h => if_neg (by rw [h]; decide)⟩

/-- The two tables cancelled, T0 first. -/
def State.resetTables (s : State) : State := (s.resetTable settle 0).resetTable settle 1

theorem exec_exchangeReset_eq (enable : Bool) (s : State) :
    exec (.exchangeReset enable) s = .next (s.publish (s.cleared enable).resetTables) := by
  rw [exec_exchangeReset, State.exchangeReset_eq]
  rfl

theorem State.station_cleared (enable : Bool) (s : State) (st : StationId) :
    (s.cleared enable).station st = { s.station st with validation :=
      match s.exchange.inFlight with
      | some { page := _, request := .armBook st' } =>
        if st' = st then none else (s.station st).validation
      | _ => (s.station st).validation } := by
  change s.dropped.station st = _
  unfold State.dropped
  rcases s.exchange.inFlight with _ | ⟨page, a | _⟩
  · rfl
  · dsimp only
    rw [State.station_modStation]
    by_cases e : a = st
    · subst e
      simp
    · simp [e]
  · rfl

theorem State.sensing_cleared (enable : Bool) (s : State) : (s.cleared enable).sensing =
    (match s.exchange.inFlight with
      | some { page := _, request := .configureSensing } =>
        { s.sensing with pendingCount := none }
      | _ => s.sensing) := by
  change s.dropped.sensing = _
  unfold State.dropped
  rcases s.exchange.inFlight with _ | ⟨page, a | _⟩ <;> rfl

/-- Abandoning a request touches stations and WS alone. -/
theorem State.dropped_eq (s : State) : ∃ v w, s.dropped = { s with stations := v, sensing := w } := by
  unfold State.dropped
  rcases s.exchange.inFlight with _ | ⟨page, a | _⟩ <;> exact ⟨_, _, rfl⟩

theorem State.sweeps_cleared {enable : Bool} {s : State} (h : Law.sweeps s) :
    Law.sweeps (s.cleared enable) := by
  obtain ⟨v, w, e⟩ := s.dropped_eq
  have table (x) : (s.cleared enable).table x = s.table x := by rw [State.cleared, e]; rfl
  refine ⟨fun x y hxy hx => ?_, fun st g hg => ?_⟩
  · rw [table] at hx ⊢
    exact h.1 x y hxy hx
  · rw [State.station_cleared] at hg
    rw [table]
    exact h.2 st g hg

/-- The tally area is the part's own. -/
theorem Layout.not_tallies {a : Nat} (h : ¬ Layout.isOwn a) :
    a < Layout.tallies ∨ Layout.tallies + Layout.tallyArea ≤ a := by
  simp only [Layout.isOwn, Layout.tallies, Layout.tallyArea] at *
  omega

/-- A class that was latched stays latched while an event settles. -/
theorem Kept.latched {E : TableId → Prop} {Q : Prop} {s t : State} (h : Kept E Q s t) {i : Nat}
    (l : s.exchange.summary.getLsbD i = true) : t.exchange.summary.getLsbD i = true := by
  obtain ⟨b, e⟩ := h.exchange
  rw [e, BitVec.getLsbD_or, l, Bool.true_or]

/-- A cancellation latches SWEEP. -/
theorem State.latched_resetTable {x : TableId} {s : State}
    (h : (s.table x).state.cancellable = true) :
    (s.resetTable settle x).exchange.summary.getLsbD 7 = true := by
  rw [State.resetTable, if_pos h, State.cancelTable_alone, State.closeTable_eq]
  exact SummaryClass.bit_or .sweep _ 7 rfl

/-- The table is not in use after its cancellation. -/
theorem State.unused_resetTable (x : TableId) (s : State) :
    ((s.resetTable settle x).table x).state.cancellable = false := by
  unfold State.resetTable
  split
  · have h := Kept.releaseTable (E := fun _ => False) (fun s => (Kept.settle s).weaken) x
      (s.modTable x SweepTable.cancel)
    have e := (h.table x).unused id (by rw [State.table_modTable, if_pos rfl]; rfl)
    rw [State.cancelTable_alone, State.closeTable_eq, State.table_bump, State.table_modTable,
      if_pos rfl, e, State.table_modTable, if_pos rfl]
    rfl
  · rename_i h
    exact Bool.eq_false_iff.2 h

theorem State.resetTables_kept (s : State) : Kept (fun _ => True) False s s.resetTables :=
  (State.resetTable_kept trivial s).trans (State.resetTable_kept trivial _)

theorem State.noTable_resetTables (s : State) : s.resetTables.noTable := by
  have one : ((s.resetTable settle 0).table 0).state.cancellable = false :=
    State.unused_resetTable 0 s
  have kept := State.resetTable_kept (E := fun y => y = 1) (x := 1) rfl (s.resetTable settle 0)
  intro x
  match x with
  | 0 =>
    change (((s.resetTable settle 0).resetTable settle 1).table 0).state.cancellable = false
    rw [(kept.table 0).unused (by decide) one]
    exact one
  | 1 => exact State.unused_resetTable 1 _

/-- With no table in use, none is cancelled. -/
theorem State.resetTables_of_noTable {s : State} (h : s.noTable) : s.resetTables = s := by
  unfold State.resetTables
  rw [(State.resetTable_eq 0 s).2 (h 0), (State.resetTable_eq 1 s).2 (h 1)]

/-- Where a table is in use, its cancellation latches SWEEP. -/
theorem State.latched_resetTables {s : State} {x : TableId}
    (h : (s.table x).state.cancellable = true) :
    s.resetTables.exchange.summary.getLsbD 7 = true := by
  unfold State.resetTables
  cases e : (s.table 0).state.cancellable with
  | true =>
    exact (State.resetTable_kept (E := fun _ => True) trivial _).latched (State.latched_resetTable e)
  | false =>
    rw [(State.resetTable_eq 0 s).2 e]
    match x with
    | 0 => rw [e] at h; cases h
    | 1 => exact State.latched_resetTable h

/-- What the two cancellations leave of the sweeps. -/
structure BothCancelled (s t : State) : Prop where
  used : ∀ x, (s.table x).state.cancellable = true → (t.table x).state = .cancelled ∧
    (t.table x).strobe = none ∧ (t.table x).startDue = false ∧
    (t.table x).ended = some (.cancelled, s.time.time) ∧
    ∀ st, (t.station st).progress.table = some x → (t.station st).progress.timer = none
  unused : ∀ x, (s.table x).state.cancellable = false → t.table x = s.table x
  hold : ∀ st, (t.station st).hold = none
  progress : ∀ st, (t.station st).progress =
    { (s.station st).progress with timer := (t.station st).progress.timer }
  ends : t.tally .sweepEnds = s.tally .sweepEnds +
    (if (s.table 0).state.cancellable then 1 else 0) +
    (if (s.table 1).state.cancellable then 1 else 0)

theorem Progress.stop_eq (x : TableId) (p : Progress) :
    p.stop x = { p with timer := (p.stop x).timer } := by
  unfold Progress.stop
  split <;> rfl

/-- A cancellation touches settle timers alone among the records. -/
theorem Cancelled.record {x : TableId} {s t : State} (c : Cancelled x s t) (st : StationId) :
    (t.station st).progress =
      { (s.station st).progress with timer := (t.station st).progress.timer } := by
  rw [c.progress]
  split
  · exact Progress.stop_eq ..
  · rfl

theorem Cancelled.timer_used {x : TableId} {s t : State} (c : Cancelled x s t) {st : StationId}
    (h : (s.table x).state.cancellable = true) (e : (s.station st).progress.table = some x) :
    (t.station st).progress.timer = none := by
  rw [c.progress, if_pos h, Progress.stop, if_pos e]

theorem Cancelled.timer_none {x : TableId} {s t : State} (c : Cancelled x s t) {st : StationId}
    (e : (s.station st).progress.timer = none) : (t.station st).progress.timer = none := by
  rw [c.progress, Progress.stop]
  split
  · split
    · rfl
    · exact e
  · exact e

theorem State.bothCancelled {s : State} (h : Law.sweeps s) : BothCancelled s s.resetTables := by
  have c0 := State.cancelled_resetTable 0 h
  have c1 := State.cancelled_resetTable 1 (c0.sweeps h)
  have time : (s.resetTable settle 0).time = s.time :=
    (State.resetTable_kept (E := fun _ => True) trivial s).time
  change BothCancelled s ((s.resetTable settle 0).resetTable settle 1)
  generalize s.resetTable settle 0 = u at *
  generalize u.resetTable settle 1 = t at *
  have t0 : t.table 0 = u.table 0 := c1.other 0 (by decide)
  have u1 : u.table 1 = s.table 1 := c0.other 1 (by decide)
  have tp (st) := congrArg Progress.table (c1.record st)
  have up (st) := congrArg Progress.table (c0.record st)
  refine ⟨fun x hx => ?_, fun x hx => ?_, fun st => ?_, fun st => ?_, ?_⟩
  · match x with
    | 0 =>
      rw [t0]
      obtain ⟨h1, h2, h3, h4⟩ := c0.used hx
      exact ⟨h1, h2, h3, h4, fun st e => c1.timer_none (c0.timer_used hx
        ((up st).symm.trans ((tp st).symm.trans e)))⟩
    | 1 =>
      have hu : (u.table 1).state.cancellable = true := by rw [u1]; exact hx
      obtain ⟨h1, h2, h3, h4⟩ := c1.used hu
      exact ⟨h1, h2, h3, by rw [h4, time], fun st e => c1.timer_used hu ((tp st).symm.trans e)⟩
  · match x with
    | 0 => rw [t0, c0.unused hx]
    | 1 => rw [c1.unused (by rw [u1]; exact hx), u1]
  · rw [c1.hold, c0.hold]
    cases e : (s.station st).hold with
    | none => rfl
    | some g =>
      rcases g with ⟨x, az, el⟩
      match x with
      | 0 => rfl
      | 1 => rfl
  · rw [c1.record st, c0.record st]
  · rw [c1.ends, c0.ends, u1]

theorem State.table_cleared (enable : Bool) (s : State) (x : TableId) :
    (s.cleared enable).table x = s.table x := by
  obtain ⟨v, w, e⟩ := s.dropped_eq
  rw [State.cleared, e]
  rfl

/-- The cases of an exchange reset as the two cancellations, each with its condition. -/
theorem State.resetTable_cases (x : TableId) (s : State) :
    let used := (s.table x).state = .armed ∨ (s.table x).state = .running ∨
      (s.table x).state = .settling
    (used → s.resetTable settle x = s.cancelTable settle x false) ∧
      (¬ used → s.resetTable settle x = s) := by
  intro used
  refine ⟨fun h => (State.resetTable_eq x s).1 (TableState.cancellable_iff.2 h), fun h => ?_⟩
  refine (State.resetTable_eq x s).2 (Bool.eq_false_iff.2 fun c => h (TableState.cancellable_iff.1 c))

/-- How many of the two tables are in use. -/
theorem State.count_used (s : State) : (if (s.table 0).state.cancellable then (1 : BitVec 16) else 0) +
    (if (s.table 1).state.cancellable then 1 else 0) =
      BitVec.ofNat 16 ((List.finRange 2).filter (fun x => decide ((s.table x).state = .armed ∨
        (s.table x).state = .running ∨ (s.table x).state = .settling))).length := by
  have both : List.finRange 2 = [0, 1] := rfl
  simp only [← TableState.cancellable_iff, Bool.decide_eq_true, both, List.filter_cons]
  cases (s.table 0).state.cancellable <;> cases (s.table 1).state.cancellable <;> rfl

/-- Settles O14. -/
theorem exchangeResetEmptiesTheInterface : Obligations.ExchangeResetEmptiesTheInterface := by
  intro enable s
  have kept := (s.cleared enable).resetTables_kept
  have station := State.station_cleared enable s
  have table := State.table_cleared enable s
  obtain ⟨v, w, dropped⟩ := s.dropped_eq
  have cleared : s.cleared enable = { s with
      stations := v, sensing := w, exchange := (s.cleared enable).exchange } := by
    rw [State.cleared, dropped]
  have same (n : s.noTable) : (s.cleared enable).resetTables = s.cleared enable :=
    State.resetTables_of_noTable fun x => by rw [table]; exact n x
  obtain ⟨b, exchange⟩ := kept.exchange
  refine ⟨_, exec_exchangeReset_eq enable s, congrArg Exchange.queue exchange,
    congrArg Exchange.inFlight exchange, (congrArg Exchange.mask exchange).trans rfl,
    congrArg Exchange.intEnable exchange, State.noTable_resetTables _, ?_, fun h => ?_, fun n => ?_,
    fun x hx => ?_, fun a ha => ?_, kept.time.trans ?_, kept.lines.trans ?_, kept.panelLine.trans ?_,
    kept.normal.trans ?_, kept.emergency.trans ?_, kept.sensing.trans (s.sensing_cleared enable),
    fun st => ?_⟩
  · obtain ⟨used0, unused0⟩ := (s.cleared enable).resetTable_cases 0
    obtain ⟨used1, unused1⟩ := ((s.cleared enable).resetTable settle 0).resetTable_cases 1
    refine ⟨s.dropped, s.cleared enable, _, _, rfl, rfl, used0, unused0, used1, unused1, rfl, ?_⟩
    rintro ⟨x, hx⟩
    exact State.latched_resetTables (x := x) (by rw [table]; exact TableState.cancellable_iff.2 hx)
  · intro used
    obtain ⟨cancelled, stand, hold, record, ends⟩ := State.bothCancelled (State.sweeps_cleared h)
    refine ⟨fun x hx => ?_, fun x hx => ?_, fun st => ⟨hold st, ?_⟩, ?_⟩
    · have c : ((s.cleared enable).table x).state.cancellable = true := by
        rw [table]
        exact TableState.cancellable_iff.2 hx
      obtain ⟨h1, h2, h3, h4, h5⟩ := cancelled x c
      exact ⟨h1, h2, h3, h4.trans (by rw [cleared]), h5⟩
    · refine (stand x ?_).trans (table x)
      rw [table, Bool.eq_false_iff]
      exact fun c => hx (TableState.cancellable_iff.1 c)
    · refine (record st).trans ?_
      rw [station]
      rfl
    · refine ends.trans ?_
      rw [table, table, BitVec.add_assoc, s.count_used, cleared]
      rfl
  · rw [same n, cleared]
    exact ⟨rfl, rfl⟩
  · exact (kept.tally x hx).trans (by rw [cleared]; rfl)
  · rw [State.read_publish (Layout.not_isStatus ha), kept.read a (Layout.not_tallies ha), cleared]
  · rw [cleared]
  · rw [cleared]
  · rw [cleared]
  · rw [cleared]
  · rw [cleared]
  · have k := kept.station st
    rw [station] at k
    refine ⟨k.link, k.tags, k.validation, fun n => ?_⟩
    rw [same n, State.station_publish, station]
    exact ⟨rfl, rfl⟩

end Sys2Proof.Machine
end

section
/-! PROOFS. The numbers that CONFIGURE_STATION and CONFIGURE_ZONE carry, brought to the nearer end of their
ranges (R7, R84, R146), and the judgements of a wind zone (R147, R148). -/

namespace Sys2Proof.Machine

/-! ### Clamping (R7) -/

theorem clampNat_eq {lo hi : Nat} (h : lo ≤ hi) (x : Nat) :
    clampNat lo hi x = max lo (min hi x) := by
  unfold clampNat
  split
  · omega
  · split <;> omega

theorem clampInt_eq {lo hi : Int} (h : lo ≤ hi) (x : Int) :
    clampInt lo hi x = max lo (min hi x) := by
  unfold clampInt
  split
  · omega
  · split <;> omega

/-- A number is clamped exactly where it lay outside its range. -/
theorem clampNat_bne {lo hi : Nat} (h : lo ≤ hi) (x : Nat) :
    (clampNat lo hi x != x) = false ↔ lo ≤ x ∧ x ≤ hi := by
  rw [clampNat_eq h, bne_eq_false_iff_eq]
  omega

theorem clampInt_bne {lo hi : Int} (h : lo ≤ hi) (x : Int) :
    (clampInt lo hi x != x) = false ↔ lo ≤ x ∧ x ≤ hi := by
  rw [clampInt_eq h, bne_eq_false_iff_eq]
  omega

/-- A rate, a limit or a window is kept as a natural number. -/
theorem toNat_clampInt {lo hi : Int} (h0 : 0 ≤ lo) (h : lo ≤ hi) (x : Int) :
    ((clampInt lo hi x).toNat : Int) = clampInt lo hi x := by
  rw [clampInt_eq h]
  omega

/-! ### The numbers of a station (R84) -/

/-- The ends of the range of the limits of an axis. -/
def RawAxis.lowest (ax : AxisId) : Int := if ax = .az then -270000000 else 0

/-- See `RawAxis.lowest`. -/
def RawAxis.highest (ax : AxisId) : Int := if ax = .az then 270000000 else 92000000

theorem RawAxis.lowest_le (ax : AxisId) : RawAxis.lowest ax ≤ RawAxis.highest ax := by
  cases ax <;> decide

theorem RawAxis.limits (ax : AxisId) (r : RawAxisConfig) :
    (RawAxis.config ax r).lmin = clampInt (RawAxis.lowest ax) (RawAxis.highest ax) r.lmin.toInt ∧
      (RawAxis.config ax r).lmax = clampInt (RawAxis.lowest ax) (RawAxis.highest ax) r.lmax.toInt := by
  cases ax <;> exact ⟨rfl, rfl⟩

theorem RawAxis.config_eq (ax : AxisId) (r : RawAxisConfig) :
    (RawAxis.config ax r).lmin = max (RawAxis.lowest ax) (min (RawAxis.highest ax) r.lmin.toInt) ∧
    (RawAxis.config ax r).lmax = max (RawAxis.lowest ax) (min (RawAxis.highest ax) r.lmax.toInt) ∧
    ((RawAxis.config ax r).vmax : Int) = max 0 (min 3000000 r.vmax.toInt) ∧
    (RawAxis.config ax r).amax = min 2000000 r.amax.toNat ∧
    ((RawAxis.config ax r).errorLimit : Int) = max 1000 (min 1000000 r.errorLimit.toInt) ∧
    ((RawAxis.config ax r).window : Int) = max 0 (min 100000 r.window.toInt) ∧
    (RawAxis.config ax r).slewWatts = min 20000 r.slewWatts.toNat ∧
    (RawAxis.config ax r).trackWatts = min 20000 r.trackWatts.toNat := by
  obtain ⟨hmin, hmax⟩ := RawAxis.limits ax r
  rw [hmin, hmax, clampInt_eq (RawAxis.lowest_le ax), clampInt_eq (RawAxis.lowest_le ax)]
  have nat {hi x : Nat} : clampNat 0 hi x = min hi x := by
    rw [clampNat_eq (Nat.zero_le _), Nat.zero_max]
  have int {lo hi : Int} (h0 : 0 ≤ lo) (h : lo ≤ hi) (x : Int) :
      ((clampInt lo hi x).toNat : Int) = max lo (min hi x) := by
    rw [toNat_clampInt h0 h, clampInt_eq h]
  exact ⟨rfl, rfl, int (by decide) (by decide) _, nat, int (by decide) (by decide) _,
    int (by decide) (by decide) _, nat, nat⟩

theorem RawAxis.clamped_eq_false (ax : AxisId) (r : RawAxisConfig) :
    RawAxis.clamped ax r = false ↔
      (RawAxis.lowest ax ≤ r.lmin.toInt ∧ r.lmin.toInt ≤ RawAxis.highest ax) ∧
      (RawAxis.lowest ax ≤ r.lmax.toInt ∧ r.lmax.toInt ≤ RawAxis.highest ax) ∧
      (0 ≤ r.vmax.toInt ∧ r.vmax.toInt ≤ 3000000) ∧ r.amax.toNat ≤ 2000000 ∧
      (1000 ≤ r.errorLimit.toInt ∧ r.errorLimit.toInt ≤ 1000000) ∧
      (0 ≤ r.window.toInt ∧ r.window.toInt ≤ 100000) ∧ r.slewWatts.toNat ≤ 20000 ∧
      r.trackWatts.toNat ≤ 20000 := by
  obtain ⟨hmin, hmax⟩ := RawAxis.limits ax r
  have vmax : ((RawAxis.config ax r).vmax : Int) = clampInt 0 3000000 r.vmax.toInt :=
    toNat_clampInt (by decide) (by decide) _
  have errorLimit : ((RawAxis.config ax r).errorLimit : Int) =
      clampInt 1000 1000000 r.errorLimit.toInt := toNat_clampInt (by decide) (by decide) _
  have window : ((RawAxis.config ax r).window : Int) = clampInt 0 100000 r.window.toInt :=
    toNat_clampInt (by decide) (by decide) _
  have amax : (RawAxis.config ax r).amax = clampNat 0 2000000 r.amax.toNat := rfl
  have slew : (RawAxis.config ax r).slewWatts = clampNat 0 20000 r.slewWatts.toNat := rfl
  have track : (RawAxis.config ax r).trackWatts = clampNat 0 20000 r.trackWatts.toNat := rfl
  simp only [RawAxis.clamped, hmin, hmax, vmax, errorLimit, window, amax, slew, track,
    Bool.or_eq_false_iff, clampInt_bne (RawAxis.lowest_le ax),
    clampInt_bne (show (0 : Int) ≤ 3000000 by decide),
    clampInt_bne (show (1000 : Int) ≤ 1000000 by decide),
    clampInt_bne (show (0 : Int) ≤ 100000 by decide), clampNat_bne (Nat.zero_le _), Nat.zero_le,
    true_and, and_assoc]

/-! ### The numbers of a zone (R146) -/

/-- A list whose members are each kept once, at their first place. -/
theorem foldl_keepOnce (l acc : List Nat) :
    l.foldl (fun l n => if n ∈ l then l else l ++ [n]) acc =
      acc ++ (keepOnce l).filter (fun y => decide (y ∉ acc)) := by
  induction l generalizing acc with
  | nil => simp [keepOnce]
  | cons x l ih =>
    rw [List.foldl_cons, ih, keepOnce]
    by_cases h : x ∈ acc
    · have e : ∀ y ∈ keepOnce l, decide (y ∉ acc) =
          (decide (y ∉ acc) && (y != x)) := fun y _ => by
        by_cases hy : y = x
        · simp [hy, h]
        · simp [hy]
      rw [if_pos h, List.filter_cons_of_neg (by simpa using h), List.filter_filter]
      exact congrArg _ (List.filter_congr e)
    · rw [if_neg h, List.filter_cons_of_pos (by simpa using h), List.filter_filter, List.append_assoc]
      refine congrArg _ (congrArg (List.cons x) (List.filter_congr fun y _ => ?_))
      simp [not_or, bne, Bool.beq_eq_decide_eq]

theorem RawZone.config_eq (raw : RawZoneConfig) : RawZone.config raw =
    { stages := (RawZone.stages raw).foldl (fun l n => if n ∈ l then l else l ++ [n]) [],
      watch := min 32767 raw.watch.toNat, stow := min 32767 raw.stow.toNat,
      release := min 32767 raw.release.toNat,
      gustStow := max 1 (min 32767 raw.gustStow.toNat),
      returnHold := max 60 (min 7200 raw.returnHold.toNat),
      deadline := max 30 (min 1800 raw.deadline.toNat),
      blindTimeout := max 1 (min 600 raw.blindTimeout.toNat),
      floor := max 0 (min 92000000 raw.floor.toInt) } := by
  have nat {hi x : Nat} : clampNat 0 hi x = min hi x := by
    rw [clampNat_eq (Nat.zero_le _), Nat.zero_max]
  have once : keepOnce (RawZone.stages raw) =
      (RawZone.stages raw).foldl (fun l n => if n ∈ l then l else l ++ [n]) [] := by
    rw [foldl_keepOnce]
    simp
  rw [RawZone.config, once, nat, nat, nat, clampNat_eq (by decide), clampNat_eq (by decide),
    clampNat_eq (by decide), clampNat_eq (by decide), clampInt_eq (by decide)]

theorem RawZone.clamped_eq_false (raw : RawZoneConfig) : RawZone.clamped raw = false ↔
    raw.watch.toNat ≤ 32767 ∧ raw.stow.toNat ≤ 32767 ∧
      raw.release.toNat ≤ 32767 ∧ (1 ≤ raw.gustStow.toNat ∧ raw.gustStow.toNat ≤ 32767) ∧
      (60 ≤ raw.returnHold.toNat ∧ raw.returnHold.toNat ≤ 7200) ∧
      (30 ≤ raw.deadline.toNat ∧ raw.deadline.toNat ≤ 1800) ∧
      (1 ≤ raw.blindTimeout.toNat ∧ raw.blindTimeout.toNat ≤ 600) ∧
      0 ≤ raw.floor.toInt ∧ raw.floor.toInt ≤ 92000000 := by
  simp only [RawZone.clamped, RawZone.config, Bool.or_eq_false_iff,
    clampNat_bne (Nat.zero_le _), clampNat_bne (show 1 ≤ 32767 by decide),
    clampNat_bne (show 60 ≤ 7200 by decide), clampNat_bne (show 30 ≤ 1800 by decide),
    clampNat_bne (show 1 ≤ 600 by decide), clampInt_bne (show (0 : Int) ≤ 92000000 by decide),
    Nat.zero_le, true_and, and_assoc]

/-- Check 1 of R146. -/
theorem RawZone.badValue_iff (raw : RawZoneConfig) : RawZone.badValue raw = true ↔
    4 < raw.count.toNat ∨ ∃ n ∈ RawZone.stages raw, 15 < n := by
  simp [RawZone.badValue]

theorem Result.ofClamped_eq (b : Bool) :
    Result.ofClamped b = if b then .doneClamped else .done := rfl

/-! ### The weather and blind judgements (R147, R148) -/

theorem greatest_none {l : List (Option Int)} : greatest l = none ↔ ∀ x ∈ l, x = none := by
  induction l with
  | nil => simp [greatest]
  | cons x l ih =>
    cases x with
    | none => simpa [greatest] using ih
    | some v => cases h : greatest l <;> simp [greatest, h]

theorem greatest_some {l : List (Option Int)} {v : Int} : greatest l = some v ↔
    some v ∈ l ∧ ∀ w, some w ∈ l → w ≤ v := by
  induction l generalizing v with
  | nil => simp [greatest]
  | cons x l ih =>
    cases x with
    | none => simpa [greatest] using ih
    | some y =>
      cases h : greatest l with
      | none =>
        have none_in (w) : some w ∉ l := fun hw => by simpa using greatest_none.1 h _ hw
        simp only [greatest, h, List.mem_cons, Option.some.injEq, none_in, or_false]
        constructor
        · rintro rfl
          simp
        · rintro ⟨rfl, -⟩
          rfl
      | some m =>
        obtain ⟨hm, hle⟩ := ih.1 h
        simp only [greatest, h, List.mem_cons, Option.some.injEq]
        constructor
        · rintro rfl
          refine ⟨?_, fun w hw => ?_⟩
          · rcases Int.le_total y m with e | e
            · rw [Int.max_eq_right e]
              exact .inr hm
            · exact .inl (Int.max_eq_left e)
          · rcases hw with rfl | hw
            · exact Int.le_max_left ..
            · exact (hle w hw).trans (Int.le_max_right ..)
        · rintro ⟨hv, hw⟩
          have h1 := hw y (.inl rfl)
          have h2 := hw m (.inr hm)
          rcases hv with rfl | hv
          · exact Int.max_eq_left h2
          · have := hle v hv
            omega

theorem State.usableStage_iff (s : State) (n : Nat) (kind : StageKind) (g : Stage) :
    s.usableStage n kind = some g ↔
      s.sensing.stages[n]? = some g ∧ g.state = .live ∧ g.cfg.kind = kind := by
  unfold State.usableStage State.stage
  cases h : s.sensing.stages[n]? with
  | none => simp
  | some g' =>
    simp only [Option.ite_none_right_eq_some, Option.some.injEq]
    constructor
    · rintro ⟨h1, rfl⟩
      exact ⟨rfl, h1⟩
    · rintro ⟨rfl, h1⟩
      exact ⟨h1, rfl⟩

/-- A stage at or above the gust-stow level. -/
theorem Stage.gustAt_iff (g : Stage) (level : Nat) : g.gustAt level = true ↔
    ∃ x b, g.x = some x ∧ g.b = some b ∧ (level : Int) ≤ x - b := by
  unfold Stage.gustAt
  cases g.x <;> cases g.b <;> simp

/-- What the two judgements make of a zone (R147, R148). -/
theorem Zone.judgeWeather_facts (z : Zone) (live : List Stage) :
    let j := z.judgeWeather live
    let starts := z.cfg.stages ≠ [] ∧ live = []
    j = { z with speed := j.speed, gust := j.gust, gustStow := j.gustStow, blind := j.blind,
                 blindTimer := j.blindTimer } ∧
    (j.speed = none ↔ ∀ g ∈ live, g.f = none) ∧
    (∀ v, j.speed = some v ↔
      (∃ g ∈ live, g.f = some v) ∧ ∀ g ∈ live, ∀ w, g.f = some w → w ≤ v) ∧
    (j.gust = true ↔ ∃ g ∈ live, g.gust = true) ∧
    (j.gustStow = true ↔ ∃ g ∈ live, ∃ x b, g.x = some x ∧ g.b = some b ∧
      (z.cfg.gustStow : Int) ≤ x - b) ∧
    (starts → j.blind = z.blind ∧
      (z.blind = false → z.blindTimer = none → j.blindTimer = some (1000 * z.cfg.blindTimeout)) ∧
      (z.blind = true ∨ z.blindTimer ≠ none → j.blindTimer = z.blindTimer)) ∧
    (¬ starts → j.blind = false ∧ j.blindTimer = none) := by
  intro j starts
  have blindable : (!z.cfg.stages.isEmpty && live.isEmpty) = true ↔ starts := by
    simp [starts, List.isEmpty_iff]
  have begun (h : starts) : j = { j with
      blind := z.blind, blindTimer := if z.blind then z.blindTimer
        else z.blindTimer.or (some (1000 * z.cfg.blindTimeout)) } := by
    simp only [j, Zone.judgeWeather, blindable.2 h, if_true, Bool.true_and]
  have none_begun (h : ¬ starts) : j = { j with blind := false, blindTimer := none } := by
    simp only [j, Zone.judgeWeather, Bool.eq_false_iff.2 fun e => h (blindable.1 e),
      if_false, Bool.false_and, Bool.false_eq_true]
  refine ⟨rfl, ?_, fun v => ?_, ?_, ?_, fun h => ?_, fun h => ?_⟩
  · exact greatest_none.trans (by simp)
  · refine greatest_some.trans (and_congr List.mem_map
      ⟨fun h g hg w e => h w (List.mem_map.2 ⟨g, hg, e⟩), fun h w hw => ?_⟩)
    obtain ⟨g, hg, e⟩ := List.mem_map.1 hw
    exact h g hg w e
  · exact List.any_eq_true
  · exact List.any_eq_true.trans (by simp [Stage.gustAt_iff])
  · rw [begun h]
    refine ⟨rfl, fun hb ht => by simp [hb, ht], fun hb => ?_⟩
    rcases hb with hb | hb
    · simp [hb]
    · obtain ⟨n, e⟩ := Option.ne_none_iff_exists'.1 hb
      simp [e]
  · rw [none_begun h]
    exact ⟨rfl, rfl⟩

end Sys2Proof.Machine
end

section
/-! PROOFS. CONFIGURE_ZONE: what the take leaves of the zone, and the changes of state that follow (R146 to
R150, R161). -/

namespace Sys2Proof.Machine

variable {k : Settle}

/-! ### Changes of one zone -/

theorem State.modZone_modZone (z : ZoneId) (f g : Zone → Zone) (s : State) :
    (s.modZone z f).modZone z g = s.modZone z (fun x => g (f x)) := by
  simp [State.modZone]

theorem State.modZone_congr {z : ZoneId} {f g : Zone → Zone} {s : State}
    (h : f (s.zone z) = g (s.zone z)) : s.modZone z f = s.modZone z g :=
  congrArg (fun x => { s with zones := s.zones.set z x }) h

/-- Two records of a zone with the same configuration, weather and blind records, order and causes. -/
structure ZoneSame (x y : Zone) : Prop where
  cfg : y.cfg = x.cfg
  speed : y.speed = x.speed
  gust : y.gust = x.gust
  gustStow : y.gustStow = x.gustStow
  blind : y.blind = x.blind
  blindTimer : y.blindTimer = x.blindTimer
  order : y.order = x.order
  causes : y.causes = x.causes

theorem ZoneSame.refl (x : Zone) : ZoneSame x x := ⟨rfl, rfl, rfl, rfl, rfl, rfl, rfl, rfl⟩

theorem ZoneSame.trans {x y w : Zone} (h : ZoneSame x y) (k : ZoneSame y w) : ZoneSame x w :=
  ⟨k.cfg.trans h.cfg, k.speed.trans h.speed, k.gust.trans h.gust, k.gustStow.trans h.gustStow,
    k.blind.trans h.blind, k.blindTimer.trans h.blindTimer, k.order.trans h.order,
    k.causes.trans h.causes⟩

theorem ZoneSame.of_kept {x y : Zone} (h : ZoneKept x y) : ZoneSame x y :=
  ⟨h.cfg, h.speed, h.gust, h.gustStow, h.blind, h.blindTimer, h.order, h.causes⟩

/-- What a take that judges and evaluates a zone leaves as it put it there: `ZoneSame` of the zone, every
other zone's configuration and order, TU, WS and the host's bytes. -/
structure ZoneStands (z : ZoneId) (s u : State) : Prop where
  zone : ZoneSame (s.zone z) (u.zone z)
  other : ∀ y, y ≠ z → (u.zone y).cfg = (s.zone y).cfg ∧ (u.zone y).order = (s.zone y).order
  time : u.time = s.time
  sensing : u.sensing = s.sensing
  bytes : ∀ a, ¬ Layout.isOwn a → Memory.read u.mem a = Memory.read s.mem a

namespace ZoneStands

variable {z : ZoneId}

theorem refl (s : State) : ZoneStands z s s :=
  ⟨.refl _, fun _ _ => ⟨rfl, rfl⟩, rfl, rfl, fun _ _ => rfl⟩

theorem trans {s t u : State} (h : ZoneStands z s t) (k : ZoneStands z t u) : ZoneStands z s u :=
  ⟨h.zone.trans k.zone, fun y e => ⟨(k.other y e).1.trans (h.other y e).1,
      (k.other y e).2.trans (h.other y e).2⟩, k.time.trans h.time, k.sensing.trans h.sensing,
    fun a e => (k.bytes a e).trans (h.bytes a e)⟩

theorem of_kept {E : TableId → Prop} {Q : Prop} {s u : State} (h : Kept E Q s u) :
    ZoneStands z s u :=
  ⟨.of_kept (h.zone z), fun y _ => ⟨(h.zone y).cfg, (h.zone y).order⟩, h.time, h.sensing,
    fun a e => h.read a (Layout.not_tallies e)⟩

theorem modZone {s : State} {f : Zone → Zone} (h : ZoneSame (s.zone z) (f (s.zone z))) :
    ZoneStands z s (s.modZone z f) := by
  refine ⟨?_, fun y n => ?_, rfl, rfl, fun _ _ => rfl⟩
  · rw [State.zone_modZone, if_pos rfl]
    exact h
  · rw [State.zone_modZone, if_neg n.symm]
    exact ⟨rfl, rfl⟩

theorem bump (x : Tally) (s : State) : ZoneStands z s (s.bump x) :=
  ⟨.refl _, fun _ _ => ⟨rfl, rfl⟩, rfl, rfl, fun _ e =>
    State.read_bump_outside (Layout.not_tallies e)⟩

theorem ite {c : Prop} [Decidable c] {s t u : State} (h : ZoneStands z s t)
    (k : ZoneStands z s u) : ZoneStands z s (if c then t else u) := by
  split
  · exact h
  · exact k

end ZoneStands

/-! ### Changes of state (R161) -/

/-- The state right after the event of a zone's change of state. -/
def State.noted (z : ZoneId) (to_ : ZoneState) (f : Zone → Zone) (v : State) : State :=
  (v.modZone z (fun x => f { x with state := to_ })).zoneEvent z (v.zone z).state

/-- A change of state: its event, then the shed orders of the members. -/
theorem State.moveZone_eq (z : ZoneId) (to_ : ZoneState) (f : Zone → Zone) (v : State) :
    v.moveZone k z to_ f =
      eachOf ((v.noted z to_ f).zone z).members (State.judgeShed k) (v.noted z to_ f) := rfl

/-- The event of a change that leaves the zone's timers. -/
theorem State.noted_id (z : ZoneId) (to_ : ZoneState) (v : State) : v.noted z to_ id =
    (v.modZone z (fun y => { y with
      state := to_,
      last := some { deadline := false, left := (v.zone z).state, entered := to_,
                     causes := y.causes, time := v.time.time } })).bump (.zoneChanges z) :=
  congrArg (State.bump · (.zoneChanges z)) (State.modZone_modZone z _ _ v)

/-- How a zone stands after a number of changes of state, the last of them from the state left. -/
structure ZoneEnds (z : ZoneId) (s u : State) (to_ left : ZoneState) (changes : BitVec 16)
    (hold deadline : Timer) : Prop where
  state : (u.zone z).state = to_
  tally : u.tally (.zoneChanges z) = s.tally (.zoneChanges z) + changes
  hold : (u.zone z).holdTimer = hold
  deadline : (u.zone z).deadline = deadline
  last : (u.zone z).last = if changes = 0 then (s.zone z).last else some {
    deadline := false, left := left, entered := to_, causes := (u.zone z).causes,
    time := s.time.time }

theorem ZoneEnds.refl (z : ZoneId) (s : State) (left : ZoneState) :
    ZoneEnds z s s (s.zone z).state left 0 (s.zone z).holdTimer (s.zone z).deadline :=
  ⟨rfl, (BitVec.add_zero _).symm, rfl, rfl, rfl⟩

/-- The record of a zone in another state. -/
def Zone.into (x : Zone) (to_ : ZoneState) : Zone := { x with state := to_ }

/-- The event of a change of state, as a zone that has entered its state records it. -/
def Zone.event (x : Zone) (left : ZoneState) (now : Nat) : ZoneEvent :=
  { deadline := false, left := left, entered := x.state, causes := x.causes, time := now }

theorem State.zone_noted (z : ZoneId) (to_ : ZoneState) (f : Zone → Zone) (v : State) :
    (v.noted z to_ f).zone z = { f ((v.zone z).into to_) with
      last := some ((f ((v.zone z).into to_)).event (v.zone z).state v.time.time) } := by
  have e : (v.noted z to_ f).zone z =
      ((v.modZone z (fun x => f (x.into to_))).modZone z (fun x =>
        { x with last := some (x.event (v.zone z).state v.time.time) })).zone z := rfl
  rw [e, State.modZone_modZone, State.zone_modZone, if_pos rfl]

/-- A change of state out of STOWING and STOWED. -/
theorem State.moveZone_ends {z : ZoneId} {to_ : ZoneState} {f : Zone → Zone} {v : State}
    (ht : to_.settles = false) (hs : (f ((v.zone z).into to_)).state = to_) :
    ZoneEnds z v (v.moveZone settle z to_ f) to_ (v.zone z).state 1
      (f ((v.zone z).into to_)).holdTimer (f ((v.zone z).into to_)).deadline := by
  have kept : Settled (v.noted z to_ f) (v.moveZone settle z to_ f) :=
    .moveZone Kept.settle z to_ f v
  have zone := v.zone_noted z to_ f
  have tally : (v.noted z to_ f).tally (.zoneChanges z) = v.tally (.zoneChanges z) + 1 :=
    (State.tally_bump ..).trans (if_pos rfl)
  have entered : ((v.noted z to_ f).zone z).state = to_ := by rw [zone]; exact hs
  have still : ((v.noted z to_ f).zone z).state.settles = false := by rw [entered]; exact ht
  obtain ⟨state, hold, deadline, last⟩ := (kept.zone z).other still
  refine ⟨state.trans entered, (kept.zoneTally z still).trans tally, hold.trans ?_,
    deadline.trans ?_, last.trans ?_⟩
  · rw [zone]
  · rw [zone]
  · rw [(kept.zone z).causes, zone, if_neg (by decide), Zone.event, hs]

theorem State.moveZone_stands {z : ZoneId} {to_ : ZoneState} {f : Zone → Zone} {v : State}
    (h : ZoneSame (v.zone z) (f ((v.zone z).into to_))) :
    ZoneStands z v (v.moveZone settle z to_ f) := by
  have noted : ZoneStands z (v.modZone z (fun x => f (x.into to_))) (v.noted z to_ f) :=
    .trans (.modZone (.trans (.refl _) ⟨rfl, rfl, rfl, rfl, rfl, rfl, rfl, rfl⟩)) (.bump _ _)
  exact .trans (.trans (.modZone h) noted)
    (.of_kept (Kept.moveZone (E := fun _ => False) (Q := True) Kept.settle z to_ f v))

/-! ### The weather of a zone (R150) -/

/-- The weather that takes a zone from CALM to WATCH. -/
def Zone.windy (x : Zone) : Prop :=
  (∃ v, x.speed = some v ∧ (x.cfg.watch : Int) ≤ v) ∨ x.gust = true

/-- The weather that takes a zone from WATCH to CALM. -/
def Zone.stilled (x : Zone) : Prop :=
  (∃ v, x.speed = some v ∧ v < (x.cfg.release : Int)) ∧ x.gust = false

theorem ZoneSame.windy {x y : Zone} (h : ZoneSame x y) : y.windy ↔ x.windy := by
  rw [Zone.windy, Zone.windy, h.speed, h.cfg, h.gust]

theorem ZoneSame.stilled {x y : Zone} (h : ZoneSame x y) : y.stilled ↔ x.stilled := by
  rw [Zone.stilled, Zone.stilled, h.speed, h.cfg, h.gust]

theorem State.moveByWeather_windy {z : ZoneId} {v : State} (h : (v.zone z).state = .calm)
    (w : (v.zone z).windy) : v.moveByWeather k z = v.moveZone k z .watch id := by
  unfold State.moveByWeather
  refine if_pos ⟨h, ?_⟩
  rcases w with ⟨x, hs, hx⟩ | hg
  · simp [hs, hx]
  · simp [hg]

theorem State.moveByWeather_calm {z : ZoneId} {v : State} (h : (v.zone z).state = .calm)
    (w : ¬ (v.zone z).windy) : v.moveByWeather k z = v := by
  unfold State.moveByWeather
  dsimp only
  rw [if_neg, if_neg]
  · rintro ⟨e, -⟩
    rw [h] at e
    cases e
  · rintro ⟨-, e⟩
    refine w ?_
    unfold Zone.windy
    cases hs : (v.zone z).speed <;> simpa [hs] using e

theorem State.moveByWeather_stilled {z : ZoneId} {v : State} (h : (v.zone z).state = .watch)
    (w : (v.zone z).stilled) : v.moveByWeather k z = v.moveZone k z .calm id := by
  unfold State.moveByWeather
  dsimp only
  rw [if_neg, if_pos]
  · obtain ⟨⟨x, hs, hx⟩, hg⟩ := w
    simp [h, hs, hg, hx]
  · rintro ⟨e, -⟩
    rw [h] at e
    cases e

theorem State.moveByWeather_watch {z : ZoneId} {v : State} (h : (v.zone z).state = .watch)
    (w : ¬ (v.zone z).stilled) : v.moveByWeather k z = v := by
  unfold State.moveByWeather
  dsimp only
  rw [if_neg, if_neg]
  · rintro ⟨-, e⟩
    refine w ?_
    unfold Zone.stilled
    cases hs : (v.zone z).speed with
    | none => simp [hs] at e
    | some x => simpa [hs] using e
  · rintro ⟨e, -⟩
    rw [h] at e
    cases e

/-- A zone in CALM or WATCH stays in CALM or WATCH. -/
theorem State.moveByWeather_state {z : ZoneId} {v : State}
    (h : (v.zone z).state = .calm ∨ (v.zone z).state = .watch) :
    ((v.moveByWeather settle z).zone z).state = .calm ∨
      ((v.moveByWeather settle z).zone z).state = .watch := by
  rcases h with h | h
  · by_cases w : (v.zone z).windy
    · rw [State.moveByWeather_windy h w]
      exact .inr (State.moveZone_ends rfl rfl).state
    · rw [State.moveByWeather_calm h w]
      exact .inl h
  · by_cases w : (v.zone z).stilled
    · rw [State.moveByWeather_stilled h w]
      exact .inl (State.moveZone_ends rfl rfl).state
    · rw [State.moveByWeather_watch h w]
      exact .inr h

/-! ### Evaluation (R149) -/

/-- The zone with its stow causes as they now stand. -/
def State.withCauses (z : ZoneId) (s : State) : State :=
  s.modZone z (fun x => { x with causes := x.causesNow s.lines.siteStow })

/-- The timers of a zone that enters RETURN_HOLD (R156). -/
def Zone.toReturn (x : Zone) : Zone :=
  { x with deadline := none, holdTimer := some (1000 * x.cfg.returnHold) }

/-- The evaluation at a take, by the state of the zone and whether a cause is present. -/
theorem State.evaluate_eq (z : ZoneId) (s : State) : s.evaluate k false z =
    (match ((s.withCauses z).zone z).state, ((s.withCauses z).zone z).causes.any with
      | .unwatched, true | .calm, true | .watch, true | .returnHold, true =>
        (s.withCauses z).enterStowing k z
      | .unwatched, false => s.withCauses z
      | .calm, false | .watch, false => (s.withCauses z).moveByWeather k z
      | .stowing, true | .stowed, true => s.withCauses z
      | .stowing, false | .stowed, false =>
        (s.withCauses z).moveZone k z .returnHold Zone.toReturn
      | .returnHold, false => s.withCauses z) := rfl

/-- The entry into STOWING leaves the zone in STOWING or STOWED. -/
theorem State.enterStowing_stands (z : ZoneId) (s : State) :
    ZoneStands z s (s.enterStowing settle z) ∧
      ((s.enterStowing settle z).zone z).state.settles = true := by
  have kept := Kept.enterStowing Kept.settle z s
  refine ⟨.trans (.modZone ⟨rfl, rfl, rfl, rfl, rfl, rfl, rfl, rfl⟩) (.of_kept kept), ?_⟩
  refine (kept.zone z).stows ?_
  rw [State.zone_modZone, if_pos rfl]
  rfl

/-- With a cause present a zone ends its evaluation in STOWING or STOWED. -/
theorem State.evaluate_causes {z : ZoneId} {s : State}
    (h : ((s.withCauses z).zone z).causes.any = true) :
    ZoneStands z (s.withCauses z) (s.evaluate settle false z) ∧
      ((s.evaluate settle false z).zone z).state.settles = true := by
  rw [State.evaluate_eq, h]
  cases e : ((s.withCauses z).zone z).state with
  | unwatched | calm | watch | returnHold => exact State.enterStowing_stands z _
  | stowing | stowed => exact ⟨.refl _, by dsimp only; rw [e]; rfl⟩

/-- What the evaluation of a zone without a cause does, by the state it finds. -/
theorem State.evaluate_none {z : ZoneId} {s : State}
    (h : ((s.withCauses z).zone z).causes.any = false) :
    (∀ x, ((s.withCauses z).zone z).state = x → x = .unwatched ∨ x = .returnHold →
      s.evaluate k false z = s.withCauses z) ∧
    (∀ x, ((s.withCauses z).zone z).state = x → x = .calm ∨ x = .watch →
      s.evaluate k false z = (s.withCauses z).moveByWeather k z) ∧
    (∀ x, ((s.withCauses z).zone z).state = x → x.settles = true →
      s.evaluate k false z = (s.withCauses z).moveZone k z .returnHold Zone.toReturn) := by
  rw [State.evaluate_eq, h]
  refine ⟨fun x e hx => ?_, fun x e hx => ?_, fun x e hx => ?_⟩
  · rw [e]
    rcases hx with rfl | rfl <;> rfl
  · rw [e]
    rcases hx with rfl | rfl <;> rfl
  · rw [e]
    cases x with
    | stowing | stowed => rfl
    | unwatched | calm | watch | returnHold => cases hx

theorem State.moveZone_id_stands (z : ZoneId) (to_ : ZoneState) (v : State) :
    ZoneStands z v (v.moveZone settle z to_ id) :=
  State.moveZone_stands ⟨rfl, rfl, rfl, rfl, rfl, rfl, rfl, rfl⟩

theorem State.moveByWeather_stands (z : ZoneId) (v : State) :
    ZoneStands z v (v.moveByWeather settle z) := by
  unfold State.moveByWeather
  exact .ite (State.moveZone_id_stands z _ v) (.ite (State.moveZone_id_stands z _ v) (.refl v))

theorem State.evaluate_stands (z : ZoneId) (s : State) :
    ZoneStands z (s.withCauses z) (s.evaluate settle false z) := by
  cases h : ((s.withCauses z).zone z).causes.any with
  | true => exact (State.evaluate_causes h).1
  | false =>
    obtain ⟨stay, weather, leave⟩ := State.evaluate_none (k := settle) h
    cases e : ((s.withCauses z).zone z).state with
    | unwatched | returnHold =>
      rw [stay _ e (by decide)]
      exact .refl _
    | calm | watch =>
      rw [weather _ e (by decide)]
      exact State.moveByWeather_stands z _
    | stowing | stowed =>
      rw [leave _ e rfl]
      exact State.moveZone_stands ⟨rfl, rfl, rfl, rfl, rfl, rfl, rfl, rfl⟩

/-! ### CONFIGURE_ZONE (R146) -/

/-- A zone taken under watch, or out of it, after its evaluation (R146). -/
def State.rewatch (k : Settle) (z : ZoneId) (cfg : ZoneConfig) (s : State) : State :=
  match (s.zone z).state with
  | .unwatched =>
    if cfg.stages.isEmpty then s else (s.moveZone k z .calm id).moveByWeather k z
  | .calm | .watch => if cfg.stages.isEmpty then s.moveZone k z .unwatched id else s
  | .stowing | .stowed | .returnHold => s

/-- The zone with the configuration in place and judged. -/
def State.rejudged (s : State) (z : ZoneId) (cfg : ZoneConfig) : Zone :=
  { s.zone z with cfg := cfg }.judgeWeather (cfg.stages.filterMap
    (fun n => s.usableStage n .windSpeed))

theorem State.configureZone_eq (z : ZoneId) (cfg : ZoneConfig) (s : State) :
    s.configureZone k z cfg =
      ((s.modZone z (fun _ => s.rejudged z cfg)).evaluate k false z).rewatch k z cfg := by
  have e : (s.modZone z (fun x => { x with cfg := cfg })).judgeWeather z =
      s.modZone z (fun _ => s.rejudged z cfg) := by
    unfold State.judgeWeather State.liveWind State.rejudged
    rw [State.modZone_modZone]
    refine State.modZone_congr ?_
    rw [State.zone_modZone, if_pos rfl]
    rfl
  exact congrArg (fun u => (State.evaluate k false z u).rewatch k z cfg) e

section Rewatch

variable {z : ZoneId} {cfg : ZoneConfig} {s : State}

theorem State.rewatch_stands (z : ZoneId) (cfg : ZoneConfig) (s : State) :
    ZoneStands z s (s.rewatch settle z cfg) := by
  unfold State.rewatch
  split
  · split
    · exact .refl s
    · exact (State.moveZone_id_stands z _ s).trans (State.moveByWeather_stands z _)
  · split
    · exact State.moveZone_id_stands z _ s
    · exact .refl s
  · split
    · exact State.moveZone_id_stands z _ s
    · exact .refl s
  all_goals exact .refl s

/-- An UNWATCHED zone that has stages goes to CALM, and on to WATCH in windy weather. -/
theorem State.rewatch_unwatched (h : (s.zone z).state = .unwatched) (hs : cfg.stages ≠ []) :
    ((s.zone z).windy →
      s.rewatch settle z cfg = (s.moveZone settle z .calm id).moveZone settle z .watch id) ∧
    (¬ (s.zone z).windy → s.rewatch settle z cfg = s.moveZone settle z .calm id) := by
  have e : s.rewatch settle z cfg =
      (s.moveZone settle z .calm id).moveByWeather settle z := by
    unfold State.rewatch
    rw [h]
    exact if_neg (by simpa using hs)
  have calm : ((s.moveZone settle z .calm id).zone z).state = .calm :=
    (State.moveZone_ends rfl rfl).state
  have same := (State.moveZone_id_stands z .calm s).zone
  rw [e]
  exact ⟨fun w => State.moveByWeather_windy calm (same.windy.2 w),
    fun w => State.moveByWeather_calm calm fun w' => w (same.windy.1 w')⟩

/-- A zone in CALM or WATCH that has no stages goes to UNWATCHED. -/
theorem State.rewatch_without (h : (s.zone z).state = .calm ∨ (s.zone z).state = .watch)
    (hs : cfg.stages = []) : s.rewatch k z cfg = s.moveZone k z .unwatched id := by
  unfold State.rewatch
  rcases h with h | h <;> rw [h] <;> exact if_pos (by simp [hs])

/-- Any other zone stands. -/
theorem State.rewatch_stays (h : (s.zone z).state = .stowing ∨ (s.zone z).state = .stowed ∨
    (s.zone z).state = .returnHold ∨ (s.zone z).state = .unwatched ∧ cfg.stages = [] ∨
      ((s.zone z).state = .calm ∨ (s.zone z).state = .watch) ∧ cfg.stages ≠ []) :
    s.rewatch k z cfg = s := by
  unfold State.rewatch
  rcases h with h | h | h | ⟨h, hs⟩ | ⟨h | h, hs⟩
  · rw [h]
  · rw [h]
  · rw [h]
  · rw [h]
    exact if_pos (by simp [hs])
  · rw [h]
    exact if_neg (by simpa using hs)
  · rw [h]
    exact if_neg (by simpa using hs)

end Rewatch

/-- Two changes of state, the first of which leaves the timers of the second. -/
theorem ZoneEnds.two {z : ZoneId} {s t u : State} {a b l m : ZoneState} {hold deadline : Timer}
    (h : ZoneEnds z s t a l 1 hold deadline)
    (k : ZoneEnds z t u b m 1 (t.zone z).holdTimer (t.zone z).deadline) (time : t.time = s.time) :
    ZoneEnds z s u b m 2 hold deadline := by
  refine ⟨k.state, ?_, k.hold.trans h.hold, k.deadline.trans h.deadline, ?_⟩
  · rw [k.tally, h.tally, BitVec.add_assoc]
    rfl
  · rw [k.last, time]
    rfl

/-- A zone evaluated, then taken under watch or out of it. -/
def State.rewatched (z : ZoneId) (cfg : ZoneConfig) (s : State) : State :=
  (s.evaluate settle false z).rewatch settle z cfg

theorem State.rewatched_stands (z : ZoneId) (cfg : ZoneConfig) (s : State) :
    ZoneStands z (s.withCauses z) (s.rewatched z cfg) :=
  (State.evaluate_stands z s).trans (State.rewatch_stands z cfg _)

section Ends

variable {z : ZoneId} {cfg : ZoneConfig} {s : State}

/-- A zone that stowed enters RETURN_HOLD (R156). -/
theorem State.rewatched_stowed (h : ((s.withCauses z).zone z).causes.any = false)
    (hx : ((s.withCauses z).zone z).state.settles = true) :
    ZoneEnds z (s.withCauses z) (s.rewatched z cfg) .returnHold ((s.withCauses z).zone z).state 1
      (some (1000 * ((s.withCauses z).zone z).cfg.returnHold)) none := by
  have ends := State.moveZone_ends (z := z) (to_ := .returnHold) (v := s.withCauses z)
    (f := Zone.toReturn) rfl rfl
  rw [State.rewatched, (State.evaluate_none h).2.2 _ rfl hx,
    State.rewatch_stays (.inr (.inr (.inl ends.state)))]
  exact ends

/-- The zone stands. -/
theorem ZoneEnds.of_eq {to_ : ZoneState} (h : ((s.withCauses z).zone z).state = to_)
    (e : s.rewatched z cfg = s.withCauses z) :
    ZoneEnds z (s.withCauses z) (s.rewatched z cfg) to_ ((s.withCauses z).zone z).state 0
      ((s.withCauses z).zone z).holdTimer ((s.withCauses z).zone z).deadline := by
  rw [e]
  exact h ▸ .refl z _ _

/-- The zone changes its state once. -/
theorem ZoneEnds.of_move {to_ : ZoneState} (ht : to_.settles = false)
    (e : s.rewatched z cfg = (s.withCauses z).moveZone settle z to_ id) :
    ZoneEnds z (s.withCauses z) (s.rewatched z cfg) to_ ((s.withCauses z).zone z).state 1
      ((s.withCauses z).zone z).holdTimer ((s.withCauses z).zone z).deadline := by
  rw [e]
  exact State.moveZone_ends ht rfl

/-- A zone in RETURN_HOLD stands, and so does an UNWATCHED one that has no stages. -/
theorem State.rewatched_stands_still (h : ((s.withCauses z).zone z).causes.any = false)
    (hx : ((s.withCauses z).zone z).state = .returnHold ∨
      ((s.withCauses z).zone z).state = .unwatched ∧ cfg.stages = []) :
    s.rewatched z cfg = s.withCauses z := by
  have e := (State.evaluate_none (k := settle) h).1 _ rfl (hx.elim .inr fun hx => .inl hx.1)
  rw [State.rewatched, e, State.rewatch_stays]
  exact .inr (.inr (hx.imp id .inl))

/-- An UNWATCHED zone is taken under watch. -/
theorem State.rewatched_unwatched (h : ((s.withCauses z).zone z).causes.any = false)
    (hx : ((s.withCauses z).zone z).state = .unwatched) (hs : cfg.stages ≠ []) :
    (((s.withCauses z).zone z).windy → s.rewatched z cfg =
      ((s.withCauses z).moveZone settle z .calm id).moveZone settle z .watch id) ∧
    (¬ ((s.withCauses z).zone z).windy →
      s.rewatched z cfg = (s.withCauses z).moveZone settle z .calm id) := by
  rw [State.rewatched, (State.evaluate_none h).1 _ hx (.inl rfl)]
  exact State.rewatch_unwatched hx hs

/-- A zone in CALM or WATCH that still has stages moves by its weather. -/
theorem State.rewatched_weather (h : ((s.withCauses z).zone z).causes.any = false)
    (hx : ((s.withCauses z).zone z).state = .calm ∨ ((s.withCauses z).zone z).state = .watch)
    (hs : cfg.stages ≠ []) : s.rewatched z cfg = (s.withCauses z).moveByWeather settle z := by
  rw [State.rewatched, (State.evaluate_none h).2.1 _ rfl hx, State.rewatch_stays]
  exact .inr (.inr (.inr (.inr ⟨State.moveByWeather_state hx, hs⟩)))

/-- A zone in CALM or WATCH goes out of watch. -/
theorem State.rewatched_without (h : ((s.withCauses z).zone z).causes.any = false)
    (hx : ((s.withCauses z).zone z).state = .calm ∨ ((s.withCauses z).zone z).state = .watch)
    (hs : cfg.stages = []) (w : ¬ ((s.withCauses z).zone z).windy)
    (w' : ¬ ((s.withCauses z).zone z).stilled) :
    s.rewatched z cfg = (s.withCauses z).moveZone settle z .unwatched id := by
  have e : (s.withCauses z).moveByWeather settle z = s.withCauses z :=
    hx.elim (State.moveByWeather_calm · w) (State.moveByWeather_watch · w')
  rw [State.rewatched, (State.evaluate_none h).2.1 _ rfl hx, e, State.rewatch_without hx hs]

end Ends

end Sys2Proof.Machine
end

section
/-! PROOFS. CONFIGURE_ZONE as a whole (R7, R146 to R150, R161). -/

namespace Sys2Proof.Machine

section Take

variable {s : State} {page : PageId} {target : BitVec 16} {raw : RawZoneConfig} {z : ZoneId}

/-- The checks of CONFIGURE_ZONE. -/
theorem takeConfigureZone_refused (ht : target.toNat = z.val)
    (h : RawZone.badValue raw = true ∨ ¬ ((RawZone.config raw).release ≤ (RawZone.config raw).watch ∧
      (RawZone.config raw).watch ≤ (RawZone.config raw).stow)) :
    s.takeConfigureZone settle page target raw = s.answer page .badValue [] := by
  unfold State.takeConfigureZone
  rw [State.onZone_eq ht]
  dsimp only
  split
  · rfl
  · rename_i n
    exact if_neg (h.resolve_left n)

theorem takeConfigureZone_passed (ht : target.toNat = z.val) (h : RawZone.badValue raw = false)
    (ho : (RawZone.config raw).release ≤ (RawZone.config raw).watch ∧
      (RawZone.config raw).watch ≤ (RawZone.config raw).stow) :
    s.takeConfigureZone settle page target raw =
      (s.configureZone settle z (RawZone.config raw)).answerZone page
        (Result.ofClamped (RawZone.clamped raw)) z := by
  unfold State.takeConfigureZone
  rw [State.onZone_eq ht]
  dsimp only
  rw [if_neg (by rw [h]; decide), if_pos ho]

end Take

/-- The zone judged and with its causes, as CONFIGURE_ZONE evaluates it. -/
theorem State.zone_rejudged (s : State) (z : ZoneId) (cfg : ZoneConfig) :
    ((s.modZone z (fun _ => s.rejudged z cfg)).withCauses z).zone z =
      { s.rejudged z cfg with causes := (s.rejudged z cfg).causesNow s.lines.siteStow } := by
  unfold State.withCauses
  rw [State.modZone_modZone, State.zone_modZone, if_pos rfl]
  rfl

/-- Without stages there is no weather. -/
theorem State.rejudged_without (s : State) (z : ZoneId) {cfg : ZoneConfig} (h : cfg.stages = []) :
    ¬ (s.rejudged z cfg).windy ∧ ¬ (s.rejudged z cfg).stilled := by
  have speed : (s.rejudged z cfg).speed = none := by simp [State.rejudged, Zone.judgeWeather, h, greatest]
  have gust : (s.rejudged z cfg).gust = false := by simp [State.rejudged, Zone.judgeWeather, h]
  simp [Zone.windy, Zone.stilled, speed, gust]

/-- The change of state that the statement of R146 writes out. -/
theorem State.moveZone_id (z : ZoneId) (to_ : ZoneState) (v : State) :
    v.moveZone settle z to_ id =
      (let noted := (v.modZone z (fun y => { y with
        state := to_,
        last := some { deadline := false, left := (v.zone z).state, entered := to_,
                       causes := y.causes, time := v.time.time } })).bump (.zoneChanges z)
      eachOf (noted.zone z).members (State.judgeShed settle) noted) := by
  rw [State.moveZone_eq, State.noted_id]

theorem ZoneState.settles_iff {x : ZoneState} : x.settles = true ↔ x = .stowing ∨ x = .stowed := by
  cases x <;> simp [ZoneState.settles]

theorem State.configureZone_stands (s : State) (z : ZoneId) (cfg : ZoneConfig) :
    ZoneStands z ((s.modZone z (fun _ => s.rejudged z cfg)).withCauses z)
      (s.configureZone settle z cfg) := by
  rw [State.configureZone_eq]
  exact State.rewatched_stands z cfg _

/-- With a cause present the zone ends the take in STOWING or STOWED. -/
theorem State.configureZone_causes {s : State} {z : ZoneId} {cfg : ZoneConfig}
    (h : ((s.rejudged z cfg).causesNow s.lines.siteStow).any = true) :
    ((s.configureZone settle z cfg).zone z).state.settles = true := by
  have due : (((s.modZone z (fun _ => s.rejudged z cfg)).withCauses z).zone z).causes.any = true := by
    rw [State.zone_rejudged]
    exact h
  have settles := (State.evaluate_causes due).2
  rw [State.configureZone_eq, State.rewatch_stays]
  · exact settles
  · exact (ZoneState.settles_iff.1 settles).imp id .inl

/-- The state in which CONFIGURE_ZONE evaluates the zone, as the zone ends it. -/
theorem ZoneEnds.of_judged {z : ZoneId} {cfg : ZoneConfig} {s u : State} {to_ left : ZoneState}
    {n : BitVec 16} {hold deadline : Timer}
    (h : ZoneEnds z ((s.modZone z (fun _ => s.rejudged z cfg)).withCauses z) u to_ left n hold
      deadline) : ZoneEnds z s u to_ left n hold deadline := by
  refine ⟨h.state, h.tally, h.hold, h.deadline, h.last.trans ?_⟩
  rw [State.zone_rejudged]
  rfl

/-- The facts of `ZoneEnds`, one after the other. -/
theorem ZoneEnds.parts {z : ZoneId} {s u : State} {to_ left : ZoneState} {n : BitVec 16}
    {hold deadline : Timer} (h : ZoneEnds z s u to_ left n hold deadline) :
    (u.zone z).state = to_ ∧ u.tally (.zoneChanges z) = s.tally (.zoneChanges z) + n ∧
      (u.zone z).holdTimer = hold ∧ (u.zone z).deadline = deadline ∧
      (u.zone z).last = if n = 0 then (s.zone z).last else some {
        deadline := false, left := left, entered := to_, causes := (u.zone z).causes,
        time := s.time.time } :=
  ⟨h.state, h.tally, h.hold, h.deadline, h.last⟩

/-- Where CONFIGURE_ZONE leaves a zone without a stow cause (R150, R161). -/
theorem State.configureZone_ends (s : State) (z : ZoneId) (cfg : ZoneConfig)
    (h : ((s.rejudged z cfg).causesNow s.lines.siteStow).any = false) :
    let u := s.configureZone settle z cfg
    let old := s.zone z
    let j := s.rejudged z cfg
    let stays (to_ left : ZoneState) (changes : BitVec 16) :=
      ZoneEnds z s u to_ left changes old.holdTimer old.deadline
    (old.state.settles = true →
      ZoneEnds z s u .returnHold old.state 1 (some (1000 * cfg.returnHold)) none) ∧
    (old.state = .returnHold → stays .returnHold old.state 0) ∧
    (old.state = .unwatched → cfg.stages = [] → stays .unwatched old.state 0) ∧
    (old.state = .unwatched → cfg.stages ≠ [] → j.windy → stays .watch .calm 2) ∧
    (old.state = .unwatched → cfg.stages ≠ [] → ¬ j.windy → stays .calm old.state 1) ∧
    (old.state = .calm ∨ old.state = .watch → cfg.stages = [] → stays .unwatched old.state 1) ∧
    (old.state = .calm → cfg.stages ≠ [] → j.windy → stays .watch old.state 1) ∧
    (old.state = .calm → cfg.stages ≠ [] → ¬ j.windy → stays .calm old.state 0) ∧
    (old.state = .watch → cfg.stages ≠ [] → j.stilled → stays .calm old.state 1) ∧
    (old.state = .watch → cfg.stages ≠ [] → ¬ j.stilled → stays .watch old.state 0) := by
  intro u old j stays
  have zone := s.zone_rejudged z cfg
  generalize hv : s.modZone z (fun _ => s.rejudged z cfg) = v at zone
  have hu : u = v.rewatched z cfg := hv ▸ State.configureZone_eq z cfg s
  have none_due : ((v.withCauses z).zone z).causes.any = false := by rw [zone]; exact h
  have state : ((v.withCauses z).zone z).state = old.state := by rw [zone]; rfl
  have windy : ((v.withCauses z).zone z).windy ↔ j.windy := by rw [zone]; rfl
  have stilled : ((v.withCauses z).zone z).stilled ↔ j.stilled := by rw [zone]; rfl
  have whole (to_ left : ZoneState) (n : BitVec 16)
      (e : ZoneEnds z (v.withCauses z) (v.rewatched z cfg) to_ left n
        ((v.withCauses z).zone z).holdTimer ((v.withCauses z).zone z).deadline) :
      stays to_ left n := by
    rw [zone] at e
    subst hv
    have := e.of_judged
    rwa [← hu] at this
  have keeps (to_) (hx : old.state = to_) (e : v.rewatched z cfg = v.withCauses z) :
      stays to_ old.state 0 := whole _ _ _ (state ▸ .of_eq (state.trans hx) e)
  have moves (to_ : ZoneState) (ht : to_.settles = false)
      (e : v.rewatched z cfg = (v.withCauses z).moveZone settle z to_ id) :
      stays to_ old.state 1 := whole _ _ _ (state ▸ .of_move ht e)
  have weather (hx : old.state = .calm ∨ old.state = .watch) (hs : cfg.stages ≠ []) :=
    State.rewatched_weather none_due (state.symm ▸ hx) hs
  refine ⟨fun hx => ?_, fun hx => ?_, fun hx hs => ?_, fun hx hs w => ?_, fun hx hs w => ?_,
    fun hx hs => ?_, fun hx hs w => ?_, fun hx hs w => ?_, fun hx hs w => ?_, fun hx hs w => ?_⟩
  · have e := State.rewatched_stowed (cfg := cfg) none_due (state.symm ▸ hx)
    rw [zone] at e
    subst hv
    exact hu ▸ e.of_judged
  · exact keeps _ hx (State.rewatched_stands_still none_due (.inl (state.trans hx)))
  · exact keeps _ hx (State.rewatched_stands_still none_due (.inr ⟨state.trans hx, hs⟩))
  · refine whole _ _ _ ?_
    rw [(State.rewatched_unwatched none_due (state.trans hx) hs).1 (windy.2 w)]
    have calm := State.moveZone_ends (z := z) (to_ := .calm) (f := id) (v := v.withCauses z) rfl rfl
    have watch := State.moveZone_ends (z := z) (to_ := .watch) (f := id)
      (v := (v.withCauses z).moveZone settle z .calm id) rfl rfl
    rw [calm.state] at watch
    refine calm.two watch ?_
    exact (State.moveZone_id_stands z .calm (v.withCauses z)).time
  · exact moves _ rfl ((State.rewatched_unwatched none_due (state.trans hx) hs).2 (mt windy.1 w))
  · obtain ⟨w, w'⟩ := s.rejudged_without z hs
    exact moves _ rfl (State.rewatched_without none_due (state.symm ▸ hx) hs (mt windy.1 w)
      (mt stilled.1 w'))
  · exact moves _ rfl ((weather (.inl hx) hs).trans
      (State.moveByWeather_windy (state.trans hx) (windy.2 w)))
  · exact keeps _ hx ((weather (.inl hx) hs).trans
      (State.moveByWeather_calm (state.trans hx) (mt windy.1 w)))
  · exact moves _ rfl ((weather (.inr hx) hs).trans
      (State.moveByWeather_stilled (state.trans hx) (stilled.2 w)))
  · exact keeps _ hx ((weather (.inr hx) hs).trans
      (State.moveByWeather_watch (state.trans hx) (mt stilled.1 w)))

/-- Settles O45. -/
theorem configureZoneReplacesAndEvaluates : Obligations.ConfigureZoneReplacesAndEvaluates := by
  refine ⟨fun raw => ⟨RawZone.config_eq raw, RawZone.clamped_eq_false raw⟩, Zone.judgeWeather_facts,
    State.usableStage_iff, fun s page target raw z hf ht => ?_⟩
  intro cfg listed bad ordered
  have hbad : RawZone.badValue raw = true ↔ bad := RawZone.badValue_iff raw
  refine ⟨fun h => request_answer hf (takeConfigureZone_refused ht (h.imp hbad.2 id)),
    fun hb ho => ⟨s.configureZone settle z cfg, ?_, ?_⟩⟩
  · refine (request_eq hf _).trans ?_
    rw [takeConfigureZone_passed ht (Bool.eq_false_iff.2 fun e => hb (hbad.1 e)) ho]
    rfl
  intro judged evaluated moves e windy stilled
  have hm (to_ : ZoneState) (v : State) : v.moveZone settle z to_ id = moves to_ v :=
    State.moveZone_id z to_ v
  have zone := s.zone_rejudged z cfg
  have same := (State.evaluate_stands z (s.modZone z (fun _ => s.rejudged z cfg))).zone
  have hu : s.configureZone settle z cfg = evaluated.rewatch settle z cfg :=
    State.configureZone_eq z cfg s
  have evaluated_windy : (evaluated.zone z).windy ↔ windy := same.windy.trans (by rw [zone]; rfl)
  obtain ⟨⟨hcfg, hspeed, hgust, hgustStow, hblind, hblindTimer, horder, hcauses⟩, hother, htime,
    hsensing, hbytes⟩ := s.configureZone_stands z cfg
  rw [zone] at hcfg hspeed hgust hgustStow hblind hblindTimer horder hcauses
  have due : ((s.configureZone settle z cfg).zone z).causes =
      (s.rejudged z cfg).causesNow s.lines.siteStow := hcauses
  refine ⟨fun he hs w => ?_, fun he hs w => ?_, fun he hs => ?_, fun he => ?_, hcfg, hspeed, hgust,
    hgustStow, hblind, hblindTimer, horder, hcauses, fun h => ?_, fun h => ?_, fun y hy => ?_, htime,
    hsensing, hbytes⟩
  · have w' := (State.rewatch_unwatched he hs).1 (evaluated_windy.2 w)
    rw [hu, w', hm, hm]
  · rw [hu, (State.rewatch_unwatched he hs).2 (mt evaluated_windy.1 w), hm]
  · rw [hu, State.rewatch_without he hs, hm]
  · rw [hu, State.rewatch_stays he]
  · exact ZoneState.settles_iff.1 (State.configureZone_causes (due ▸ h))
  · obtain ⟨stowed, returns, unwatched, rises, calms, drops, winds, calm, stills, watch⟩ :=
      s.configureZone_ends z cfg (due ▸ h)
    refine ⟨fun hx => ?_, fun hx hs => ?_, fun hx => (stowed (ZoneState.settles_iff.2 hx)).parts,
      fun hx => (returns hx).parts, fun hx hs => (unwatched hx hs).parts,
      fun hx hs w => (rises hx hs w).parts, fun hx hs w => (calms hx hs w).parts,
      fun hx hs => (drops hx hs).parts, fun hx hs w => (winds hx hs w).parts,
      fun hx hs w => (calm hx hs w).parts, fun hx hs w => (stills hx hs w).parts,
      fun hx hs w => (watch hx hs w).parts⟩
    · cases e : (s.zone z).state with
      | stowing | stowed => exact (stowed (by rw [e]; rfl)).state
      | returnHold => exact (returns e).state
      | unwatched | calm | watch => rw [e] at hx; cases hx
    · cases e : (s.zone z).state with
      | unwatched => exact (unwatched e hs).state
      | calm => exact (drops (.inl e) hs).state
      | watch => exact (drops (.inr e) hs).state
      | stowing | stowed | returnHold => rw [e] at hx; cases hx
  · obtain ⟨h1, h2⟩ := hother y hy
    have e : ((s.modZone z (fun _ => s.rejudged z cfg)).withCauses z).zone y = s.zone y := by
      rw [State.withCauses, State.modZone_modZone, State.zone_modZone, if_neg hy.symm]
    rw [h1, h2, e]
    exact ⟨rfl, rfl⟩

end Sys2Proof.Machine
end

section
/-! PROOFS. CONFIGURE_STATION: the numbers it carries, its checks, and what its take leaves (R7, R84, R145). -/

namespace Sys2Proof.Machine

variable {k : Settle}

/-! ### The numbers and the checks (R84) -/

/-- The axis of a request's numbers. -/
def RawStation.axis (raw : RawStationConfig) (ax : AxisId) : RawAxisConfig :=
  if ax = .az then raw.az else raw.el

theorem RawStation.config_axis (raw : RawStationConfig) (ax : AxisId) :
    (RawStation.config raw).axis ax = RawAxis.config ax (RawStation.axis raw ax) := by
  cases ax <;> rfl

/-- A number of the request lay outside its range. -/
theorem RawStation.clamped_eq_false (raw : RawStationConfig) : RawStation.clamped raw = false ↔
    (∀ ax, RawAxis.clamped ax (RawStation.axis raw ax) = false) ∧
      (0 ≤ raw.stowEl.toInt ∧ raw.stowEl.toInt ≤ 92000000) ∧
      (0 ≤ raw.shedEl.toInt ∧ raw.shedEl.toInt ≤ 92000000) ∧
      1 ≤ raw.holdIdle.toNat ∧ raw.holdIdle.toNat ≤ 3600 := by
  have axes : (∀ ax, RawAxis.clamped ax (RawStation.axis raw ax) = false) ↔
      RawAxis.clamped .az raw.az = false ∧ RawAxis.clamped .el raw.el = false :=
    ⟨fun h => ⟨h .az, h .el⟩, fun h ax => by cases ax; exacts [h.1, h.2]⟩
  simp only [RawStation.clamped, RawStation.config, Bool.or_eq_false_iff, axes, and_assoc,
    clampInt_bne (show (0 : Int) ≤ 92000000 by decide), clampNat_bne (show 1 ≤ 3600 by decide)]

theorem AxisState.admitsConfig_iff {x : AxisState} :
    x.admitsConfig = true ↔ x = .braked ∨ x = .stowed ∨ x = .faulted := by
  cases x <;> simp [AxisState.admitsConfig]

theorem RawStation.badRef_iff (b : BitVec 8) :
    RawStation.badRef b = true ↔ b ≠ 0xFF ∧ 15 < b.toNat := by
  simp [RawStation.badRef]

theorem RawStation.badValue_iff (raw : RawStationConfig) : RawStation.badValue raw = true ↔
    3 < raw.zone.toNat ∨ (raw.snow ≠ 0xFF ∧ 15 < raw.snow.toNat) ∨
      (raw.surface ≠ 0xFF ∧ 15 < raw.surface.toNat) ∨
        (raw.precip ≠ 0xFF ∧ 15 < raw.precip.toNat) := by
  simp only [RawStation.badValue, Bool.or_eq_true, decide_eq_true_eq, RawStation.badRef_iff, or_assoc]

theorem AxisId.exists_iff {P : AxisId → Prop} : (∃ ax, P ax) ↔ P .az ∨ P .el :=
  ⟨fun ⟨ax, h⟩ => by cases ax; exacts [.inl h, .inr h], fun h => h.elim (⟨_, ·⟩) (⟨_, ·⟩)⟩

theorem StationConfig.inconsistent_iff (c : StationConfig) : c.inconsistent = true ↔
    ∃ ax, (c.axis ax).lmax < (c.axis ax).lmin ∨ (c.axis ax).slewWatts < (c.axis ax).trackWatts := by
  rw [AxisId.exists_iff]
  simp only [StationConfig.inconsistent, StationConfig.axis, Bool.or_eq_true, decide_eq_true_eq]
  tauto

theorem Axis.keptOutside_iff (a : Axis) (c : AxisConfig) : a.keptOutside c = true ↔
    a.state = .stowed ∧ (a.c < c.lmin ∨ c.lmax < a.c) := by
  simp [Axis.keptOutside]

section Take

variable {s : State} {page : PageId} {target : BitVec 16} {raw : RawStationConfig} {st : StationId}

/-- CONFIGURE_STATION on a station that is not retired: its checks in order, then the configuration. -/
theorem takeConfigureStation_eq (ht : target.toNat = st.val) (hr : (s.station st).retired = false) :
    s.takeConfigureStation settle page target raw =
      (if !((s.station st).az.state.admitsConfig && (s.station st).el.state.admitsConfig) then
        s.answer page .notNow []
      else if RawStation.badValue raw then s.answer page .badValue []
      else if (RawStation.config raw).inconsistent then s.answer page .badValue []
      else if (s.station st).az.keptOutside (RawStation.config raw).az ||
          (s.station st).el.keptOutside (RawStation.config raw).el then s.answer page .notNow []
      else (s.configure settle st (RawStation.config raw)).answer page
        (Result.ofClamped (RawStation.clamped raw)) []) :=
  State.onStation_eq ht hr _

end Take

/-! ### The source and the member sets (R84, R145) -/

theorem State.redecideSource_same {s : State} {st : StationId}
    (h : (s.station st).retired = true ∨ (s.station st).target.source = (s.sourceOf st).1 ∧
      (s.station st).target.row = (s.sourceOf st).2) : s.redecideSource k st = s :=
  if_pos h

theorem State.redecideSource_changed {s : State} {st : StationId}
    (hr : (s.station st).retired = false)
    (h : ¬ ((s.station st).target.source = (s.sourceOf st).1 ∧
      (s.station st).target.row = (s.sourceOf st).2)) :
    s.redecideSource k st = s.changeAxes k st (fun x =>
      { x with target := x.retarget (s.sourceOf st).1 (s.sourceOf st).2 }.answerConfigured
        (s.sourceOf st).1 (s.sourceOf st).2) :=
  if_neg (by simp [hr, h])

/-- A zone that a station leaves. -/
def Zone.without (st : StationId) (z : Zone) : Zone :=
  { z with members := z.members.filter (fun y => y != st),
           exposed := z.exposed.filter (fun e => e.1 != st) }

/-- A zone that a station joins. -/
def Zone.joined (st : StationId) (z : Zone) : Zone :=
  { z with members := insertStation st z.members }

/-- The state with the station among the members of its new zone: the old zone has been tested. -/
def State.rejoined (k : Settle) (st : StationId) (old new : ZoneId) (s : State) : State :=
  ((s.modZone old (Zone.without st)).stowedTest k old).modZone new (Zone.joined st)

/-- A station that moves between the member sets (R145). -/
theorem State.moveMember_eq {s : State} {st : StationId} {old new : ZoneId}
    (hn : (s.station st).cfg.zone = new) (h : old ≠ new) : s.moveMember k st old =
      (let joined := s.rejoined k st old new
      let u := joined.stowMember k st
      if (joined.zone new).state.stows then
        if (u.zone new).state = .stowed ∧ (u.station st).stowed = false ∧
          (u.zone new).isExposed st = false then u.enterStowing k new
        else u
      else joined) := by
  subst hn
  exact if_neg h

theorem State.moveMember_same {s : State} {st : StationId} {old : ZoneId}
    (h : old = (s.station st).cfg.zone) : s.moveMember k st old = s :=
  if_pos h

/-- A member that its zone waits for: one axis not STOWED, and outside the exposed set. -/
theorem Station.waits_iff (x : Station) (z : Zone) (st : StationId) :
    x.stowed = false ∧ z.isExposed st = false ↔
      (x.az.state ≠ .stowed ∨ x.el.state ≠ .stowed) ∧ z.exposedReason st = none := by
  refine and_congr ?_ ?_
  · simp only [Station.stowed, Bool.and_eq_false_iff, beq_eq_false_iff_ne]
  · simp [Zone.isExposed]

/-- What settling does once a station has moved between the member sets. -/
theorem State.moveMember_kept {s : State} {st : StationId} {old new : ZoneId}
    (hn : (s.station st).cfg.zone = new) (h : old ≠ new) :
    Settled ((s.modZone old (Zone.without st)).modZone new (Zone.joined st))
      (s.moveMember settle st old) := by
  have joined : Settled ((s.modZone old (Zone.without st)).modZone new (Zone.joined st))
      (s.rejoined settle st old new) :=
    .modZone_congr (.stowedTest Kept.settle old _) new (fun _ => rfl) fun h =>
      { h with members := congrArg (insertStation st) h.members }
  rw [State.moveMember_eq hn h]
  dsimp only
  generalize s.rejoined settle st old new = u at *
  split
  · have stowed := Kept.stowMember Kept.settle st u
    split
    · rename_i c
      refine joined.trans (stowed.trans (.trans (.modZone (.toStowing ?_))
        (.enterStowing Kept.settle new _)))
      rw [c.1]
      rfl
    · exact joined.trans stowed
  · exact joined

/-- What settling does once a station's configuration is in place and the member sets follow it. -/
theorem State.configure_kept (st : StationId) (cfg : StationConfig) (s : State) :
    let own := s.modStation st (fun x => { x with cfg := cfg })
    Settled (if (s.station st).cfg.zone = cfg.zone then own else
        (own.modZone (s.station st).cfg.zone (Zone.without st)).modZone cfg.zone (Zone.joined st))
      (s.configure settle st cfg) := by
  intro own
  have zone : (own.station st).cfg.zone = cfg.zone := by
    rw [State.station_modStation, if_pos rfl]
  have rest (u : State) : Settled u
      (((u.redecideSource settle st).formClaim settle st).axesChanged settle st) :=
    ((Kept.redecideSource Kept.settle st u).trans (.formClaim Kept.settle st _)).trans
      (.axesChanged Kept.settle st _)
  refine Kept.trans ?_ (rest _)
  split
  · rename_i e
    rw [State.moveMember_same (e.trans zone.symm)]
    exact .refl own
  · rename_i e
    exact State.moveMember_kept zone e

/-- Settles O28. -/
theorem configureStationChecksAndReplaces : Obligations.ConfigureStationChecksAndReplaces := by
  refine ⟨fun raw => ?_, fun s page target raw st hf ht hr => ?_, fun k s st => ?_,
    fun k s st old => ?_⟩
  · refine ⟨fun ax => ?_, clampInt_eq (by decide) _, clampInt_eq (by decide) _,
      clampNat_eq (by decide) _, fun h => Nat.mod_eq_of_lt (by omega), ⟨rfl, rfl, rfl⟩, ?_⟩
    · exact RawStation.config_axis raw ax ▸ RawAxis.config_eq ax (RawStation.axis raw ax)
    · refine (RawStation.clamped_eq_false raw).trans (and_congr ?_ Iff.rfl)
      exact forall_congr' fun ax => RawAxis.clamped_eq_false ax (RawStation.axis raw ax)
  · intro x cfg admits badRef bad inconsistent outside refused
    have take := takeConfigureStation_eq (page := page) (raw := raw) ht hr
    have hadmits : (x.az.state.admitsConfig && x.el.state.admitsConfig) = true ↔
        admits x.az ∧ admits x.el := by
      rw [Bool.and_eq_true]
      exact and_congr AxisState.admitsConfig_iff AxisState.admitsConfig_iff
    have hbad : RawStation.badValue raw = true ↔ bad := RawStation.badValue_iff raw
    have hincons : cfg.inconsistent = true ↔ inconsistent := cfg.inconsistent_iff
    have houtside : (x.az.keptOutside cfg.az || x.el.keptOutside cfg.el) = true ↔ outside := by
      rw [Bool.or_eq_true]
      exact (or_congr (Axis.keptOutside_iff _ _) (Axis.keptOutside_iff _ _)).trans
        (AxisId.exists_iff (P := fun ax => (x.axis ax).state = .stowed ∧
          ((x.axis ax).c < (cfg.axis ax).lmin ∨ (cfg.axis ax).lmax < (x.axis ax).c))).symm
    refine ⟨fun h => ?_, fun ha he h => ?_, fun ha he hb hi h => ?_, fun ha he hb hi ho => ?_⟩
    · refine request_answer hf (take.trans (if_pos ?_))
      rw [Bool.not_eq_true', ← Bool.not_eq_true]
      exact mt hadmits.1 h
    all_goals
      have passed : (!((s.station st).az.state.admitsConfig &&
          (s.station st).el.state.admitsConfig)) ≠ true := by
        rw [hadmits.2 ⟨ha, he⟩]
        decide
      rw [if_neg passed] at take
    · refine request_answer hf (take.trans ?_)
      by_cases b : bad
      · exact if_pos (hbad.2 b)
      · exact (if_neg (mt hbad.1 b)).trans (if_pos (hincons.2 (h.resolve_left b)))
    all_goals rw [if_neg (mt hbad.1 hb), if_neg (mt hincons.1 hi)] at take
    · exact request_answer hf (take.trans (if_pos (houtside.2 h)))
    · rw [if_neg (mt houtside.1 ho)] at take
      intro own moved
      refine ⟨s.configure settle st cfg, State.configure_kept st cfg s, rfl, ?_⟩
      refine (request_eq hf _).trans ?_
      rw [take]
      rfl
  · intro d x same
    refine ⟨State.redecideSource_same, fun h n => ?_⟩
    exact State.redecideSource_changed h n
  · intro new
    refine ⟨State.moveMember_same, fun h => ?_⟩
    intro left joined u waits
    have e := State.moveMember_eq (k := k) (s := s) (st := st) (old := old) (new := new) rfl h
    have hw : waits ↔ (u.zone new).state = .stowed ∧ (u.station st).stowed = false ∧
        (u.zone new).isExposed st = false :=
      and_congr Iff.rfl (Station.waits_iff _ _ st).symm
    refine ⟨fun hs => e.trans (if_neg ?_), fun hs => ⟨fun w => ?_, fun w => ?_⟩⟩
    · exact Bool.eq_false_iff.1 hs
    · exact e.trans ((if_pos hs).trans (if_pos (hw.1 w)))
    · exact e.trans ((if_pos hs).trans (if_neg (mt hw.2 w)))

end Sys2Proof.Machine
end

section
/-! PROOFS. Array time: SET_TIME (R20, R21), the site pulse (R21 to R23) and the pulse watch (R24). -/

namespace Sys2Proof.Machine

/-! ### A command that acts under a condition -/

section Guarded

variable {s : State} {c : State → Prop} [DecidablePred c] {f : State → State}

theorem event_guarded (h : c s) :
    event s (fun s => if c s then f s else s) = .next (s.publish (f s)) := by
  rw [event_eq, if_pos h]

theorem event_unguarded (h : ¬ c s) : event s (fun s => if c s then f s else s) = .next s := by
  rw [event_of_blocks (by rw [if_neg h]), if_neg h]

end Guarded

/-! ### The effects on TU -/

/-- A change of TU counts nothing. -/
theorem Counts.modTime (f : TimeUnit → TimeUnit) (s : State) : Counts [] s (s.modTime f) :=
  .of_eq rfl rfl rfl

theorem State.blocks_modTime (f : TimeUnit → TimeUnit) (s : State) :
    (s.modTime f).blocks = { s.blocks with time := f s.time } := rfl

/-- A counted step of array time is one TIME_STEPS (R20, R21, R23). -/
theorem Counts.countStep (step : Bool) (s : State) :
    Counts (if step then [.timeSteps] else []) s (s.countStep step) := by
  cases step
  · exact .refl s
  · exact .bump s .timeSteps

@[simp] theorem State.blocks_countStep (step : Bool) (s : State) :
    (s.countStep step).blocks = s.blocks := by
  cases step <;> rfl

@[simp] theorem State.countStep_time (step : Bool) (s : State) : (s.countStep step).time = s.time := by
  cases step <;> rfl

/-- What TU counts is its difference of more than 2 ms, whichever time is the later. -/
theorem timeSteps_iff (a b : Nat) : timeSteps a b = true ↔ b + 2 < a ∨ a + 2 < b := by
  simp [timeSteps, or_comm]

/-! ### PULSE_WATCH_EXPIRY (R24) -/

theorem exec_pulseWatchExpiry_out {s : State} (hl : s.time.state = .locked)
    (hw : s.time.watch = some 0) : exec .pulseWatchExpiry s = .next (s.publish
      ((s.modTime (fun t => { t with state := .free, watch := none })).bump .pulseLosses)) := by
  change execPulseWatchExpiry s = _
  unfold execPulseWatchExpiry
  exact event_guarded ⟨hl, hw⟩

theorem exec_pulseWatchExpiry_not {s : State}
    (h : s.time.state ≠ .locked ∨ s.time.watch ≠ some 0) : exec .pulseWatchExpiry s = .next s := by
  change execPulseWatchExpiry s = _
  unfold execPulseWatchExpiry
  exact event_unguarded fun c => h.elim (fun n => n c.1) (fun n => n c.2)

/-- Settles O17: the run-out is one change of TU, counted once. -/
theorem pulseWatchFreesTime : Obligations.PulseWatchFreesTime :=
  fun s => ⟨fun hl hw => ⟨_, exec_pulseWatchExpiry_out hl hw, rfl,
    ((Counts.modTime _ s).trans (.bump _ _)).publish⟩, exec_pulseWatchExpiry_not⟩

/-! ### SET_TIME (R20, R21) -/

section SetTime

variable {s : State} {page : PageId} {value : BitVec 48}

theorem exec_setTime (h : s.exchange.inFlight = none) (mode : BitVec 8) :
    exec (.setTime page value mode) s = .next (s.publish (s.takeSetTime page value mode)) :=
  request_eq h _

theorem State.takeSetTime_immediate :
    s.takeSetTime page value 0 = (s.setTimeNow value.toNat).answer page .done [] := rfl

theorem State.takeSetTime_atPulse (h : value.toNat % 1000 = 0) : s.takeSetTime page value 1 =
    (s.modTime (fun t => { t with pendingSet := some value.toNat })).answer page .done [] :=
  if_pos h

theorem State.takeSetTime_refused (h : value.toNat % 1000 ≠ 0) :
    s.takeSetTime page value 1 = s.answer page .badValue [] :=
  if_neg h

end SetTime

/-- SET_TIME at once counts its step (R20). -/
theorem Counts.setTimeNow (value : Nat) (s : State) :
    Counts (if s.time.time + 2 < value ∨ value + 2 < s.time.time then [.timeSteps] else []) s
      (s.setTimeNow value) := by
  have h := (Counts.modTime _ s).trans (.countStep (timeSteps value s.now) (s.modTime (fun t =>
    { t with time := value, state := .free, watch := none, pendingSet := none })))
  simp only [timeSteps_iff, List.nil_append] at h
  exact h

/-- Settles O15: the three takes, each answered on its page. -/
theorem setTimeSetsOrPends : Obligations.SetTimeSetsOrPends := by
  refine fun s page value h => ⟨?_, fun hv => ?_, fun hv => ?_⟩
  · refine ⟨_, exec_setTime h 0, ?_, ?_⟩ <;> rw [State.takeSetTime_immediate]
    · simp only [State.blocks_publish, State.blocks_answer, State.setTimeNow, State.blocks_countStep,
        State.blocks_modTime]
    · exact (Answers.of_counts (.setTimeNow _ s) page .done []).publish
  · refine ⟨_, exec_setTime h 1, ?_, ?_⟩ <;> rw [State.takeSetTime_atPulse hv]
    · rfl
    · exact (Answers.of_counts (.modTime _ s) page .done []).publish
  · refine ⟨_, exec_setTime h 1, ?_, ?_⟩ <;> rw [State.takeSetTime_refused hv]
    · rfl
    · exact (Answers.of_counts (.refl s) page .badValue []).publish

/-! ### Starts of a table that an event brings (R109) -/

/-- What an arriving start keeps, while the table it starts issues its entries. -/
theorem Kept.arriveStart (x : TableId) (s : State) :
    Kept (fun _ => True) False s (s.arriveStart Machine.settle x) := by
  have hk (s : State) : Kept (fun _ => True) False s (Machine.settle s) := (Kept.settle s).weaken
  unfold State.arriveStart
  dsimp only
  split
  case isTrue h =>
    split
    · exact .modIssued trivial rfl rfl rfl fun n => ⟨n, rfl, rfl⟩
    · exact (Kept.beginTable hk trivial false h.1).trans (Kept.judgeEnd Kept.settle 2 x _).weaken
  case isFalse => exact .refl s

theorem Kept.pulseTable (x : TableId) (s : State) :
    Kept (fun _ => True) False s (s.pulseTable Machine.settle x) := by
  unfold State.pulseTable
  split
  · exact .refl s
  · split
    · exact .arriveStart x s
    · exact .refl s

/-- A taken pulse means nothing to a table that does not wait for one. -/
theorem State.pulseTable_apart {s : State} {x : TableId}
    (h : ∀ l, (s.table x).launch = some l → l.source ≠ .nextPulse) : s.pulseTable settle x = s := by
  unfold State.pulseTable
  split
  · rfl
  · next l e => exact if_neg (h l e)

/-! ### The site pulse (R21 to R23) -/

/-- What a taken pulse does to TU, before JS hears of it (R22). -/
def State.pulsed (s : State) : State :=
  (s.modTime (fun t => { t with sincePulse := some 0 })).pulseTime

/-- A taken pulse handed to both tables. -/
def State.pulseTables (s : State) : State := (s.pulseTable settle 0).pulseTable settle 1

theorem Kept.pulseTables (s : State) : Kept (fun _ => True) False s s.pulseTables :=
  (Kept.pulseTable 0 s).trans (.pulseTable 1 _)

theorem State.pulseTables_apart {s : State}
    (h : ∀ x l, (s.table x).launch = some l → l.source ≠ .nextPulse) : s.pulseTables = s := by
  rw [State.pulseTables, State.pulseTable_apart (h 0), State.pulseTable_apart (h 1)]

theorem TimeUnit.takes_iff (t : TimeUnit) :
    t.takes = true ↔ ∀ n, t.sincePulse = some n → 500 ≤ n := by
  unfold TimeUnit.takes
  split
  · next h => simp [h]
  · next n h =>
    simp only [h, Option.some.injEq, forall_eq']
    exact decide_eq_true_iff

theorem exec_sitePulse_taken {s : State} (h : ∀ n, s.time.sincePulse = some n → 500 ≤ n) :
    exec .sitePulse s = .next (s.publish s.pulsed.pulseTables) := by
  change execSitePulse s = _
  unfold execSitePulse
  exact event_guarded (s.time.takes_iff.2 h)

theorem exec_sitePulse_soon {s : State} {n : Nat} (hn : n < 500) (h : s.time.sincePulse = some n) :
    exec .sitePulse s = .next s := by
  change execSitePulse s = _
  unfold execSitePulse
  exact event_unguarded fun c => absurd (s.time.takes_iff.1 c n h) (by omega)

section Pulsed

variable {s : State}

theorem State.pulseTime_set {v : Nat} (h : s.time.pendingSet = some v) :
    s.pulseTime = s.applySet v := by
  unfold State.pulseTime
  rw [h]

theorem State.pulseTime_unset (h : s.time.pendingSet = none) (hu : s.time.state = .unset) :
    s.pulseTime = s := by
  unfold State.pulseTime
  rw [h, hu]

theorem State.pulseTime_snap (h : s.time.pendingSet = none) (hu : s.time.state ≠ .unset) :
    s.pulseTime = s.snap := by
  unfold State.pulseTime
  rw [h]
  cases e : s.time.state
  case unset => exact absurd e hu
  all_goals rfl

/-- A taken pulse with a pending set (R21). -/
theorem State.pulsed_set {v : Nat} (h : s.time.pendingSet = some v) :
    s.pulsed = (s.modTime (fun t => { t with
      time := v, state := .locked, watch := some 2500, pendingSet := none, lastSnap := none,
      sincePulse := some 0 })).countStep (timeSteps v s.time.time) :=
  State.pulseTime_set h

/-- A taken pulse in UNSET without a pending set (R22). -/
theorem State.pulsed_unset (h : s.time.pendingSet = none) (hu : s.time.state = .unset) :
    s.pulsed = s.modTime (fun t => { t with sincePulse := some 0 }) :=
  State.pulseTime_unset h hu

/-- A taken pulse in FREE or LOCKED without a pending set (R23). -/
theorem State.pulsed_snap (h : s.time.pendingSet = none) (hu : s.time.state ≠ .unset) :
    s.pulsed = (s.modTime (fun t => { t with
      time := (snapOf s.time.time).1, state := .locked, watch := some 2500,
      lastSnap := some (snapOf s.time.time).2, sincePulse := some 0 })).countStep
        (decide (2 < (snapOf s.time.time).2.natAbs)) :=
  State.pulseTime_snap h hu

/-- One tally listed unless a condition holds is counted so. -/
theorem Tally.count_unless (x : Tally) {c : Prop} [Decidable c] :
    BitVec.ofNat 16 ((if c then [] else [x]).count x) = if c then 0 else 1 := by
  split <;> simp

/-- A snap counts its step (R23). -/
theorem Counts.pulsed_snap (h : s.time.pendingSet = none) (hu : s.time.state ≠ .unset) :
    Counts (if -2 ≤ (snapOf s.time.time).2 ∧ (snapOf s.time.time).2 ≤ 2 then [] else [.timeSteps])
      s s.pulsed := by
  have c (f : TimeUnit → TimeUnit) := (Counts.modTime f s).trans
    (.countStep (decide (2 < (snapOf s.time.time).2.natAbs)) (s.modTime f))
  rw [State.pulsed_snap h hu]
  convert c _ using 1
  simp only [List.nil_append, decide_eq_true_eq]
  by_cases e : -2 ≤ (snapOf s.time.time).2 ∧ (snapOf s.time.time).2 ≤ 2
  · rw [if_pos e, if_neg (by omega)]
  · rw [if_neg e, if_pos (by omega)]

/-- Whatever a taken pulse finds, TU alone changes. -/
theorem State.blocks_pulsed (s : State) :
    s.pulsed.blocks = { s.blocks with time := s.pulsed.time } := by
  have counted (f : TimeUnit → TimeUnit) (b : Bool) : ((s.modTime f).countStep b).blocks =
      { s.blocks with time := ((s.modTime f).countStep b).time } := by
    rw [State.blocks_countStep, State.countStep_time]
    rfl
  cases hp : s.time.pendingSet with
  | some v => rw [State.pulsed_set hp, counted]
  | none =>
    by_cases hu : s.time.state = .unset
    · rw [State.pulsed_unset hp hu]
      rfl
    · rw [State.pulsed_snap hp hu, counted]

/-- The tally of the steps after a change of TU that is counted as one where `b` says so. -/
theorem State.timeSteps_counted (f : TimeUnit → TimeUnit) (b : Bool) (s : State) :
    ((s.modTime f).countStep b).tally .timeSteps = s.tally .timeSteps + (if b then 1 else 0) := by
  cases b <;> simp [State.countStep]

/-- What a taken pulse leaves once the tables have heard of it: what TU then shows, and the steps it
counted. -/
theorem State.pulse_facts (s : State) :
    (s.publish s.pulsed.pulseTables).time = s.pulsed.time ∧
    ∀ x : Tally, x.settles = false → (s.publish s.pulsed.pulseTables).tally x = s.pulsed.tally x :=
  ⟨(Kept.pulseTables _).time, (Kept.pulseTables _).tally⟩

end Pulsed

/-- The snap written out (R23, with the wrap of R17). -/
theorem snapOf_eq (t : Nat) : snapOf t =
    (if t % 1000 < 500 then t - t % 1000 else (t + (1000 - t % 1000)) % 2 ^ 48,
      if t % 1000 < 500 then ((t % 1000 : Nat) : Int) else ((t % 1000 : Nat) : Int) - 1000) := by
  unfold snapOf TimeUnit.wrap
  dsimp only
  split <;> rfl

/-- Settles O16: the three meanings of a taken pulse, and what the tables leave of them. -/
theorem pulseSnapsAppliesTheSetOrIsDisregarded :
    Obligations.PulseSnapsAppliesTheSetOrIsDisregarded := by
  refine ⟨fun s ht hp hu => ?_,
    fun s => ⟨fun n hn e => exec_sitePulse_soon hn e, fun ht => ⟨?_, ?_, ?_⟩⟩⟩
  · obtain ⟨time, tally⟩ := s.pulse_facts
    have counts := Counts.pulsed_snap hp hu
    refine ⟨_, exec_sitePulse_taken ht, ?_, ?_, fun x hx hs => ?_, fun a ha => ?_⟩
    · rw [time, State.pulsed_snap hp hu, State.countStep_time, snapOf_eq]
      rfl
    · rw [tally _ rfl, counts.tally, Tally.count_unless, snapOf_eq]
    · rw [tally x hs, counts.tally]
      split <;> simp [Ne.symm hx]
    · rw [State.read_publish (Layout.not_isStatus ha), (Kept.pulseTables _).apart.bytes a ha,
        counts.bytes a ha]
  · intro v hv
    obtain ⟨time, tally⟩ := s.pulse_facts
    refine ⟨_, exec_sitePulse_taken ht, ?_, ?_⟩
    · rw [time, State.pulsed_set hv, State.countStep_time]
      rfl
    · rw [tally _ rfl, State.pulsed_set hv, State.timeSteps_counted]
      simp only [timeSteps_iff]
  · intro hp hu
    obtain ⟨time, tally⟩ := s.pulse_facts
    refine ⟨_, exec_sitePulse_taken ht, ?_, ?_⟩
    · rw [time, State.pulsed_unset hp hu]
      rfl
    · rw [tally _ rfl, State.pulsed_unset hp hu]
      rfl
  · intro t e hl
    rw [exec_sitePulse_taken ht] at e
    have blocks := s.blocks_pulsed
    have hl' : ∀ x l, (s.pulsed.table x).launch = some l → l.source ≠ .nextPulse := by
      have : s.pulsed.tables = s.tables := congrArg Blocks.tables blocks
      intro x l
      rw [State.table_congr this]
      exact hl x l
    rw [State.pulseTables_apart hl'] at e
    injection e with e
    subst e
    exact blocks

end Sys2Proof.Machine
end

section
/-! PROOFS. The loss of a link (R30, R82, R179, R180): its two faults, and the heater zones dropped. -/

namespace Sys2Proof.Machine

variable {k : Settle}

theorem Apart.publish {s t : State} (h : Apart s t) (r : State) : Apart s (r.publish t) :=
  { h with bytes := fun a ha => (State.read_publish (Layout.not_isStatus ha)).trans (h.bytes a ha) }

/-! ### A change of one heater zone -/

/-- What a change of one heater zone leaves, once PB and the shed order have answered it. -/
structure HeaterChanged (st : StationId) (area : Area) (f : Heater → Heater) (s t : State) :
    Prop where
  apart : Apart s t
  tags : ∀ x, (t.station x).tags = (s.station x).tags
  axis : ∀ x ax, AxisKept ((s.station x).axis ax) ((t.station x).axis ax)
  tally : ∀ x : Tally, x.settles = false → t.tally x = s.tally x
  own : HeaterKept (f ((s.station st).heater area)) ((t.station st).heater area)
  other : ∀ x a, x ≠ st ∨ a ≠ area →
    HeaterKept ((s.station x).heater a) ((t.station x).heater a)

theorem State.changeHeater_changed (st : StationId) (area : Area) (f : Heater → Heater) (s : State) :
    HeaterChanged st area f s (s.changeHeater settle st area f) := by
  generalize hq : (if (f ((s.station st).heater area)).state = .probing then
      (if ((s.station st).heater area).state = .probing then (s.station st).probeQueue
        else (s.station st).probeQueue.erase area ++ [area])
    else (s.station st).probeQueue.erase area) = q
  have h := Settled.changeHeater Kept.settle s st area f hq.symm
  have put (x : StationId) : (s.modStation st (fun x =>
      { x.modHeater area f with probeQueue := q })).station x =
      if st = x then { (s.station st).modHeater area f with probeQueue := q } else s.station x :=
    State.station_modStation ..
  refine ⟨?_, fun x => ?_, fun x ax => ?_, h.tally, ?_, fun x a n => ?_⟩
  · exact (Apart.modStation fun x => by
      cases area <;> exact ⟨rfl, rfl, rfl, rfl, rfl, rfl, rfl, rfl⟩).trans
      h.apart
  · rw [(h.station x).tags, put]
    split
    · subst_vars; cases area <;> rfl
    · rfl
  · have e := (h.station x).axis ax
    rw [put] at e
    split at e
    · subst_vars; cases area <;> cases ax <;> exact e
    · exact e
  · have e := (h.station st).heater area
    rwa [put, if_pos rfl, Station.heater_put] at e
  · have e := (h.station x).heater a
    rw [put] at e
    split at e
    · subst_vars
      obtain n | n := n
      · exact absurd rfl n
      · cases area <;> cases a <;> first | exact absurd rfl n | exact e
    · exact e

/-! ### Heater zones dropped (R180) -/

/-- The states of a heater zone that a lost link leaves (R179, R180). -/
abbrev HeatState.stays (x : HeatState) : Prop := x = .off ∨ x = .idle ∨ x = .cooldown ∨ x = .latched

theorem HeatState.not_stays_iff (x : HeatState) :
    ¬ x.stays ↔ x ≠ .off ∧ x ≠ .idle ∧ x ≠ .cooldown ∧ x ≠ .latched := by
  simp only [HeatState.stays, not_or]

/-- What has become of a heater zone that was dropped. -/
structure Dropped (h g : Heater) : Prop where
  drops : ¬ h.state.stays → g.state = .idle ∧ g.cls = none ∧ g.probeNamed = false ∧
    g.probeWindow = none ∧ g.energize = none ∧ g.overload = none ∧ g.openElement = none ∧
    g.meltOff = none ∧ g.onRun = none ∧ g.faultCount = h.faultCount
  stays : h.state.stays → g.state = h.state ∧ g.cooldown = h.cooldown

theorem Heater.drop_stays {h : Heater} (e : h.state.stays) : h.drop = h := by
  unfold Heater.drop
  obtain e | e | e | e := e <;> rw [e]

theorem Heater.drop_drops {h : Heater} (e : ¬ h.state.stays) :
    h.drop = { h.stopRun with
      state := .idle, cls := none, probeWindow := none, meltOff := none, probeNamed := false } := by
  unfold Heater.drop
  cases c : h.state <;> first | rfl | exact absurd (by simp [HeatState.stays, c]) e

theorem HeatState.not_claims {x : HeatState} (e : x.stays) : x.claims = false := by
  obtain rfl | rfl | rfl | rfl := e <;> rfl

theorem HeaterKept.stays_iff {a b : Heater} (h : HeaterKept a b) : b.state.stays ↔ a.state.stays := by
  cases c : a.state.claims
  · rw [(h.idle c).1]
  · have n {x : HeatState} (e : x.claims = true) : ¬ x.stays := fun y => by
      rw [HeatState.not_claims y] at e; cases e
    exact iff_of_false (n (h.claims c)) (n c)

/-- A zone dropped between two settlings. -/
theorem HeaterKept.dropped {h a g : Heater} (before : HeaterKept h a) (after : HeaterKept a.drop g) :
    Dropped h g := by
  constructor <;> intro e
  · rw [Heater.drop_drops (mt before.stays_iff.1 e)] at after
    obtain ⟨state, energize, overload, openElement, onRun, -⟩ := after.idle rfl
    exact ⟨state, after.cls, after.probeNamed, after.probeWindow, energize, overload, openElement,
      after.meltOff, onRun, after.faultCount.trans before.faultCount⟩
  · rw [Heater.drop_stays (before.stays_iff.2 e)] at after
    have whole := before.trans after
    exact ⟨whole.of_idle (HeatState.not_claims e), whole.cooldown⟩

/-- What the dropping of a station's heater zones leaves. -/
structure HeatDropped (st : StationId) (s t : State) : Prop where
  apart : Apart s t
  tags : ∀ x, (t.station x).tags = (s.station x).tags
  axis : ∀ x ax, AxisKept ((s.station x).axis ax) ((t.station x).axis ax)
  tally : ∀ x : Tally, x.settles = false → t.tally x = s.tally x
  heater : ∀ h area, HeaterKept h ((s.station st).heater area) → Dropped h ((t.station st).heater area)

theorem State.dropHeat_dropped (st : StationId) (s : State) :
    HeatDropped st s (s.dropHeat settle st) := by
  have one := s.changeHeater_changed st .reflector Heater.drop
  have two := (s.changeHeater settle st .reflector Heater.drop).changeHeater_changed st .feed Heater.drop
  refine ⟨one.apart.trans two.apart, fun x => (two.tags x).trans (one.tags x),
    fun x ax => (one.axis x ax).trans (two.axis x ax),
    fun x hx => (two.tally x hx).trans (one.tally x hx), fun h area kept => ?_⟩
  cases area
  case reflector => exact kept.dropped (one.own.trans (two.other st _ (.inr (by decide))))
  case feed => exact (kept.trans (one.other st _ (.inr (by decide)))).dropped two.own

/-! ### The link and its two faults (R30, R82) -/

theorem AxisState.lost_iff (x : AxisState) : x.lost = true ↔ x ≠ .retired ∧ x ≠ .faulted := by
  cases x <;> decide

theorem Axis.loseLink_lost {a : Axis} (h : a.state.lost = true) : a.loseLink = a.toFaulted .link :=
  if_pos h

theorem Axis.loseLink_kept {a : Axis} (h : a.state.lost = false) : a.loseLink = a := by
  rw [Axis.loseLink, h]
  rfl

/-- The link DOWN and counted, both axes in FAULTED with LINK, and nothing settled yet. -/
def State.linkFaulted (st : StationId) (s : State) : State :=
  ((s.modStation st (fun x => { x with link := { x.link with up := false, missed := 0 } })).bump
    (.linkLosses st)).modStation st Station.loseLink

/-- What follows from a fault, where there is one. -/
def State.faultIf (k : Settle) (st : StationId) (b : Bool) (s : State) : State :=
  if b then s.afterFault k st else s

theorem State.loseLink_eq (k : Settle) (st : StationId) (s : State) : s.loseLink k st =
    (((s.linkFaulted st).faultIf k st (s.station st).az.state.lost).faultIf k st
      (s.station st).el.state.lost).dropHeat k st := by
  unfold State.loseLink State.faultIf
  dsimp only
  rw [State.station_bump, State.station_modStation, if_pos rfl]
  rfl

theorem Kept.faultIf (st : StationId) (b : Bool) (s : State) :
    Settled s (s.faultIf Machine.settle st b) := by
  cases b
  · exact .refl s
  · exact .afterFault Kept.settle st s

theorem State.station_linkFaulted (st x : StationId) (s : State) : (s.linkFaulted st).station x =
    if st = x then { s.station st with
      link := { (s.station st).link with up := false, missed := 0 },
      az := (s.station st).az.loseLink, el := (s.station st).el.loseLink } else s.station x := by
  unfold State.linkFaulted
  rw [State.station_modStation, State.station_bump, State.station_bump, State.station_modStation,
    State.station_modStation, if_pos rfl]
  split <;> rfl

/-- What the loss of a link leaves. -/
structure LinkLost (st : StationId) (s t : State) : Prop where
  apart : Apart (s.linkFaulted st) t
  tags : ∀ x, (t.station x).tags = (s.station x).tags
  axis : ∀ ax, AxisKept ((s.station st).axis ax).loseLink ((t.station st).axis ax)
  tally : ∀ x : Tally, x.settles = false → t.tally x = (s.linkFaulted st).tally x
  heater : ∀ area, Dropped ((s.station st).heater area) ((t.station st).heater area)

theorem State.loseLink_lost (st : StationId) (s : State) : LinkLost st s (s.loseLink settle st) := by
  rw [State.loseLink_eq]
  have one := Kept.faultIf st (s.station st).az.state.lost (s.linkFaulted st)
  have both := one.trans (.faultIf st (s.station st).el.state.lost _)
  generalize State.faultIf settle st (s.station st).el.state.lost _ = u at both
  have drop := u.dropHeat_dropped st
  have own := s.station_linkFaulted st st
  rw [if_pos rfl] at own
  refine ⟨both.apart.trans drop.apart, fun x => ?_, fun ax => ?_, fun x hx => ?_, fun area => ?_⟩
  · rw [drop.tags, (both.station x).tags, State.station_linkFaulted]
    split
    · subst_vars; rfl
    · rfl
  · have e := (both.station st).axis ax
    rw [own] at e
    exact AxisKept.trans (by cases ax <;> exact e) (drop.axis st ax)
  · rw [drop.tally x hx, both.tally x hx]
  · have e := (both.station st).heater area
    rw [own] at e
    exact drop.heater _ area (by cases area <;> exact e)

theorem LinkLost.publish {st : StationId} {s t : State} (h : LinkLost st s t) (r : State) :
    LinkLost st s (r.publish t) :=
  ⟨h.apart.publish r, h.tags, h.axis, h.tally, h.heater⟩

theorem LinkLost.link {st : StationId} {s t : State} (h : LinkLost st s t) (x : StationId) :
    (t.station x).link =
      if st = x then { (s.station st).link with up := false, missed := 0 } else (s.station x).link := by
  obtain ⟨-, link, -⟩ := h.apart.station x
  rw [link, State.station_linkFaulted]
  split <;> rfl

theorem LinkLost.losses {st : StationId} {s t : State} (h : LinkLost st s t) (x : StationId) :
    t.tally (.linkLosses x) =
      if st = x then s.tally (.linkLosses st) + 1 else s.tally (.linkLosses x) := by
  rw [h.tally _ rfl]
  simp [State.linkFaulted]

theorem LinkLost.counted {st : StationId} {s t : State} (h : LinkLost st s t) {x : Tally}
    (hx : x.settles = false) (n : x ≠ .linkLosses st) : t.tally x = s.tally x := by
  rw [h.tally x hx]
  simp [State.linkFaulted, n.symm]

theorem LinkLost.faults {st : StationId} {s t : State} (h : LinkLost st s t) (ax : AxisId) :
    let a := (s.station st).axis ax
    let b := (t.station st).axis ax
    (a.state ≠ .retired → a.state ≠ .faulted →
      b.state = .faulted ∧ b.reason = some .link ∧ b.s = 0 ∧ b.rate = 0) ∧
    (a.state = .faulted → b.state = .faulted ∧ b.reason = a.reason) ∧
    (a.state = .retired → b.state = .retired) := by
  intro a b
  have kept : AxisKept a.loseLink b := h.axis ax
  refine ⟨fun r f => ?_, fun f => ?_, fun r => ?_⟩
  · rw [Axis.loseLink_lost ((AxisState.lost_iff _).2 ⟨r, f⟩)] at kept
    obtain ⟨state, reason, -, still, rate⟩ := kept.faulted rfl
    exact ⟨state, reason, still, rate⟩
  · rw [Axis.loseLink_kept (by rw [f]; rfl)] at kept
    obtain ⟨state, reason, -⟩ := kept.faulted f
    exact ⟨state, reason⟩
  · rw [Axis.loseLink_kept (by rw [r]; rfl)] at kept
    exact kept.retired.1 r

/-! ### LINK_LOSS (R30) -/

theorem Link.misses_iff (l : Link) : l.misses = true ↔ l.up = true ∧ l.answered = false := by
  simp [Link.misses]

theorem exec_linkLoss_third {s : State} {st : StationId} (hu : (s.station st).link.up = true)
    (ha : (s.station st).link.answered = false) (hm : 2 ≤ (s.station st).link.missed) :
    exec (.linkLoss st) s = .next (s.publish (s.loseLink settle st)) := by
  change execLinkLoss st s = _
  unfold execLinkLoss
  exact event_guarded (c := fun s => (s.station st).link.misses ∧ 2 ≤ (s.station st).link.missed)
    ⟨(Link.misses_iff _).2 ⟨hu, ha⟩, hm⟩

theorem exec_linkLoss_not {s : State} {st : StationId} (h : ¬ ((s.station st).link.up = true ∧
    (s.station st).link.answered = false ∧ 2 ≤ (s.station st).link.missed)) :
    exec (.linkLoss st) s = .next s := by
  change execLinkLoss st s = _
  unfold execLinkLoss
  refine event_unguarded (c := fun s => (s.station st).link.misses ∧ 2 ≤ (s.station st).link.missed)
    fun c => h ?_
  obtain ⟨up, open_⟩ := (Link.misses_iff _).1 c.1
  exact ⟨up, open_, c.2⟩

theorem Axis.loseLink_eq (a : Axis) : a.loseLink =
    if a.state = .retired ∨ a.state = .faulted then a else { a with
      state := .faulted, reason := some .link, rate := 0, s := 0, hold := none, holdIdle := none,
      releaseCount := none, releaseSeen := none, releaseSource := none, errorRun := 0,
      limited := false, windFloor := false } := by
  unfold Axis.loseLink
  cases h : a.state <;> rfl

theorem State.faultIf_lost {k : Settle} {st : StationId} {x : AxisState} {s : State} :
    (x ≠ .retired ∧ x ≠ .faulted → s.faultIf k st x.lost = s.afterFault k st) ∧
    (¬ (x ≠ .retired ∧ x ≠ .faulted) → s.faultIf k st x.lost = s) :=
  ⟨fun h => if_pos ((AxisState.lost_iff x).2 h), fun h => if_neg (mt (AxisState.lost_iff x).1 h)⟩

/-- Settles O19: the equations of the loss, and what its settling keeps of the axes and the zones. -/
theorem linkLossFaultsAndDrops : Obligations.LinkLossFaultsAndDrops := by
  refine ⟨fun k s st => ?_, fun s st => ⟨exec_linkLoss_not, fun hu ha hm => ?_⟩⟩
  · refine ⟨s.linkFaulted st, (s.linkFaulted st).faultIf k st (s.station st).az.state.lost, _, ?_,
      State.faultIf_lost.1, State.faultIf_lost.2, State.faultIf_lost.1, State.faultIf_lost.2,
      State.loseLink_eq k st s, rfl⟩
    unfold State.linkFaulted Station.loseLink
    simp only [Axis.loseLink_eq]
  · have h := (s.loseLink_lost st).publish s
    refine ⟨_, exec_linkLoss_third hu ha hm, rfl, ?_, ?_, fun x n => ⟨?_, ?_⟩, h.faults,
      fun area => ?_, fun x => h.counted rfl (by simp), h.apart.time, h.apart.sensing, h.tags⟩
    · exact (h.link st).trans (if_pos rfl)
    · exact (h.losses st).trans (if_pos rfl)
    · exact (h.link x).trans (if_neg n.symm)
    · exact (h.losses x).trans (if_neg n.symm)
    · obtain ⟨drops, stays⟩ := h.heater area
      exact ⟨fun d => drops ((HeatState.not_stays_iff _).2 d),
        fun d => stays (not_not.1 (mt (HeatState.not_stays_iff _).1 d))⟩

end Sys2Proof.Machine
end

section
/-! PROOFS. A good report (R28, R29, R31, R72, R75, R81, R172, R174, R175): its frame, its layout, and what
each of its users does with it. -/

namespace Sys2Proof.Machine

variable {k : Settle}

/-! ### What the work on axes, books and heater zones leaves -/

/-- What that work leaves of a station. -/
structure StationBeside (x y : Station) : Prop where
  cfg : y.cfg = x.cfg
  link : y.link = x.link
  demand : y.demand = x.demand
  validation : y.validation = x.validation
  panel : y.panel = x.panel
  fuse1 : y.fuse1 = x.fuse1
  fuse2 : y.fuse2 = x.fuse2
  retired : y.retired = x.retired
  tags : y.tags = x.tags
  reflector : y.reflector.current = x.reflector.current
  feed : y.feed.current = x.feed.current

/-- What that work leaves of the state: its frame, the tags, the stored currents and the lost links. -/
structure Beside (s t : State) : Prop where
  apart : Apart s t
  tags : ∀ x, (t.station x).tags = (s.station x).tags
  current : ∀ x a, ((t.station x).heater a).current = ((s.station x).heater a).current
  losses : ∀ x, t.tally (.linkLosses x) = s.tally (.linkLosses x)

theorem StationBeside.refl (x : Station) : StationBeside x x :=
  ⟨rfl, rfl, rfl, rfl, rfl, rfl, rfl, rfl, rfl, rfl, rfl⟩

theorem StationBeside.modAxis (x : Station) (ax : AxisId) (f : Axis → Axis) :
    StationBeside x (x.modAxis ax f) := by
  cases ax <;> exact ⟨rfl, rfl, rfl, rfl, rfl, rfl, rfl, rfl, rfl, rfl, rfl⟩

theorem StationBeside.trans {x y z : Station} (h : StationBeside x y) (k : StationBeside y z) :
    StationBeside x z :=
  ⟨k.cfg.trans h.cfg, k.link.trans h.link, k.demand.trans h.demand, k.validation.trans h.validation,
    k.panel.trans h.panel, k.fuse1.trans h.fuse1, k.fuse2.trans h.fuse2, k.retired.trans h.retired,
    k.tags.trans h.tags, k.reflector.trans h.reflector, k.feed.trans h.feed⟩

theorem Heater.toFault_current (h : Heater) (r : HeatFault) (now : Nat) :
    (h.toFault r now).current = h.current := by
  unfold Heater.toFault
  dsimp only
  split <;> rfl

namespace Beside

theorem refl (s : State) : Beside s s := ⟨.refl s, fun _ => rfl, fun _ _ => rfl, fun _ => rfl⟩

/-- A last step, after the steps before it. -/
theorem after {s t u : State} (k : Beside t u) (h : Beside s t) : Beside s u :=
  ⟨h.apart.trans k.apart, fun x => (k.tags x).trans (h.tags x),
    fun x a => (k.current x a).trans (h.current x a), fun x => (k.losses x).trans (h.losses x)⟩

theorem ite {c : Prop} [Decidable c] {s t u : State} (h : Beside s t) (k : Beside s u) :
    Beside s (if c then t else u) := by
  split
  · exact h
  · exact k

theorem of_kept {E : TableId → Prop} {Q : Prop} {s t : State} (h : Kept E Q s t) : Beside s t :=
  ⟨h.apart, fun x => (h.station x).tags, fun x a => ((h.station x).heater a).current,
    fun _ => h.tally _ rfl⟩

theorem modStation {st : StationId} {f : Station → Station} {s : State}
    (h : StationBeside (s.station st) (f (s.station st))) : Beside s (s.modStation st f) := by
  have own (x : StationId) : StationBeside (s.station x) ((s.modStation st f).station x) := by
    rw [State.station_modStation]
    split
    · subst_vars; exact h
    · exact .refl _
  exact ⟨{ Apart.refl s with
    station := fun x => ⟨(own x).cfg, (own x).link, (own x).demand, (own x).validation,
      (own x).panel, (own x).fuse1, (own x).fuse2, (own x).retired⟩ },
    fun x => (own x).tags,
    fun x a => by cases a; exacts [(own x).reflector, (own x).feed], fun _ => rfl⟩

theorem bump {x : Tally} (h : ∀ y, x ≠ .linkLosses y) (s : State) : Beside s (s.bump x) :=
  ⟨.bump s x, fun _ => rfl, fun _ _ => rfl, fun y => by rw [State.tally_bump, if_neg (h y)]⟩

theorem publish {s t : State} (h : Beside s t) (r : State) : Beside s (r.publish t) :=
  ⟨h.apart.publish r, h.tags, h.current, h.losses⟩

theorem eachOf {α : Type} {f : α → State → State} (l : List α) (h : ∀ a s, Beside s (f a s))
    (s : State) : Beside s (eachOf l f s) := by
  induction l generalizing s with
  | nil => exact .refl s
  | cons a l ih => exact (ih _).after (h a s)

/-! ### Heater zones -/

theorem changeHeater {st : StationId} {area : Area} {f : Heater → Heater}
    (hf : ∀ h, (f h).current = h.current) (s : State) :
    Beside s (s.changeHeater Machine.settle st area f) := by
  have c := s.changeHeater_changed st area f
  refine ⟨c.apart, c.tags, fun x a => ?_, fun x => c.tally _ rfl⟩
  by_cases e : x = st ∧ a = area
  · obtain ⟨rfl, rfl⟩ := e
    rw [c.own.current, hf]
  · exact (c.other x a (by tauto)).current

theorem judgeProbe (st : StationId) (area : Area) (s : State) :
    Beside s (s.judgeProbe Machine.settle st area) :=
  .ite (changeHeater (fun _ => by rfl) s) (.refl s)

theorem judgeClaim (st : StationId) (area : Area) (s : State) :
    Beside s (s.judgeClaim Machine.settle st area) :=
  .ite (changeHeater (fun _ => by rfl) s) (.refl s)

theorem judgeHeat (st : StationId) (area : Area) (s : State) :
    Beside s (s.judgeHeat Machine.settle st area) :=
  (judgeClaim st area _).after (judgeProbe st area s)

theorem judgeHeatBoth (st : StationId) (s : State) : Beside s (s.judgeHeatBoth Machine.settle st) :=
  (judgeHeat st .feed _).after (judgeHeat st .reflector s)

theorem modHeater {st : StationId} {area : Area} {f : Heater → Heater}
    (hf : ∀ h, (f h).current = h.current) (s : State) : Beside s (s.modHeater st area f) :=
  .modStation (by
    cases area
    case reflector => exact ⟨rfl, rfl, rfl, rfl, rfl, rfl, rfl, rfl, rfl, hf _, rfl⟩
    case feed => exact ⟨rfl, rfl, rfl, rfl, rfl, rfl, rfl, rfl, rfl, rfl, hf _⟩)

theorem faultHeater (st : StationId) (area : Area) (r : HeatFault) (v : Nat) (s : State) :
    Beside s (s.faultHeater Machine.settle st area r v) :=
  .after (bump (by simp) _) (.after (modStation ⟨rfl, rfl, rfl, rfl, rfl, rfl, rfl, rfl, rfl, rfl, rfl⟩)
    (changeHeater (fun h => Heater.toFault_current h r _) s))

theorem probeResult (st : StationId) (area : Area) (ohms : Nat) (s : State) :
    Beside s (s.probeResult Machine.settle st area ohms) := by
  unfold State.probeResult
  dsimp only
  refine .ite ?_ (.refl s)
  have taken (f : Heater → Heater) (hf : ∀ h, (f h).current = h.current) :
      Beside s (s.modHeater st area f) := modHeater hf s
  split
  · exact .after (judgeClaim ..) (.after (changeHeater (fun _ => by rfl) _) (taken _ fun _ => rfl))
  all_goals exact .after (faultHeater ..) (taken _ fun _ => rfl)

/-! ### Axes -/

theorem modAxis (st : StationId) (ax : AxisId) (f : Axis → Axis) (s : State) :
    Beside s (s.modAxis st ax f) :=
  .modStation (.modAxis _ ax f)

theorem faultAxis (st : StationId) (ax : AxisId) (r : AxisFault) (s : State) :
    Beside s (s.faultAxis Machine.settle st ax r) :=
  .after (of_kept (Kept.faultAxis Kept.settle st ax r s)) (modAxis ..)

theorem afterAxes (st : StationId) (before : Station) (s : State) :
    Beside s (s.afterAxes Machine.settle st before) := by
  unfold State.afterAxes
  dsimp only
  have claim : Settled s (s.formClaim Machine.settle st) := .formClaim Kept.settle st s
  refine .after (of_kept (Kept.axesChanged Kept.settle st _)) (.ite (of_kept (claim.trans ?_))
    (of_kept claim))
  exact (Kept.leave _).trans (.settle _)

theorem reportAxis (st : StationId) (r : Report) (ax : AxisId) (s : State) :
    Beside s (s.reportAxis Machine.settle st r ax) := by
  unfold State.reportAxis
  dsimp only
  split
  · exact .after (faultAxis ..) (modAxis ..)
  · exact .after (modStation ((StationBeside.modAxis _ ax _).trans (.modAxis _ ax _))) (modAxis ..)

end Beside

/-! ### The stored currents (R172) -/

/-- A report's current stored: what that, and the judgement of it, leaves. -/
structure CurrentTaken (st : StationId) (area : Area) (current : Nat) (s t : State) : Prop where
  apart : Apart s t
  tags : ∀ x, (t.station x).tags = (s.station x).tags
  own : ((t.station st).heater area).current = current
  other : ∀ a, a ≠ area → ((t.station st).heater a).current = ((s.station st).heater a).current

/-- The judgement of a stored current (R174, R175). -/
def State.judgeCurrent (k : Settle) (st : StationId) (area : Area) (v : Nat) (s : State) : State :=
  match ((s.station st).heater area).state with
  | .energizing => if ((s.station st).heater area).above 160 then
      s.faultHeater k st area .startFault v else s
  | .on => if ((s.station st).heater area).above 160 then
      s.faultHeater k st area .currentLimit v else s.modHeater st area Heater.judgeTimers
  | .off | .idle | .probing | .ready | .waitingPower | .shed | .cooldown | .latched => s

/-- The zone's record with a report's current. -/
def Heater.hears (current : Nat) (h : Heater) : Heater := { h with current := current }

theorem State.reportCurrent_eq (k : Settle) (st : StationId) (area : Area) (v : Nat) (s : State) :
    s.reportCurrent k st area v = (s.modHeater st area (Heater.hears v)).judgeCurrent k st area v :=
  rfl

theorem Beside.judgeCurrent (st : StationId) (area : Area) (v : Nat) (s : State) :
    Beside s (s.judgeCurrent settle st area v) := by
  unfold State.judgeCurrent
  split
  · exact .ite (faultHeater ..) (.refl s)
  · exact .ite (faultHeater ..) (modHeater (fun _ => by rfl) s)
  all_goals exact .refl s

theorem State.heater_modHeater (s : State) (st x : StationId) (area a : Area) (f : Heater → Heater) :
    ((s.modHeater st area f).station x).heater a =
      if st = x ∧ area = a then f ((s.station st).heater area) else (s.station x).heater a := by
  unfold State.modHeater
  rw [State.station_modStation]
  by_cases e : st = x
  · subst e
    rw [if_pos rfl, Station.heater_modHeater]
    simp
  · simp [e]

theorem State.reportCurrent_taken (st : StationId) (area : Area) (v : Nat) (s : State) :
    CurrentTaken st area v s (s.reportCurrent settle st area v) := by
  rw [State.reportCurrent_eq]
  have judged := Beside.judgeCurrent st area v (s.modHeater st area (Heater.hears v))
  have stored : Apart s (s.modHeater st area (Heater.hears v)) := .modStation fun x => by
    cases area <;> exact ⟨rfl, rfl, rfl, rfl, rfl, rfl, rfl, rfl⟩
  refine ⟨stored.trans judged.apart, fun x => (judged.tags x).trans ?_,
    (judged.current st area).trans ?_, fun a n => (judged.current st a).trans ?_⟩
  · unfold State.modHeater
    rw [State.station_modStation]
    split
    · subst_vars; cases area <;> rfl
    · rfl
  · rw [State.heater_modHeater, if_pos ⟨rfl, rfl⟩]
    rfl
  · rw [State.heater_modHeater, if_neg fun e => n e.2.symm]

/-! ### Which reports are good, and their layout (R28, R197) -/

theorem Station.goodReport_iff (x : Station) (f : Frame) : x.goodReport f = true ↔
    x.retired = false ∧ f.length = 19 ∧ f = Frame.seal (f.take 17) ∧
      x.link.seq = some (f.getD 0 0) ∧ x.link.answered = false := by
  simp [Station.goodReport, Frame.correct, Frame.reportLength, Frame.at, and_assoc]

theorem Bytes.toNat_lt (l : List Byte) : Bytes.toNat l < 256 ^ l.length := by
  induction l with
  | nil => exact Nat.one_pos
  | cons b l ih =>
    have := b.isLt
    simp only [Bytes.toNat, List.length_cons, Nat.pow_succ]
    omega

theorem Frame.nat_lt (f : Frame) (i n : Nat) : Frame.nat f i n < 256 ^ n :=
  (Bytes.toNat_lt _).trans_le (Nat.pow_le_pow_right (by decide) (List.length_take_le ..))

/-- Four bytes read as a signed word. -/
theorem Bytes.signed_four {n : Nat} (h : n < 256 ^ 4) :
    Bytes.signed 4 n = (BitVec.ofNat 32 n).toInt := by
  rw [BitVec.toInt_eq_toNat_cond, BitVec.toNat_ofNat, Nat.mod_eq_of_lt (by omega), Bytes.signed]
  split <;> split <;> omega

theorem Frame.getLsbD_word (n : Nat) {i : Nat} (h : i < 16) :
    (BitVec.ofNat 16 n).getLsbD i = n.testBit i := by
  rw [BitVec.getLsbD_ofNat, decide_eq_true h, Bool.true_and]

/-- The flags and numbers of a report frame (R197). -/
theorem Frame.report_eq (f : Frame) :
    let bit (i : Nat) := (Frame.nat f 1 2).testBit i
    let angle (i : Nat) := (BitVec.ofNat 32 (Frame.nat f i 4)).toInt
    Frame.report f = {
      azReady := bit 0, elReady := bit 1, azReleased := bit 2, elReleased := bit 3, azCcw := bit 4,
      azCw := bit 5, elLow := bit 6, elHigh := bit 7, azEncoder := angle 3, elEncoder := angle 7,
      reflectorCurrent := Frame.nat f 11 2, feedCurrent := Frame.nat f 13 2,
      probe := if bit 8 then some (if bit 9 then .feed else .reflector, Frame.nat f 15 2)
        else none } := by
  unfold Frame.report
  simp (disch := decide) only [Frame.getLsbD_word, Bytes.signed_four (Frame.nat_lt f _ 4)]

/-! ### A good report acted on (R29) -/

/-- The link UP with a report as its latest. -/
def State.linked (st : StationId) (r : Report) (s : State) : State :=
  s.modStation st (fun x => { x with link := { x.link with
    up := true, answered := true, missed := 0, report := some r } })

/-- What HC makes of a link that comes UP (R170, R173). -/
def State.linkedUp (k : Settle) (st : StationId) (r : Report) (s : State) : State :=
  if (s.station st).link.up then s.linked st r else (s.linked st r).judgeHeatBoth k st

/-- The axes moved and both currents taken: a report with no probe result in it. -/
def State.heard (k : Settle) (st : StationId) (r : Report) (s : State) : State :=
  let before := s.linkedUp k st r
  ((((before.reportAxis k st r .az).reportAxis k st r .el).afterAxes k st
    (before.station st)).reportCurrent k st .reflector r.reflectorCurrent).reportCurrent k st .feed
      r.feedCurrent

theorem State.takeReport_unprobed {st : StationId} {r : Report} (s : State) (h : r.probe = none) :
    s.takeReport k st r = s.heard k st r := by
  unfold State.takeReport
  rw [h]
  rfl

theorem State.takeReport_probed {st : StationId} {r : Report} {area : Area} {ohms : Nat} (s : State)
    (h : r.probe = some (area, ohms)) :
    s.takeReport k st r = (s.heard k st r).probeResult k st area ohms := by
  unfold State.takeReport
  rw [h]
  rfl

/-- What a good report leaves, its link apart. -/
structure ReportTaken (st : StationId) (r : Report) (s t : State) : Prop where
  apart : Apart (s.linked st r) t
  tags : ∀ x, (t.station x).tags = (s.station x).tags
  reflector : ((t.station st).heater .reflector).current = r.reflectorCurrent
  feed : ((t.station st).heater .feed).current = r.feedCurrent

theorem Beside.linkedUp (st : StationId) (r : Report) (s : State) :
    Beside (s.linked st r) (s.linkedUp settle st r) :=
  .ite (.refl _) (judgeHeatBoth st _)

theorem State.heard_taken (st : StationId) (r : Report) (s : State) :
    ReportTaken st r s (s.heard settle st r) := by
  unfold State.heard
  dsimp only
  have up := Beside.linkedUp st r s
  generalize s.linkedUp settle st r = before at up ⊢
  have moved := Beside.after (Beside.afterAxes st (before.station st) _)
    (Beside.after (Beside.reportAxis st r .el _) (Beside.after (Beside.reportAxis st r .az _) up))
  generalize State.afterAxes settle st _ _ = u at moved ⊢
  have one := u.reportCurrent_taken st .reflector r.reflectorCurrent
  generalize u.reportCurrent settle st .reflector r.reflectorCurrent = v at one ⊢
  have two := v.reportCurrent_taken st .feed r.feedCurrent
  refine ⟨moved.apart.trans (one.apart.trans two.apart), fun x => ?_,
    (two.other .reflector (by decide)).trans one.own, two.own⟩
  rw [two.tags, one.tags, moved.tags, State.linked, State.station_modStation]
  split
  · subst_vars; rfl
  · rfl

theorem State.takeReport_taken (st : StationId) (r : Report) (s : State) :
    ReportTaken st r s (s.takeReport settle st r) := by
  have heard := s.heard_taken st r
  cases h : r.probe with
  | none => rwa [State.takeReport_unprobed s h]
  | some p =>
    rw [State.takeReport_probed s h]
    have beside := Beside.probeResult st p.1 p.2 (s.heard settle st r)
    exact ⟨heard.apart.trans beside.apart, fun x => (beside.tags x).trans (heard.tags x),
      (beside.current st .reflector).trans heard.reflector,
      (beside.current st .feed).trans heard.feed⟩

theorem ReportTaken.publish {st : StationId} {r : Report} {s t : State} (h : ReportTaken st r s t)
    (q : State) : ReportTaken st r s (q.publish t) :=
  ⟨h.apart.publish q, h.tags, h.reflector, h.feed⟩

theorem ReportTaken.station {st : StationId} {r : Report} {s t : State} (h : ReportTaken st r s t)
    (x : StationId) : (t.station x).cfg = (s.station x).cfg ∧ (t.station x).link =
      if st = x then { (s.station st).link with
        up := true, answered := true, missed := 0, report := some r } else (s.station x).link := by
  obtain ⟨cfg, link, -⟩ := h.apart.station x
  rw [cfg, link, State.linked, State.station_modStation]
  split
  · subst_vars; exact ⟨rfl, rfl⟩
  · exact ⟨rfl, rfl⟩

theorem exec_reportFrame_good {s : State} {st : StationId} {f : Frame}
    (h : (s.station st).goodReport f = true) : exec (.reportFrame st f) s =
      .next (s.publish (s.takeReport settle st (Frame.report f))) := by
  change execReportFrame st f s = _
  unfold execReportFrame
  exact event_guarded (c := fun s => (s.station st).goodReport f = true) h

theorem exec_reportFrame_bad {s : State} {st : StationId} {f : Frame}
    (h : (s.station st).goodReport f = false) : exec (.reportFrame st f) s = .next s := by
  change execReportFrame st f s = _
  unfold execReportFrame
  exact event_unguarded (c := fun s => (s.station st).goodReport f = true) (by rw [h]; decide)

/-! ### TE at a good report (R81) -/

theorem Axis.follow_eq (a : Axis) (c : Int) : a.follow c =
    if a.state = .braked ∨ a.state = .awaitingPower ∨ a.state = .faulted then { a with c := c }
    else a := by
  unfold Axis.follow
  cases h : a.state <;> rfl

section ReportAxis

variable {st : StationId} {r : Report} {ax : AxisId} {s : State}

/-- The axis with its encoder followed, step 1 of R81. -/
def State.followed (st : StationId) (r : Report) (ax : AxisId) (s : State) : State :=
  s.modAxis st ax (fun a => a.follow (r.encoder ax))

/-- The axis as step 4 of R81 leaves it, examined. -/
def State.leaves (st : StationId) (ax : AxisId) (b : Axis) (s : State) : State :=
  s.modStation st (fun x => (x.modAxis ax (fun _ => b)).examine ax)

theorem State.reportAxis_faults {reason : AxisFault}
    (h : (((s.followed st r ax).station st).axis ax).reportFault ax r = some reason) :
    s.reportAxis k st r ax = (s.followed st r ax).faultAxis k st ax reason := by
  unfold State.reportAxis
  dsimp only
  rw [show (((s.modAxis st ax fun a => a.follow (r.encoder ax)).station st).axis ax).reportFault ax r =
    some reason from h]
  rfl

theorem Station.modAxis_ext {x : Station} {ax : AxisId} {f g : Axis → Axis}
    (h : f (x.axis ax) = g (x.axis ax)) : x.modAxis ax f = x.modAxis ax g := by
  cases ax
  case az => rw [Station.modAxis, Station.modAxis, show f x.az = g x.az from h]
  case el => rw [Station.modAxis, Station.modAxis, show f x.el = g x.el from h]

theorem State.reportAxis_leaves
    (h : (((s.followed st r ax).station st).axis ax).reportFault ax r = none) :
    s.reportAxis k st r ax = (s.followed st r ax).leaves st ax
      ((((s.followed st r ax).station st).axis ax).releaseReport ax r
        ((s.followed st r ax).station st).target.source
        ((s.followed st r ax).station st).claim.grantedLevel
        ((s.followed st r ax).station st).cfg.holdIdle) := by
  unfold State.reportAxis
  dsimp only
  rw [show (((s.modAxis st ax fun a => a.follow (r.encoder ax)).station st).axis ax).reportFault ax r =
    none from h]
  refine State.modStation_ext (congrArg (fun x => Station.examine x ax) ?_)
  exact Station.modAxis_ext rfl

end ReportAxis

section ReleaseReport

variable {a : Axis} {ax : AxisId} {r : Report} {source : Source} {level : Level} {seconds : Nat}

theorem Axis.judged_iff (a : Axis) : a.judged = true ↔ ∃ n, a.releaseCount = some n ∧ 0 < n := by
  unfold Axis.judged
  split
  · next h => simp [h]
  · next n h => simp [h]

/-- A release report noted, with the source at its moment. -/
def Axis.noted (a : Axis) (source : Source) : Axis :=
  { a with releaseSeen := some true, releaseSource := some source }

theorem Axis.releaseReport_not (h : ¬ (a.state = .releasing ∧ r.released ax = true)) :
    a.releaseReport ax r source level seconds = a :=
  if_neg h

theorem Axis.releaseReport_unjudged (h : a.state = .releasing ∧ r.released ax = true)
    (hj : ¬ ∃ n, a.releaseCount = some n ∧ 0 < n) :
    a.releaseReport ax r source level seconds = a.noted source :=
  (if_pos h).trans (if_neg (mt (Axis.judged_iff a).1 hj))

theorem Axis.releaseReport_judged (h : a.state = .releasing ∧ r.released ax = true)
    (hj : ∃ n, a.releaseCount = some n ∧ 0 < n) :
    a.releaseReport ax r source level seconds = (a.noted source).release source level seconds :=
  (if_pos h).trans (if_pos ((Axis.judged_iff a).2 hj))

theorem Axis.release_on (hs : source ≠ .stow) (hn : source ≠ .none) (h : a.onSource = some true) :
    a.release source level seconds = a.enter .tracking := by
  unfold Axis.release
  rw [if_neg hs, if_neg hn, if_pos h]

theorem Axis.release_off (hs : source ≠ .stow) (hn : source ≠ .none) (h : a.onSource ≠ some true) :
    a.release source .slew seconds = a.enter .slewing ∧
      a.release source .track seconds = a.enter .catchingUp ∧
      a.release source .none seconds = a := by
  refine ⟨?_, ?_, ?_⟩ <;> unfold Axis.release <;> rw [if_neg hs, if_neg hn, if_neg h]

end ReleaseReport

theorem Axis.reportFault_amplifier {a : Axis} {ax : AxisId} {r : Report}
    (h : (a.state = .awaitingPower ∨ a.state.powered = true) ∧ r.ready ax = false) :
    a.reportFault ax r = some .amplifier :=
  if_pos h

theorem Axis.reportFault_switch {a : Axis} {ax : AxisId} {r : Report}
    (hn : ¬ ((a.state = .awaitingPower ∨ a.state.powered = true) ∧ r.ready ax = false))
    (h : a.state.powered = true ∧ r.limitSwitch ax = true) :
    a.reportFault ax r = some .limitSwitch :=
  (if_neg hn).trans (if_pos h)

theorem Axis.reportFault_none {a : Axis} {ax : AxisId} {r : Report}
    (hn : ¬ ((a.state = .awaitingPower ∨ a.state.powered = true) ∧ r.ready ax = false))
    (h : ¬ (a.state.powered = true ∧ r.limitSwitch ax = true)) : a.reportFault ax r = none :=
  (if_neg hn).trans (if_neg h)

/-- Steps 2 to 5 of R81 on the axis that has followed its encoder. -/
theorem State.reportAxis_cases (s : State) (st : StationId) (r : Report) (ax : AxisId) :
    let t := s.followed st r ax
    let x := t.station st
    let a := x.axis ax
    let amplifier := (a.state = .awaitingPower ∨ a.state.powered = true) ∧ r.ready ax = false
    let switch := a.state.powered = true ∧ r.limitSwitch ax = true
    let released := a.state = .releasing ∧ r.released ax = true
    let judged := ∃ n, a.releaseCount = some n ∧ 0 < n
    let leaves (b : Axis) := s.reportAxis k st r ax = t.leaves st ax b
    let enters (to_ : AxisState) (hold : Option Int) (holdIdle : Timer) := leaves { a with
      state := to_, reason := none, hold := hold, holdIdle := holdIdle, releaseCount := none,
      releaseSeen := none, releaseSource := none }
    let src := x.target.source
    (amplifier → s.reportAxis k st r ax = t.faultAxis k st ax .amplifier) ∧
    (¬ amplifier → switch → s.reportAxis k st r ax = t.faultAxis k st ax .limitSwitch) ∧
    (¬ amplifier → ¬ switch →
      (¬ released → leaves a) ∧
      (released → ¬ judged → leaves (a.noted src)) ∧
      (released → judged → src = .stow → enters .stowing none none) ∧
      (released → judged → src = .none →
        enters .holding (some a.c) (some (1000 * x.cfg.holdIdle))) ∧
      (released → judged → src ≠ .stow → src ≠ .none →
        (a.onSource = some true → enters .tracking none none) ∧
        (a.onSource ≠ some true →
          (x.claim.grantedLevel = .slew → enters .slewing none none) ∧
          (x.claim.grantedLevel = .track → enters .catchingUp none none) ∧
          (x.claim.grantedLevel = .none → leaves (a.noted src))))) := by
  intro t x a amplifier switch released judged leaves enters src
  refine ⟨fun h => State.reportAxis_faults (Axis.reportFault_amplifier h),
    fun hn h => State.reportAxis_faults (Axis.reportFault_switch hn h), fun hn hs => ?_⟩
  have out {b : Axis} (e : a.releaseReport ax r src x.claim.grantedLevel x.cfg.holdIdle = b) :
      leaves b := e ▸ State.reportAxis_leaves (Axis.reportFault_none hn hs)
  refine ⟨fun h => out (Axis.releaseReport_not h), fun h hj => out (Axis.releaseReport_unjudged h hj),
    fun h hj e => out ?_, fun h hj e => out ?_, fun h hj es en => ⟨fun on => out ?_,
      fun off => ⟨fun l => out ?_, fun l => out ?_, fun l => out ?_⟩⟩⟩ <;>
    rw [Axis.releaseReport_judged h hj]
  · rw [e]; rfl
  · rw [e]; rfl
  · rw [Axis.release_on (a := a.noted src) es en on]; rfl
  all_goals
    obtain ⟨slew, track, none⟩ :=
      Axis.release_off (a := a.noted src) (seconds := x.cfg.holdIdle) es en off
  · rw [l]; exact slew
  · rw [l]; exact track
  · rw [l]; exact none

/-! ### HC at a good report (R172, R174, R175) -/

section Currents

variable {st : StationId} {area : Area} {current : Nat} {s : State}

theorem Heater.above_iff {h : Heater} (e : h.cls = some kind) (percent : Nat) :
    h.above percent = true ↔ percent * kind.rated < 100 * h.current := by
  simp [Heater.above, e]

theorem Heater.below_iff {h : Heater} (e : h.cls = some kind) (percent : Nat) :
    h.below percent = true ↔ 100 * h.current < percent * kind.rated := by
  simp [Heater.below, e]

theorem Heater.hears_above_iff {h : Heater} (e : h.cls = some kind) (percent : Nat) :
    (h.hears current).above percent = true ↔ percent * kind.rated < 100 * current :=
  Heater.above_iff (h := h.hears current) e percent

/-- The zone's record once its current is stored. -/
theorem State.heater_hears (s : State) (st : StationId) (area : Area) (v : Nat) :
    ((s.modHeater st area (Heater.hears v)).station st).heater area =
      ((s.station st).heater area).hears v := by
  rw [State.heater_modHeater, if_pos ⟨rfl, rfl⟩]

theorem State.reportCurrent_rest (he : ((s.station st).heater area).state ≠ .energizing)
    (ho : ((s.station st).heater area).state ≠ .on) :
    s.reportCurrent k st area current = s.modHeater st area (Heater.hears current) := by
  rw [State.reportCurrent_eq, State.judgeCurrent, State.heater_hears]
  cases e : ((s.station st).heater area).state
  case energizing => exact absurd e he
  case on => exact absurd e ho
  all_goals rw [show (((s.station st).heater area).hears current).state = _ from e]

theorem State.reportCurrent_energizing (h : ((s.station st).heater area).state = .energizing) :
    s.reportCurrent k st area current =
      if (((s.station st).heater area).hears current).above 160 then
        (s.modHeater st area (Heater.hears current)).faultHeater k st area .startFault current
      else s.modHeater st area (Heater.hears current) := by
  rw [State.reportCurrent_eq, State.judgeCurrent, State.heater_hears,
    show (((s.station st).heater area).hears current).state = .energizing from h]

theorem State.reportCurrent_on (h : ((s.station st).heater area).state = .on) :
    s.reportCurrent k st area current =
      if (((s.station st).heater area).hears current).above 160 then
        (s.modHeater st area (Heater.hears current)).faultHeater k st area .currentLimit current
      else (s.modHeater st area (Heater.hears current)).modHeater st area Heater.judgeTimers := by
  rw [State.reportCurrent_eq, State.judgeCurrent, State.heater_hears,
    show (((s.station st).heater area).hears current).state = .on from h]

/-- A zone with a class, whose overload and open-element timers the judgement sets (R175). -/
theorem Heater.judgeTimers_facts {h : Heater} (e : h.cls = some kind) :
    ∃ x y : Timer, h.judgeTimers = { h with overload := x, openElement := y } ∧
      (¬ 125 * kind.rated < 100 * h.current → x = none) ∧
      (¬ 100 * h.current < 50 * kind.rated → y = none) ∧
      (125 * kind.rated < 100 * h.current →
        x = if h.overload = none then some 500 else h.overload) ∧
      (100 * h.current < 50 * kind.rated →
        y = if h.openElement = none then some 2000 else h.openElement) := by
  have stands (t : Timer) (n : Nat) : t.or (some n) = if t = none then some n else t := by
    cases t <;> rfl
  refine ⟨_, _, rfl, fun n => if_neg (mt (Heater.above_iff e 125).1 n),
    fun n => if_neg (mt (Heater.below_iff e 50).1 n), fun p => ?_, fun p => ?_⟩
  · rw [if_pos ((Heater.above_iff e 125).2 p)]
    exact stands _ _
  · rw [if_pos ((Heater.below_iff e 50).2 p)]
    exact stands _ _

/-- A stored current in ON that faults nothing (R175). -/
theorem State.reportCurrent_judged (hk : ((s.station st).heater area).cls = some kind)
    (h : ((s.station st).heater area).state = .on) (hp : ¬ 160 * kind.rated < 100 * current) :
    let h := (s.station st).heater area
    ∃ x y : Timer, s.reportCurrent k st area current =
        (s.modHeater st area (Heater.hears current)).modHeater st area (fun h => { h with
          overload := x, openElement := y }) ∧
      (¬ 125 * kind.rated < 100 * current → x = none) ∧
      (¬ 100 * current < 50 * kind.rated → y = none) ∧
      (125 * kind.rated < 100 * current →
        x = if h.overload = none then some 500 else h.overload) ∧
      (100 * current < 50 * kind.rated →
        y = if h.openElement = none then some 2000 else h.openElement) := by
  have hears : (((s.station st).heater area).hears current).cls = some kind := hk
  obtain ⟨x, y, e, facts⟩ := Heater.judgeTimers_facts hears
  refine ⟨x, y, ?_, facts⟩
  rw [State.reportCurrent_on h, if_neg (mt (Heater.hears_above_iff hk 160).1 hp)]
  refine State.modStation_ext ?_
  have own := s.heater_hears st area current
  generalize (s.modHeater st area (Heater.hears current)).station st = z at own ⊢
  cases area
  case reflector => rw [Station.modHeater, Station.modHeater, show z.reflector = _ from own, e]
  case feed => rw [Station.modHeater, Station.modHeater, show z.feed = _ from own, e]

end Currents

section Probe

variable {st : StationId} {area : Area} {ohms : Nat} {s : State}

/-- The zone's record with a probe result. -/
def State.probed (st : StationId) (area : Area) (ohms : Nat) (v : Verdict) (s : State) : State :=
  s.modHeater st area (fun h => { h with lastProbe := some (ohms, v), probeWindow := none })

theorem State.probeResult_not (h : ¬ (((s.station st).heater area).state = .probing ∧
    ((s.station st).heater area).probeNamed = true)) : s.probeResult k st area ohms = s :=
  if_neg h

theorem State.probeResult_good (h : ((s.station st).heater area).state = .probing ∧
    ((s.station st).heater area).probeNamed = true) {kind : HeatClass}
    (e : Verdict.of ohms = .good kind) : s.probeResult k st area ohms =
      ((s.probed st area ohms (.good kind)).changeHeater k st area (fun h =>
        { h with state := .ready, cls := some kind, probeNamed := false })).judgeClaim k st area := by
  unfold State.probeResult
  dsimp only
  rw [if_pos h, e]
  rfl

theorem State.probeResult_bad (h : ((s.station st).heater area).state = .probing ∧
    ((s.station st).heater area).probeNamed = true) {v : Verdict} {r : HeatFault}
    (f : v.fault = some r) (e : Verdict.of ohms = v) : s.probeResult k st area ohms =
      (s.probed st area ohms v).faultHeater k st area r ohms := by
  unfold State.probeResult
  dsimp only
  rw [if_pos h, e]
  cases v <;> cases f <;> rfl

end Probe

/-- Settles O18: the good reports, the layout, and each user's part by the equations above. -/
theorem goodReportsAloneAreTaken : Obligations.GoodReportsAloneAreTaken := by
  refine ⟨fun s st f => ⟨Station.goodReport_iff _ f, exec_reportFrame_bad, fun h => ?_⟩,
    Frame.report_eq, fun s st r => ⟨s.takeReport_unprobed, fun area ohms => s.takeReport_probed⟩,
    fun s st r ax => ?_, fun s st area => ⟨fun current => ⟨State.reportCurrent_rest, fun kind hk =>
      ⟨fun e p => ?_, fun e p => ?_, fun e p => ?_, fun e p => ?_⟩⟩, fun ohms =>
      ⟨State.probeResult_not, fun kind d => State.probeResult_good d,
        fun d => State.probeResult_bad d rfl, fun d => State.probeResult_bad d rfl,
        fun d => State.probeResult_bad d rfl⟩⟩⟩
  · have taken := (s.takeReport_taken st (Frame.report f)).publish s
    refine ⟨_, exec_reportFrame_good h, rfl, (taken.station st).2.trans (if_pos rfl),
      fun x n => (taken.station x).2.trans (if_neg n.symm),
      fun x => ⟨taken.tags x, (taken.station x).1⟩, taken.reflector, taken.feed, taken.apart.time,
      taken.apart.sensing, ?_, taken.apart.bytes⟩
    obtain ⟨b, e⟩ := taken.apart.exchange
    rw [e]
    rfl
  · have follows : (fun a : Axis => a.follow (r.encoder ax)) = fun a =>
        if a.state = .braked ∨ a.state = .awaitingPower ∨ a.state = .faulted then
          { a with c := r.encoder ax } else a := funext fun a => a.follow_eq _
    have cases := s.reportAxis_cases (k := settle) st r ax
    unfold State.followed at cases
    rw [follows] at cases
    exact cases
  · exact (State.reportCurrent_energizing e).trans (if_pos ((Heater.hears_above_iff hk 160).2 p))
  · exact (State.reportCurrent_energizing e).trans (if_neg (mt (Heater.hears_above_iff hk 160).1 p))
  · exact (State.reportCurrent_on e).trans (if_pos ((Heater.hears_above_iff hk 160).2 p))
  · exact State.reportCurrent_judged hk e p

end Sys2Proof.Machine
end

section
/-! PROOFS. What the parts of a drive-interval expiry leave (R25, R55): TE's books and axes, JS's tables, the
report windows that close (R30) and the frames that DL sends (R26, R27). -/

namespace Sys2Proof.Machine

variable {k : Settle}

namespace Beside

/-! ### Books (R38 to R41) -/

theorem modBook (st : StationId) (l : Letter) (f : Book → Book) (s : State) :
    Beside s (s.modBook st l f) :=
  .modStation (by cases l <;> exact ⟨rfl, rfl, rfl, rfl, rfl, rfl, rfl, rfl, rfl, rfl, rfl⟩)

theorem bookEvent (st : StationId) (kind : BookEventKind) (l : Letter) (s : State) :
    Beside s (s.bookEvent st kind l) :=
  (bump (by simp) _).after (modStation ⟨rfl, rfl, rfl, rfl, rfl, rfl, rfl, rfl, rfl, rfl, rfl⟩)

theorem startBook (st : StationId) (l : Letter) (s : State) : Beside s (s.startBook st l) :=
  (bookEvent st .started l _).after
    (of_kept (Kept.modBooks (E := fun _ => True) .of_forget
      ((StationKept.idleRunning _).trans (.modBook _ l _))))

theorem startDueBook (st : StationId) (s : State) : Beside s (s.startDueBook st) := by
  unfold State.startDueBook
  dsimp only
  split
  · exact .refl s
  · split
    · exact .refl s
    · exact .ite (startBook ..) (.refl s)

theorem startAtExpiry (st : StationId) (s : State) : Beside s (s.startAtExpiry st) := by
  unfold State.startAtExpiry
  exact .ite (.refl s) (.ite (startDueBook st s) (.after
    (modStation ⟨rfl, rfl, rfl, rfl, rfl, rfl, rfl, rfl, rfl, rfl, rfl⟩) (startDueBook st s)))

theorem faultBook (st : StationId) (l : Letter) (i : Nat) (r : BookReason) (s : State) :
    Beside s (s.faultBook st l i r) :=
  (bookEvent ..).after (modBook ..)

theorem readArmed (st : StationId) (l : Letter) (a : Armed) (cursor : Nat × Nat) (s : State) :
    Beside s (s.readArmed st l a cursor).1 := by
  unfold State.readArmed
  dsimp only
  split
  · exact .after (bookEvent ..) (modBook ..)
  · split
    · split
      · exact faultBook ..
      · exact modBook ..
    · split
      · exact faultBook ..
      · split
        · exact faultBook ..
        · exact modBook ..

theorem readBook (st : StationId) (s : State) : Beside s (s.readBook st).1 := by
  unfold State.readBook
  dsimp only
  split
  · exact .refl s
  · split
    · exact readArmed ..
    · exact readArmed ..
    · exact .refl s

theorem readAtExpiry (st : StationId) (s : State) : Beside s (s.readAtExpiry st) :=
  .ite (.refl s) (readBook st s)

/-! ### Axes (R55, R72, R73, R80) -/

theorem inputChanged (st : StationId) (s : State) : Beside s (s.inputChanged Machine.settle st) :=
  of_kept (E := fun _ => False) (Q := True) (.inputChanged Kept.settle st s)

theorem monitorAxis (st : StationId) (ax : AxisId) (s : State) :
    Beside s (s.monitorAxis Machine.settle st ax) :=
  .ite (.ite (faultAxis ..) (modAxis ..)) (.refl s)

theorem countRelease (st : StationId) (ax : AxisId) (s : State) :
    Beside s (s.countRelease Machine.settle st ax) :=
  .ite (.ite (modAxis ..) (.ite (.refl s) (faultAxis ..))) (.refl s)

theorem driveStation (b : BookPhase) (st : StationId) (s : State) :
    Beside s (s.driveStation Machine.settle b st) := by
  unfold State.driveStation
  dsimp only
  refine .ite (.refl s) ?_
  generalize hu : (if b.moved st = true then _ else _) = u
  have decided : Beside s u := hu ▸ .ite (inputChanged st s) (.refl s)
  have computed (z : Zone) (p : Option BookTarget) (now : Nat) : Beside u (u.modStation st (fun x =>
      (x.computeAxis z p now .az).computeAxis z p now .el)) :=
    modStation ((StationBeside.modAxis _ .az _).trans (.modAxis _ .el _))
  have advanced (v : State) : Beside v (v.modStation st (fun x => { x with
      az := x.az.advance x.claim.grantedLevel, el := x.el.advance x.claim.grantedLevel })) :=
    modStation ⟨rfl, rfl, rfl, rfl, rfl, rfl, rfl, rfl, rfl, rfl, rfl⟩
  exact .after (afterAxes ..) (.after (advanced _) (.after (countRelease ..)
    (.after (countRelease ..) (.after (monitorAxis ..) (.after (monitorAxis ..)
      (.after (computed _ _ _) decided))))))

/-! ### Sweep tables (R109, R114, R119) -/

theorem modProgress (st : StationId) (f : Progress → Progress) (s : State) :
    Beside s (s.modProgress st f) :=
  .modStation ⟨rfl, rfl, rfl, rfl, rfl, rfl, rfl, rfl, rfl, rfl, rfl⟩

theorem clearHold (st : StationId) (s : State) : Beside s (s.clearHold Machine.settle st) := by
  unfold State.clearHold State.setHold
  exact .ite (.refl s) (.after (inputChanged ..)
    (modStation ⟨rfl, rfl, rfl, rfl, rfl, rfl, rfl, rfl, rfl, rfl, rfl⟩))

theorem judgeRecord (x : TableId) (st : StationId) (s : State) :
    Beside s (s.judgeRecord Machine.settle x st) := by
  have counted (u : State) :
      Beside u (u.modTable x (fun t => { t with abandons := t.abandons + 1 })) :=
    of_kept (Kept.modIssued (E := fun _ => True) (Q := False) trivial rfl rfl rfl
      fun n => ⟨n, rfl, rfl⟩)
  unfold State.judgeRecord
  dsimp only
  exact .ite (.refl s) (.ite (.after (clearHold ..) (.after (counted _) (modProgress ..)))
    (.ite (modProgress ..) (modProgress ..)))

theorem judgeTable (x : TableId) (s : State) : Beside s (s.judgeTable Machine.settle x) := by
  have issued (s : State) : Beside s (s.judgeIssue Machine.settle x) := of_kept (Kept.judgeIssue
    (E := fun _ => True) (Q := True) (fun s => (Kept.settle s).weaken) trivial s)
  exact .ite (.after (of_kept (Kept.judgeEnd Kept.settle 2 x _))
    (.after (issued _) (eachOf _ (judgeRecord x) s))) (.refl s)

theorem judgeTables (s : State) : Beside s (s.judgeTables Machine.settle) := by
  have first : Beside s (if (s.table 0).state.runs = true then s.judgeTable Machine.settle 0 else s) :=
    .ite (judgeTable 0 s) (.refl s)
  exact .ite (.after (judgeTable 1 _) first) first

theorem arriveAtTime (x : TableId) (s : State) : Beside s (s.arriveAtTime Machine.settle x) := by
  unfold State.arriveAtTime
  split
  · exact .refl s
  · exact .ite (of_kept (Kept.arriveStart x s)) (.refl s)

end Beside

/-! ### What the windows and the frames leave -/

/-- What neither a lost link nor a frame sent touches. -/
structure Sheltered (s t : State) : Prop where
  time : t.time = s.time
  sensing : t.sensing = s.sensing
  lines : t.lines = s.lines
  panelLine : t.panelLine = s.panelLine
  exchange : ∃ b, t.exchange = { s.exchange with summary := s.exchange.summary ||| b }
  station : ∀ x, (t.station x).cfg = (s.station x).cfg ∧ (t.station x).tags = (s.station x).tags ∧
    (t.station x).fuse1 = (s.station x).fuse1 ∧ (t.station x).fuse2 = (s.station x).fuse2 ∧
    (t.station x).retired = (s.station x).retired
  bytes : ∀ a, ¬ Layout.isOwn a → Memory.read t.mem a = Memory.read s.mem a

namespace Sheltered

theorem trans {s t u : State} (h : Sheltered s t) (k : Sheltered t u) : Sheltered s u where
  time := k.time.trans h.time
  sensing := k.sensing.trans h.sensing
  lines := k.lines.trans h.lines
  panelLine := k.panelLine.trans h.panelLine
  exchange := by
    obtain ⟨a, ha⟩ := h.exchange
    obtain ⟨b, hb⟩ := k.exchange
    exact ⟨a ||| b, by rw [hb, ha]; simp [BitVec.or_assoc]⟩
  station x := by
    obtain ⟨h1, h2, h3, h4, h5⟩ := h.station x
    obtain ⟨k1, k2, k3, k4, k5⟩ := k.station x
    exact ⟨k1.trans h1, k2.trans h2, k3.trans h3, k4.trans h4, k5.trans h5⟩
  bytes a ha := (k.bytes a ha).trans (h.bytes a ha)

theorem of_apart {s t : State} (h : Apart s t)
    (tags : ∀ x, (t.station x).tags = (s.station x).tags) : Sheltered s t :=
  ⟨h.time, h.sensing, h.lines, h.panelLine, h.exchange, fun x => by
    obtain ⟨cfg, -, -, -, -, fuse1, fuse2, retired⟩ := h.station x
    exact ⟨cfg, tags x, fuse1, fuse2, retired⟩, h.bytes⟩

theorem of_beside {s t : State} (h : Beside s t) : Sheltered s t := of_apart h.apart h.tags

theorem refl (s : State) : Sheltered s s := of_beside (.refl s)

theorem bump (x : Tally) (s : State) : Sheltered s (s.bump x) := of_apart (.bump s x) fun _ => rfl

theorem modStation {st : StationId} {f : Station → Station} {s : State}
    (hf : ∀ x, (f x).cfg = x.cfg ∧ (f x).tags = x.tags ∧ (f x).fuse1 = x.fuse1 ∧
      (f x).fuse2 = x.fuse2 ∧ (f x).retired = x.retired) : Sheltered s (s.modStation st f) :=
  { refl s with
    station := fun x => by
      rw [State.station_modStation]
      split
      · subst_vars; exact hf _
      · exact ⟨rfl, rfl, rfl, rfl, rfl⟩ }

theorem of_lost {st : StationId} {s t : State} (h : LinkLost st s t) : Sheltered s t := by
  have down : Sheltered s (s.modStation st (fun x => { x with
      link := { x.link with up := false, missed := 0 } })) :=
    modStation fun _ => ⟨rfl, rfl, rfl, rfl, rfl⟩
  have lost (u : State) : Sheltered u (u.modStation st Station.loseLink) :=
    modStation fun _ => ⟨rfl, rfl, rfl, rfl, rfl⟩
  have faulted : Sheltered s (s.linkFaulted st) := down.trans ((bump _ _).trans (lost _))
  refine faulted.trans (of_apart h.apart fun x => ?_)
  obtain ⟨-, tags, -⟩ := faulted.station x
  rw [h.tags, tags]

theorem publish {s t : State} (h : Sheltered s t) (r : State) : Sheltered s (r.publish t) :=
  { h with bytes := fun a ha => (State.read_publish (Layout.not_isStatus ha)).trans (h.bytes a ha) }

end Sheltered

/-! ### The report windows (R30, R31) -/

/-- Whether the close of its window takes a link DOWN. -/
def Link.loses (retired : Bool) (l : Link) : Bool :=
  !retired && l.misses && decide (2 ≤ l.missed)

/-- A link once its window has closed. -/
def Link.close (retired : Bool) (l : Link) : Link :=
  if l.loses retired then { l with up := false, missed := 0 }
  else if !retired && l.misses then { l with missed := l.missed + 1 } else l

/-- What the close of the windows of some stations leaves. -/
structure Closed (l : List StationId) (s t : State) : Prop where
  sheltered : Sheltered s t
  link : ∀ x, (t.station x).link =
    if x ∈ l then (s.station x).link.close (s.station x).retired else (s.station x).link
  losses : ∀ x, t.tally (.linkLosses x) = s.tally (.linkLosses x) +
    if x ∈ l ∧ (s.station x).link.loses (s.station x).retired = true then 1 else 0
  demand : ∀ x, (t.station x).demand = (s.station x).demand

section CloseWindow

variable {s : State} {st : StationId}

/-- The condition of a missed frame (R30). -/
abbrev Station.misses (x : Station) : Prop :=
  x.retired = false ∧ x.link.up = true ∧ x.link.answered = false

theorem State.closeWindow_not (h : ¬ (s.station st).misses) : s.closeWindow k st = s :=
  if_neg fun c => h ⟨c.1, (Link.misses_iff _).1 c.2⟩

theorem State.closeWindow_counts (h : (s.station st).misses) (hm : (s.station st).link.missed < 2) :
    s.closeWindow k st = s.modStation st (fun x => { x with
      link := { x.link with missed := x.link.missed + 1 } }) :=
  (if_pos ⟨h.1, (Link.misses_iff _).2 h.2⟩).trans (if_pos (by omega))

theorem State.closeWindow_loses (h : (s.station st).misses) (hm : 2 ≤ (s.station st).link.missed) :
    s.closeWindow k st = s.loseLink k st :=
  (if_pos ⟨h.1, (Link.misses_iff _).2 h.2⟩).trans (if_neg (by omega))

theorem Link.close_not {l : Link} {retired : Bool} (h : ¬ (retired = false ∧ l.up = true ∧
    l.answered = false)) : l.close retired = l ∧ l.loses retired = false := by
  have open_ : (!retired && l.misses) = false := by
    rw [← Bool.not_eq_true, Bool.and_eq_true, Bool.not_eq_true', Link.misses_iff]
    exact h
  simp [Link.close, Link.loses, open_]

theorem Link.close_misses {l : Link} {retired : Bool} (h : retired = false ∧ l.up = true ∧
    l.answered = false) : l.loses retired = decide (2 ≤ l.missed) ∧ l.close retired =
      if 2 ≤ l.missed then { l with up := false, missed := 0 }
      else { l with missed := l.missed + 1 } := by
  have misses : l.misses = true := (Link.misses_iff l).2 h.2
  simp [Link.close, Link.loses, misses, h.1]

end CloseWindow

theorem Closed.refl (s : State) : Closed [] s s :=
  ⟨.refl s, fun _ => rfl, fun _ => by simp, fun _ => rfl⟩

theorem LinkLost.demand {st : StationId} {s t : State} (h : LinkLost st s t) (x : StationId) :
    (t.station x).demand = (s.station x).demand := by
  obtain ⟨-, -, demand, -⟩ := h.apart.station x
  rw [demand, State.station_linkFaulted]
  split
  · subst_vars; rfl
  · rfl

/-- What the close of one window leaves. -/
structure WindowClosed (st : StationId) (s t : State) : Prop where
  sheltered : Sheltered s t
  link : (t.station st).link = (s.station st).link.close (s.station st).retired
  losses : t.tally (.linkLosses st) = s.tally (.linkLosses st) +
    if (s.station st).link.loses (s.station st).retired then 1 else 0
  others : ∀ x, x ≠ st → (t.station x).link = (s.station x).link ∧
    t.tally (.linkLosses x) = s.tally (.linkLosses x)
  demand : ∀ x, (t.station x).demand = (s.station x).demand

theorem State.closeWindow_closed (st : StationId) (s : State) :
    WindowClosed st s (s.closeWindow settle st) := by
  by_cases h : (s.station st).misses
  · obtain ⟨loses, close⟩ := Link.close_misses h
    by_cases hm : 2 ≤ (s.station st).link.missed
    · rw [if_pos hm] at close
      rw [State.closeWindow_loses h hm]
      have lost := s.loseLink_lost st
      exact ⟨.of_lost lost, ((lost.link st).trans (if_pos rfl)).trans close.symm,
        (lost.losses st).trans (by simp [loses, hm]),
        fun x n => ⟨(lost.link x).trans (if_neg n.symm), (lost.losses x).trans (if_neg n.symm)⟩,
        lost.demand⟩
    · rw [if_neg hm] at close
      rw [State.closeWindow_counts h (by omega)]
      refine ⟨.modStation fun _ => ⟨rfl, rfl, rfl, rfl, rfl⟩, ?_, by simp [loses, hm],
        fun x n => ⟨?_, rfl⟩, fun x => ?_⟩ <;> rw [State.station_modStation]
      · rw [if_pos rfl, close]
      · rw [if_neg n.symm]
      · split
        · subst_vars; rfl
        · rfl
  · rw [State.closeWindow_not h]
    obtain ⟨close, loses⟩ := Link.close_not h
    exact ⟨.refl s, close.symm, by simp [loses], fun _ _ => ⟨rfl, rfl⟩, fun _ => rfl⟩

/-- The windows of further stations. -/
theorem Closed.cons {a : StationId} {l : List StationId} {s t u : State} (ha : a ∉ l)
    (h : WindowClosed a s t) (k : Closed l t u) : Closed (a :: l) s u := by
  have retired (x : StationId) : (t.station x).retired = (s.station x).retired := by
    obtain ⟨-, -, -, -, e⟩ := h.sheltered.station x
    exact e
  refine ⟨h.sheltered.trans k.sheltered, fun x => ?_, fun x => ?_,
    fun x => (k.demand x).trans (h.demand x)⟩
  · rw [k.link, retired]
    by_cases e : x = a
    · subst e
      rw [if_neg ha, h.link, if_pos List.mem_cons_self]
    · obtain ⟨link, -⟩ := h.others x e
      simp [link, e]
  · rw [k.losses, retired]
    by_cases e : x = a
    · subst e
      simp [ha, h.losses]
    · obtain ⟨link, losses⟩ := h.others x e
      simp [link, losses, e]

theorem State.closeWindows_closed {l : List StationId} (hl : l.Nodup) (s : State) :
    Closed l s (eachOf l (State.closeWindow settle) s) := by
  induction l generalizing s with
  | nil => exact .refl s
  | cons a l ih =>
    obtain ⟨ha, hl⟩ := List.nodup_cons.1 hl
    exact .cons ha (s.closeWindow_closed a) (ih hl _)

/-! ### The next frames (R26, R27) -/

/-- Changes of stations leave everything else of the state. -/
theorem State.eachOf_modStation_eq (l : List StationId) (f : Station → Station) (s : State) :
    ∃ v, eachOf l (fun a s => s.modStation a f) s = { s with stations := v } := by
  induction l generalizing s with
  | nil => exact ⟨_, rfl⟩
  | cons a l ih =>
    obtain ⟨v, h⟩ := ih (s.modStation a f)
    exact ⟨v, h⟩

/-- The probe request of the next frame named, its window started at the first naming (R27, R170). -/
def Station.named (x : Station) : Station :=
  match x.probeQueue.head? with
  | none => x
  | some area => x.modHeater area (fun h => if h.probeNamed then h
      else { h with probeNamed := true, probeWindow := some 1000 })

/-- The number of the next frame (R26). -/
def Link.nextSeq (l : Link) : Byte :=
  match l.seq with
  | none => 0
  | some n => n + 1

theorem Station.send_retired {x : Station} (h : x.retired = true) : x.send = x := if_pos h

theorem Station.send_eq {x : Station} (h : x.retired = false) : x.send = { x.named with
    link := { x.named.link with seq := some x.link.nextSeq, answered := false },
    demand := Frame.demand x.link.nextSeq x.named.az.state.powered x.named.el.state.powered
      x.named.reflector.state.closed x.named.feed.state.closed x.named.probeQueue.head?
      x.named.az.rateOut x.named.el.rateOut } :=
  if_neg (by rw [h]; decide)

/-- What the naming of a probe request leaves of a station. -/
structure Named (x y : Station) : Prop where
  cfg : y.cfg = x.cfg
  tags : y.tags = x.tags
  fuse1 : y.fuse1 = x.fuse1
  fuse2 : y.fuse2 = x.fuse2
  retired : y.retired = x.retired
  link : y.link = x.link
  az : y.az = x.az
  el : y.el = x.el
  probeQueue : y.probeQueue = x.probeQueue

theorem Station.named_named (x : Station) : Named x x.named := by
  unfold Station.named
  split
  · exact ⟨rfl, rfl, rfl, rfl, rfl, rfl, rfl, rfl, rfl⟩
  · next area _ => cases area <;> exact ⟨rfl, rfl, rfl, rfl, rfl, rfl, rfl, rfl, rfl⟩

theorem Station.heater_named (x : Station) (area : Area) : x.named.heater area =
    if x.probeQueue.head? = some area ∧ (x.heater area).probeNamed = false then
      { x.heater area with probeNamed := true, probeWindow := some 1000 }
    else x.heater area := by
  unfold Station.named
  cases h : x.probeQueue.head? with
  | none => simp
  | some a =>
    dsimp only
    rw [Station.heater_modHeater]
    by_cases e : a = area
    · subst e
      cases (x.heater a).probeNamed <;> simp
    · simp [e]

theorem Station.heater_send {x : Station} (h : x.retired = false) (area : Area) :
    x.send.heater area = x.named.heater area := by
  rw [Station.send_eq h]
  cases area <;> rfl

theorem Station.send_kept (x : Station) : x.send.cfg = x.cfg ∧ x.send.tags = x.tags ∧
    x.send.fuse1 = x.fuse1 ∧ x.send.fuse2 = x.fuse2 ∧ x.send.retired = x.retired := by
  cases h : x.retired
  · rw [Station.send_eq h]
    have n := x.named_named
    exact ⟨n.cfg, n.tags, n.fuse1, n.fuse2, n.retired.trans h⟩
  · rw [Station.send_retired h]
    exact ⟨rfl, rfl, rfl, rfl, h⟩

/-- The command bits of a demand frame (R197). -/
theorem Frame.commandBits (a b c d e f : Bool) : let bit (b : Bool) (n : Nat) : Nat := if b then 2 ^ n else 0
    let bits := BitVec.ofNat 8 (bit a 0 + bit b 1 + bit c 2 + bit d 3 + bit e 4 + bit f 5)
    bits.getLsbD 0 = a ∧ bits.getLsbD 1 = b ∧ bits.getLsbD 2 = c ∧ bits.getLsbD 3 = d ∧
      bits.getLsbD 4 = e ∧ bits.getLsbD 5 = f ∧ bits.getLsbD 6 = false ∧ bits.getLsbD 7 = false := by
  revert a b c d e f
  decide

/-- The frame that `send` leaves on a station's port (R26, R27). -/
theorem Station.send_frame {x : Station} (h : x.retired = false) :
    x.send.link = { x.link with seq := some x.link.nextSeq, answered := false } ∧
    ∃ bits : Byte, x.send.demand = Frame.seal (x.link.nextSeq :: bits ::
        (Bytes.ofInt 4 x.send.az.rateOut ++ Bytes.ofInt 4 x.send.el.rateOut)) ∧
      bits.getLsbD 0 = x.send.az.state.powered ∧ bits.getLsbD 1 = x.send.el.state.powered ∧
      bits.getLsbD 2 = x.send.reflector.state.closed ∧ bits.getLsbD 3 = x.send.feed.state.closed ∧
      bits.getLsbD 4 = x.send.probeQueue.head?.isSome ∧
      bits.getLsbD 5 = (x.send.probeQueue.head? == some .feed) ∧
      bits.getLsbD 6 = false ∧ bits.getLsbD 7 = false := by
  rw [Station.send_eq h]
  exact ⟨by rw [x.named_named.link], _, rfl, Frame.commandBits ..⟩

/-- The probe request of a frame (R27). -/
theorem Station.send_probe {x : Station} (h : x.retired = false) (area : Area) :
    (x.probeQueue.head? = some area → (x.heater area).probeNamed = false → x.send.heater area =
      { x.heater area with probeNamed := true, probeWindow := some 1000 }) ∧
    (x.probeQueue.head? ≠ some area ∨ (x.heater area).probeNamed = true →
      x.send.heater area = x.heater area) ∧
    x.send.az = x.az ∧ x.send.el = x.el ∧ x.send.probeQueue = x.probeQueue := by
  rw [Station.heater_send h, Station.heater_named]
  refine ⟨fun q n => if_pos ⟨q, n⟩, fun n => if_neg ?_, ?_⟩
  · rintro ⟨q, e⟩
    obtain n | n := n
    · exact n q
    · rw [n] at e; cases e
  · rw [Station.send_eq h]
    exact ⟨x.named_named.az, x.named_named.el, x.named_named.probeQueue⟩

/-- The zone that a frame's probe request names has been named. -/
theorem Station.send_names {x : Station} (h : x.retired = false) {area : Area}
    (q : x.send.probeQueue.head? = some area) : (x.send.heater area).probeNamed = true := by
  obtain ⟨named, stands, -, -, queue⟩ := Station.send_probe h area
  rw [queue] at q
  cases e : (x.heater area).probeNamed
  · rw [named q e]
  · rw [stands (.inr e), e]

/-! ### The whole expiry (R25, R55) -/

theorem mem_allStations (x : StationId) : x ∈ allStations := List.mem_finRange x

/-- The next 20 ms started (R25). -/
def State.nextInterval (s : State) : State := { s with time := { s.time with drive := 20 } }

/-- TE's and JS's work of an expiry. -/
def State.worked (s : State) : State :=
  (((eachOf allStations (State.driveStation settle s.bookPhase) s.bookPhase.read).judgeTables
    settle).arriveAtTime settle 0).arriveAtTime settle 1

/-- Every report window closed. -/
def State.windowsClosed (s : State) : State := eachOf allStations (State.closeWindow settle) s

/-- Every frame sent. -/
def State.framesSent (s : State) : State :=
  eachOf allStations (fun st s => s.modStation st Station.send) s

/-- The state of the part at the end of an expiry's work, array time not yet shown. -/
def State.expired (s : State) : State := s.nextInterval.worked.windowsClosed.framesSent

theorem State.driveExpiry_eq (s : State) :
    s.driveExpiry settle = s.expired.modTime (fun t => { t with shown := t.time }) := rfl

theorem State.bookPhase_read (s : State) : s.bookPhase.read =
    eachOf allStations State.readAtExpiry (eachOf allStations State.startAtExpiry s) := by
  rw [State.bookPhase]

theorem Beside.worked (s : State) : Beside s s.worked := by
  have started := eachOf allStations startAtExpiry s
  have read := (eachOf allStations readAtExpiry _).after started
  rw [← State.bookPhase_read] at read
  have driven := (eachOf allStations (driveStation s.bookPhase) _).after read
  unfold State.worked
  exact (arriveAtTime 1 _).after ((arriveAtTime 0 _).after ((judgeTables _).after driven))

theorem State.windowsClosed_closed (s : State) : Closed allStations s s.windowsClosed :=
  s.closeWindows_closed (List.nodup_finRange 16)

theorem State.station_framesSent (s : State) (x : StationId) :
    s.framesSent.station x = (s.station x).send :=
  (State.station_eachOf_modStation (List.nodup_finRange 16) _ s x).trans (if_pos (mem_allStations x))

theorem Sheltered.framesSent (s : State) : Sheltered s s.framesSent := by
  obtain ⟨v, e⟩ := State.eachOf_modStation_eq allStations Station.send s
  have station (x : StationId) := (s.station x).send_kept
  refine ⟨?_, ?_, ?_, ?_, ⟨0, ?_⟩, fun x => by rw [State.station_framesSent]; exact station x,
    fun a _ => ?_⟩ <;> unfold State.framesSent <;> rw [e]
  simp

theorem State.tally_framesSent (s : State) (x : Tally) : s.framesSent.tally x = s.tally x := by
  obtain ⟨v, e⟩ := State.eachOf_modStation_eq allStations Station.send s
  unfold State.framesSent
  rw [e]
  rfl

theorem Link.close_seq (l : Link) (b : Bool) : (l.close b).seq = l.seq := by
  unfold Link.close
  split
  · rfl
  · split <;> rfl

theorem Link.close_report (l : Link) (b : Bool) : (l.close b).report = l.report := by
  unfold Link.close
  split
  · rfl
  · split <;> rfl

/-- What an expiry leaves of the ports, array time and the frame of the state. -/
structure Expired (s t : State) : Prop where
  sheltered : Sheltered s.nextInterval t
  station : ∀ x, ∃ y : Station, t.station x = y.send ∧ y.retired = (s.station x).retired ∧
    y.link = (s.station x).link.close (s.station x).retired ∧ y.demand = (s.station x).demand
  losses : ∀ x, t.tally (.linkLosses x) = s.tally (.linkLosses x) +
    if (s.station x).link.loses (s.station x).retired then 1 else 0

theorem State.expired_expired (s : State) : Expired s s.expired := by
  have worked := Beside.worked s.nextInterval
  have closed := s.nextInterval.worked.windowsClosed_closed
  have station (x : StationId) : (s.nextInterval.worked.station x).link = (s.station x).link ∧
      (s.nextInterval.worked.station x).demand = (s.station x).demand ∧
      (s.nextInterval.worked.station x).retired = (s.station x).retired := by
    obtain ⟨-, link, demand, -, -, -, -, retired⟩ := worked.apart.station x
    exact ⟨link, demand, retired⟩
  refine ⟨((Sheltered.of_beside worked).trans closed.sheltered).trans (.framesSent _), fun x => ?_,
    fun x => ?_⟩
  · obtain ⟨link, demand, retired⟩ := station x
    obtain ⟨-, -, -, -, kept⟩ := closed.sheltered.station x
    refine ⟨_, State.station_framesSent _ x, kept.trans retired, ?_, (closed.demand x).trans demand⟩
    rw [closed.link, if_pos (mem_allStations x), link, retired]
  · obtain ⟨link, -, retired⟩ := station x
    rw [State.expired, State.tally_framesSent, closed.losses, worked.losses, link, retired]
    simp only [mem_allStations, true_and]
    rfl

end Sys2Proof.Machine
end

section
/-! PROOFS. The steps of a drive-interval expiry for one station (R38, R39, R42, R55, R73, R181). -/

namespace Sys2Proof.Machine

variable {k : Settle}

/-! ### Books at an expiry (R38, R39, R181) -/

/-- A book that another of its station takes the place of (R38). -/
def Book.yield (b : Book) : Book :=
  if b.state = .running then { b with state := .idle, cursor := none } else b

/-- The station's record once its pending book has started (R38). -/
def Station.starting (l : Letter) (now : Nat) (x : Station) : Station :=
  { x.idleRunning.modBook l Book.run with
    lastBook := some { kind := .started, letter := l, time := now } }

theorem State.startBook_eq (st : StationId) (l : Letter) (s : State) : s.startBook st l =
    (s.modStation st (Station.starting l s.time.time)).bump (.bookEvents st) := by
  unfold State.startBook State.bookEvent
  rw [State.modStation_twice]
  rfl

section Book

variable {x : Station} {l : Letter}

theorem Station.modBook_ext {f g : Book → Book} (h : f (x.book l) = g (x.book l)) :
    x.modBook l f = x.modBook l g := by
  cases l
  case a => rw [Station.modBook, Station.modBook, show f x.bookA = g x.bookA from h]
  case b => rw [Station.modBook, Station.modBook, show f x.bookB = g x.bookB from h]

theorem Station.book_modBook (x : Station) (l m : Letter) (f : Book → Book) :
    (x.modBook l f).book m = if l = m then f (x.book l) else x.book m := by
  cases l <;> cases m <;> rfl

theorem Station.book_pending (h : x.bookIn .pending = some l) : (x.book l).state = .pending := by
  unfold Station.bookIn at h
  split at h
  · next e => cases h; exact e
  · split at h
    · next e => cases h; exact e
    · cases h

/-- Beside a pending book, the other is the one that can run. -/
theorem Station.idleRunning_pending (h : (x.book l).state = .pending) :
    x.idleRunning = x.modBook l.other Book.yield := by
  have yields (b : Book) (e : b.state = .running) : b.idle = b.yield := by
    rw [Book.yield, if_pos e]; rfl
  have stays (m : Letter) (n : (x.book m).state ≠ .running) : x.modBook m Book.yield = x := by
    have e : (x.book m).yield = x.book m := if_neg n
    cases m
    case a => rw [Station.modBook, show x.bookA.yield = x.bookA from e]
    case b => rw [Station.modBook, show x.bookB.yield = x.bookB from e]
  unfold Station.idleRunning Station.bookIn
  cases l
  case a =>
    rw [if_neg (by rw [show x.bookA.state = .pending from h]; decide)]
    by_cases e : x.bookB.state = .running
    · rw [if_pos e]; exact Station.modBook_ext (l := .b) (yields _ e)
    · rw [if_neg e]; exact (stays .b e).symm
  case b =>
    by_cases e : x.bookA.state = .running
    · rw [if_pos e]; exact Station.modBook_ext (l := .a) (yields _ e)
    · rw [if_neg e, if_neg (by rw [show x.bookB.state = .pending from h]; decide)]
      exact (stays .a e).symm

/-- Which of the books runs, read off both letters (R42). -/
theorem Station.runsSame_iff (x y : Station) : x.runsSame y = true ↔
    ∀ l, (x.book l).state = .running ↔ (y.book l).state = .running := by
  have same (a b : BookState) : ((a == .running) == (b == .running)) = true ↔
      (a = .running ↔ b = .running) := by
    rw [beq_iff_eq, Bool.eq_iff_iff, beq_iff_eq, beq_iff_eq]
  rw [Station.runsSame, Bool.and_eq_true, same, same]
  exact ⟨fun h l => by cases l; exacts [h.1, h.2], fun h => ⟨h .a, h .b⟩⟩

theorem Station.not_runsSame_starting (h : (x.book l).state = .pending) (now : Nat) :
    x.runsSame (x.starting l now) = false := by
  rw [← Bool.not_eq_true, Station.runsSame_iff]
  intro same
  have other (m : Letter) : ((x.starting m now).book m) = ((x.idleRunning.modBook m Book.run).book m) := by
    cases m <;> rfl
  have runs : ((x.starting l now).book l).state = .running := by
    rw [other, Station.book_modBook, if_pos rfl]
    rfl
  rw [(same l).2 runs] at h
  cases h

end Book

section Start

variable {s : State} {st : StationId} {l : Letter} {a : Armed}

theorem State.startAtExpiry_retired (h : (s.station st).retired = true) : s.startAtExpiry st = s :=
  if_pos h

theorem State.readAtExpiry_retired (h : (s.station st).retired = true) : s.readAtExpiry st = s :=
  if_pos h

theorem State.readAtExpiry_working (h : (s.station st).retired = false) :
    s.readAtExpiry st = (s.readBook st).1 :=
  if_neg (by rw [h]; decide)

theorem State.startDueBook_not (h : ∀ l a, (s.station st).bookIn .pending = some l →
    ((s.station st).book l).armed = some a → s.time.time < a.first) : s.startDueBook st = s := by
  unfold State.startDueBook
  dsimp only
  split
  · rfl
  · next l hl =>
    split
    · rfl
    · next a ha => exact if_neg (Nat.not_le.2 (h l a hl ha))

theorem State.startDueBook_due (hl : (s.station st).bookIn .pending = some l)
    (ha : ((s.station st).book l).armed = some a) (ht : a.first ≤ s.time.time) :
    s.startDueBook st = s.startBook st l := by
  unfold State.startDueBook
  dsimp only
  rw [hl]
  dsimp only
  rw [ha]
  exact if_pos ht

theorem State.startAtExpiry_not (hr : (s.station st).retired = false)
    (h : ∀ l a, (s.station st).bookIn .pending = some l →
      ((s.station st).book l).armed = some a → s.time.time < a.first) : s.startAtExpiry st = s := by
  have same : (s.station st).runsSame (s.station st) = true :=
    (Station.runsSame_iff _ _).2 fun _ => Iff.rfl
  unfold State.startAtExpiry
  dsimp only
  rw [hr, State.startDueBook_not h, same]
  rfl

/-- The station's record once its due book has started: a standing shed order is withdrawn (R38, R181). -/
def Station.started (l : Letter) (now : Nat) (x : Station) : Station :=
  { x.starting l now with
    shedOrder := false,
    reflector := { x.reflector with tiltUsed := x.reflector.tiltUsed || x.shedOrder } }

/-- The station's record after a due book's start, its two books written out. -/
theorem Station.started_eq {x : Station} (h : (x.book l).state = .pending)
    (ha : (x.book l).armed = some a) (now : Nat) : x.started l now =
    let y := (x.modBook l.other Book.yield).modBook l (fun b => { b with
      state := .running, cursor := some (0, a.first), fault := none })
    { y with
      lastBook := some { kind := .started, letter := l, time := now },
      shedOrder := false,
      reflector := { y.reflector with tiltUsed := y.reflector.tiltUsed || x.shedOrder } } := by
  have own : (x.modBook l.other Book.yield).book l = x.book l := by cases l <;> rfl
  have run : x.idleRunning.modBook l Book.run = (x.modBook l.other Book.yield).modBook l (fun b =>
      { b with state := .running, cursor := some (0, a.first), fault := none }) := by
    rw [Station.idleRunning_pending h]
    refine Station.modBook_ext ?_
    rw [own, Book.run, ha]
    rfl
  have reflector : ((x.modBook l.other Book.yield).modBook l (fun b => { b with
      state := .running, cursor := some (0, a.first), fault := none })).reflector = x.reflector := by
    cases l <;> rfl
  dsimp only
  rw [Station.started, Station.starting, run, reflector]

/-- A start leaves the shed order and the REFLECTOR zone to R181. -/
theorem Station.starting_shed (l : Letter) (now : Nat) (x : Station) :
    (x.starting l now).shedOrder = x.shedOrder ∧ (x.starting l now).reflector = x.reflector := by
  unfold Station.starting Station.idleRunning
  split
  · cases l <;> exact ⟨rfl, rfl⟩
  · next m _ => cases l <;> cases m <;> exact ⟨rfl, rfl⟩

theorem State.startAtExpiry_due (hr : (s.station st).retired = false)
    (hl : (s.station st).bookIn .pending = some l)
    (ha : ((s.station st).book l).armed = some a) (ht : a.first ≤ s.time.time) :
    Counts [.bookEvents st] s (s.startAtExpiry st) ∧ (s.startAtExpiry st).blocks =
      (s.modStation st (Station.started l s.time.time)).blocks := by
  have moved := Station.not_runsSame_starting (Station.book_pending hl) s.time.time
  obtain ⟨order, reflector⟩ := (s.station st).starting_shed l s.time.time
  have own : ((s.startBook st l).station st) = (s.station st).starting l s.time.time := by
    rw [State.startBook_eq, State.station_bump, State.station_modStation, if_pos rfl]
  have counts : Counts [.bookEvents st] s (s.startBook st l) := by
    rw [State.startBook_eq]
    exact (Counts.bump (s.modStation st _) _).of_before rfl rfl rfl
  unfold State.startAtExpiry
  dsimp only
  rw [hr, State.startDueBook_due hl ha ht, own, moved, order]
  cases e : (s.station st).shedOrder
  · refine ⟨counts, ?_⟩
    change (s.startBook st l).blocks = _
    rw [State.startBook_eq, State.blocks_bump]
    refine congrArg State.blocks (State.modStation_ext ?_)
    rw [Station.started, e, Bool.or_false, ← reflector, ← e, ← order]
  · refine ⟨counts.trans (.of_eq rfl rfl rfl), ?_⟩
    change ((s.startBook st l).modStation st Station.withdrawShed).blocks = _
    rw [State.startBook_eq]
    change ((s.modStation st _).modStation st Station.withdrawShed).blocks = _
    rw [State.modStation_twice]
    refine congrArg State.blocks (State.modStation_ext ?_)
    rw [Station.started, e, Bool.or_true, ← reflector]
    rfl

end Start

/-! ### TE's axes at an expiry (R55, R73) -/

theorem BookPhase.moved_iff (b : BookPhase) (st : StationId) : b.moved st = true ↔
    ¬ ((∀ l, ((b.before.station st).book l).state = .running ↔
        ((b.started.station st).book l).state = .running) ∧
      ∀ l, ((b.started.station st).book l).state = .running ↔
        ((b.read.station st).book l).state = .running) := by
  rw [← Station.runsSame_iff, ← Station.runsSame_iff, ← Bool.and_eq_true, BookPhase.moved,
    Bool.not_eq_true', Bool.not_eq_true]

theorem BookPhase.handed_eq (b : BookPhase) (st : StationId) (x : Station) :
    if x.bookA = (b.read.station st).bookA ∧ x.bookB = (b.read.station st).bookB then
      b.handed st x = (b.started.readBook st).2 else b.handed st x = none := by
  unfold BookPhase.handed
  split <;> rfl

/-- The source decided again where a book entered or left RUNNING (R42). -/
def State.bookDecided (k : Settle) (b : BookPhase) (st : StationId) (s : State) : State :=
  if b.moved st then s.inputChanged k st else s

theorem State.driveStation_retired {b : BookPhase} {st : StationId} {s : State}
    (h : (s.station st).retired = true) : s.driveStation k b st = s :=
  if_pos h

theorem State.driveStation_eq {b : BookPhase} {st : StationId} {s : State}
    (h : (s.station st).retired = false) :
    let decided := s.bookDecided k b st
    let x := decided.station st
    let computed := decided.modStation st (fun y =>
      (y.computeAxis (decided.zone x.cfg.zone) (b.handed st x) decided.time.time .az).computeAxis
        (decided.zone x.cfg.zone) (b.handed st x) decided.time.time .el)
    let watched := (computed.monitorAxis k st .az).monitorAxis k st .el
    let counted := (watched.countRelease k st .az).countRelease k st .el
    s.driveStation k b st = (counted.modStation st (fun x => { x with
      az := x.az.advance x.claim.grantedLevel,
      el := x.el.advance x.claim.grantedLevel })).afterAxes k st x :=
  if_neg (by rw [h]; decide)

section Advance

variable {a : Axis} {level : Level}

theorem Axis.advance_arrives (h : a.state = .slewing ∨ a.state = .catchingUp)
    (on : a.onSource = some true) : a.advance level = a.enter .tracking := by
  unfold Axis.advance
  obtain h | h := h <;> rw [h, on] <;> rfl

theorem Axis.advance_leaves (h : a.state = .tracking) (off : a.onSource ≠ some true)
    (n : level ≠ .none) :
    a.advance level = a.enter (if level = .slew then .slewing else .catchingUp) := by
  unfold Axis.advance
  dsimp only
  rw [h, beq_false_of_ne off]
  cases level
  case none => exact absurd rfl n
  all_goals rfl

theorem Axis.advance_rests (h : a.state = .stowing) (on : a.onSource = some true) (z : a.s = 0) :
    a.advance level = { a.enter .stowed with
      errorRun := 0, limited := false, windFloor := false } := by
  unfold Axis.advance Axis.toStowed Axis.enterResting Axis.enter
  dsimp only
  rw [h, on, z]
  rfl

/-- No move of R73 but those three. -/
theorem Axis.advance_stands
    (arrives : ¬ ((a.state = .slewing ∨ a.state = .catchingUp) ∧ a.onSource = some true))
    (leaves : ¬ (a.state = .tracking ∧ ¬ a.onSource = some true ∧ level ≠ .none))
    (rests : ¬ (a.state = .stowing ∧ a.onSource = some true ∧ a.s = 0)) :
    a.advance level = a := by
  unfold Axis.advance
  dsimp only
  cases h : a.state
  case slewing => exact if_neg (by simpa [h] using arrives)
  case catchingUp => exact if_neg (by simpa [h] using arrives)
  case stowing => exact if_neg (by simpa [h] using rests)
  case tracking =>
    by_cases on : a.onSource = some true
    · exact if_pos (by simp [on])
    · have none : level = .none := by simpa [h, on] using leaves
      rw [none, beq_false_of_ne on]
      rfl
  all_goals rfl

end Advance

end Sys2Proof.Machine
end

section
/-! PROOFS. The whole drive-interval expiry (R25, R26, R30, R55): what it leaves on each station's port. -/

namespace Sys2Proof.Machine

theorem exec_driveIntervalExpiry_due {s : State} (h : s.time.drive = 0) :
    exec .driveIntervalExpiry s = .next (s.publish (s.driveExpiry settle)) := by
  change execDriveIntervalExpiry s = _
  unfold execDriveIntervalExpiry
  exact event_guarded (c := fun s => s.time.drive = 0) h

theorem exec_driveIntervalExpiry_early {s : State} (h : s.time.drive ≠ 0) :
    exec .driveIntervalExpiry s = .next s := by
  change execDriveIntervalExpiry s = _
  unfold execDriveIntervalExpiry
  exact event_unguarded (c := fun s => s.time.drive = 0) h

section Expired

variable {s t : State} {st : StationId}

/-- The port of a station that is not retired: its window closed, its next frame sent (R26, R30). -/
theorem Expired.link (e : Expired s t) (h : (s.station st).retired = false) :
    (t.station st).link = { (s.station st).link.close false with
      seq := some (s.station st).link.nextSeq, answered := false } := by
  obtain ⟨y, sent, retired, link, -⟩ := e.station st
  rw [h] at retired link
  rw [sent, (Station.send_frame retired).1, link, Link.nextSeq, Link.close_seq, Link.nextSeq]

/-- The missed frames and the losses of a link (R30). -/
theorem Expired.counts (e : Expired s t) (h : (s.station st).retired = false) :
    let l := (s.station st).link
    let missed := l.up = true ∧ l.answered = false
    let lost := missed ∧ 2 ≤ l.missed
    let y := t.station st
    (lost → y.link.up = false ∧ y.link.missed = 0 ∧
      t.tally (.linkLosses st) = s.tally (.linkLosses st) + 1) ∧
    (¬ lost → y.link.up = l.up ∧ t.tally (.linkLosses st) = s.tally (.linkLosses st)) ∧
    (missed → ¬ lost → y.link.missed = l.missed + 1) ∧
    (¬ missed → y.link.missed = l.missed) := by
  intro l missed lost y
  have link := e.link h
  have losses := e.losses st
  rw [h] at losses
  by_cases m : missed
  · obtain ⟨loses, close⟩ := Link.close_misses (retired := false) ⟨rfl, m⟩
    by_cases n : 2 ≤ l.missed
    · rw [close, if_pos n] at link
      rw [loses, if_pos (decide_eq_true n)] at losses
      have down : lost := ⟨m, n⟩
      exact ⟨fun _ => ⟨congrArg Link.up link, congrArg Link.missed link, losses⟩,
        fun c => absurd down c, fun _ c => absurd down c, fun c => absurd m c⟩
    · rw [close, if_neg n] at link
      rw [loses, if_neg (by simpa using n)] at losses
      have up := congrArg Link.up link
      have missing := congrArg Link.missed link
      have stands : ¬ lost := fun c => n c.2
      exact ⟨fun c => absurd c stands, fun _ => ⟨up, losses.trans (BitVec.add_zero _)⟩,
        fun _ _ => missing, fun c => absurd m c⟩
  · obtain ⟨close, loses⟩ := Link.close_not (retired := false) fun c => m c.2
    rw [close] at link
    rw [loses, if_neg Bool.false_ne_true] at losses
    have up := congrArg Link.up link
    have missing := congrArg Link.missed link
    have stands : ¬ lost := fun c => m c.1
    exact ⟨fun c => absurd c stands, fun _ => ⟨up, losses.trans (BitVec.add_zero _)⟩,
      fun c => absurd c m, fun _ => missing⟩

/-- The frame of a station that is not retired (R26, R27). -/
theorem Expired.frame (e : Expired s t) (h : (s.station st).retired = false) :
    let y := t.station st
    let probe := y.probeQueue.head?
    ∃ bits : Byte, y.demand = Frame.seal ((s.station st).link.nextSeq :: bits ::
        (Bytes.ofInt 4 y.az.rateOut ++ Bytes.ofInt 4 y.el.rateOut)) ∧
      bits.getLsbD 0 = y.az.state.powered ∧ bits.getLsbD 1 = y.el.state.powered ∧
      bits.getLsbD 2 = y.reflector.state.closed ∧ bits.getLsbD 3 = y.feed.state.closed ∧
      (bits.getLsbD 4 = true ↔ probe ≠ none) ∧ (bits.getLsbD 5 = true ↔ probe = some .feed) ∧
      bits.getLsbD 6 = false ∧ bits.getLsbD 7 = false ∧
      ∀ area, probe = some area → (y.heater area).probeNamed = true := by
  obtain ⟨y, sent, retired, link, -⟩ := e.station st
  rw [h] at retired link
  have next : y.link.nextSeq = (s.station st).link.nextSeq := by
    rw [link, Link.nextSeq, Link.close_seq, Link.nextSeq]
  obtain ⟨-, bits, demand, b0, b1, b2, b3, b4, b5, b6, b7⟩ := Station.send_frame retired
  rw [next] at demand
  dsimp only
  rw [sent]
  refine ⟨bits, demand, b0, b1, b2, b3, ?_, ?_, b6, b7, fun _ => Station.send_names retired⟩
  · rw [b4, Option.isSome_iff_ne_none]
  · rw [b5, beq_iff_eq]

/-- A retired station's port is idle (R31). -/
theorem Expired.idle (e : Expired s t) (h : (s.station st).retired = true) :
    (t.station st).link = (s.station st).link ∧ (t.station st).demand = (s.station st).demand := by
  obtain ⟨y, sent, retired, link, demand⟩ := e.station st
  rw [h] at retired link
  rw [sent, Station.send_retired retired, link]
  exact ⟨(Link.close_not (by simp)).1, demand⟩

end Expired

/-- The work of an expiry in its order (R55). -/
theorem State.expired_eq (s : State) : s.expired =
    let all := List.finRange 16
    let first := { s with time := { s.time with drive := 20 } }
    let started := eachOf all State.startAtExpiry first
    let b : BookPhase := { before := first, started := started,
                           read := eachOf all State.readAtExpiry started }
    let js := (eachOf all (State.driveStation settle b) b.read).judgeTables settle
    let closed := eachOf all (State.closeWindow settle)
      ((js.arriveAtTime settle 0).arriveAtTime settle 1)
    eachOf all (fun st s => s.modStation st Station.send) closed := by
  unfold State.expired State.framesSent State.windowsClosed State.worked State.bookPhase allStations
  rfl

/-- An expiry that shows array time and publishes its registers leaves the ports as they are. -/
theorem Expired.shown {s u : State} (e : Expired s u) :
    let t := s.publish (u.modTime (fun t => { t with shown := t.time }))
    (∀ st, t.station st = u.station st) ∧ (∀ x, t.tally x = u.tally x) ∧
    t.time = { s.time with drive := 20, shown := s.time.time } ∧
    t.sensing = s.sensing ∧ t.lines = s.lines ∧ t.panelLine = s.panelLine ∧
    t.exchange.queue = s.exchange.queue ∧ t.exchange.mask = s.exchange.mask ∧
    ∀ a, ¬ Layout.isOwn a → Memory.read t.mem a = Memory.read s.mem a := by
  obtain ⟨time, sensing, lines, panelLine, ⟨b, exchange⟩, -, bytes⟩ := e.sheltered
  have queue := congrArg Exchange.queue exchange
  have mask := congrArg Exchange.mask exchange
  refine ⟨fun _ => rfl, fun _ => rfl, ?_, sensing, lines, panelLine, queue, mask,
    fun a ha => (State.read_publish (Layout.not_isStatus ha)).trans (bytes a ha)⟩
  rw [State.publish_time, State.modTime, time]
  rfl

/-- Settles O20: the parts of the expiry by their own lemmas, and what the whole leaves by `Expired`. -/
theorem driveIntervalSendsNextFrames : Obligations.DriveIntervalSendsNextFrames := by
  refine ⟨fun s => ⟨exec_driveIntervalExpiry_early, fun due => ?_⟩, fun k s st => ?_,
    fun x area h => ?_, fun s st => ?_, fun k b st s => ?_, fun a level => ?_⟩
  · have e := s.expired_expired
    have ex := exec_driveIntervalExpiry_due due
    rw [State.driveExpiry_eq] at ex
    obtain ⟨station, tally, time, frame⟩ := e.shown
    refine ⟨_, ex, time, ?_, fun st h => ?_, fun st h => ?_, fun st => ?_, frame⟩
    · exact congrArg (fun v : State => s.publish
        { v with time := { v.time with shown := v.time.time } }) s.expired_eq
    · dsimp only
      rw [station, tally]
      obtain ⟨lost, stands, missed, answered⟩ := e.counts h
      obtain ⟨bits, demand, named⟩ := e.frame h
      have link := e.link h
      refine ⟨lost, stands, missed, answered, ?_, ?_, _, bits, rfl, ?_, demand, named⟩
      · rw [link, Link.close_report]
      · rw [link]
      · rw [link]
        rfl
    · rw [station]
      exact e.idle h
    · rw [station]
      obtain ⟨cfg, tags, fuse1, fuse2, -⟩ := e.sheltered.station st
      exact ⟨cfg, tags, fuse1, fuse2⟩
  · exact ⟨State.closeWindow_not, State.closeWindow_counts, State.closeWindow_loses⟩
  · exact Station.send_probe h area
  · refine ⟨fun h => ⟨State.startAtExpiry_retired h, State.readAtExpiry_retired h⟩,
      fun h => ⟨State.readAtExpiry_working h, State.startAtExpiry_not h, fun l a hl ha ht => ?_⟩⟩
    obtain ⟨counts, blocks⟩ := State.startAtExpiry_due h hl ha ht
    exact ⟨counts, blocks.trans (congrArg State.blocks (State.modStation_ext
      (Station.started_eq (Station.book_pending hl) ha _)))⟩
  · refine ⟨State.driveStation_retired, fun h => ⟨s.bookDecided k b st, _, fun m => ?_, fun m => ?_,
      b.handed_eq st _, State.driveStation_eq h⟩⟩
    · exact if_pos ((b.moved_iff st).2 m)
    · exact if_neg fun c => m ((b.moved_iff st).1 c)
  · exact ⟨fun h => Axis.advance_arrives h.1 h.2, fun h => Axis.advance_leaves h.1 h.2.1 h.2.2,
      fun h => Axis.advance_rests h.1 h.2.1 h.2.2, Axis.advance_stands⟩

end Sys2Proof.Machine
end

section
/-! PROOFS. ARM_BOOK, DISARM_BOOK and STOP_BOOK at their take (R33, R44, R45). -/

namespace Sys2Proof.Machine

/-- A change of one station's record counts nothing. -/
theorem Counts.modStation (s : State) (st : StationId) (f : Station → Station) :
    Counts [] s (s.modStation st f) := .of_eq rfl rfl rfl

theorem Counts.modBook (s : State) (st : StationId) (l : Letter) (f : Book → Book) :
    Counts [] s (s.modBook st l f) := .modStation s st _

section BookRequests

variable {s : State} {page : PageId} {target : BitVec 16} {st : StationId} {l : Letter}

/-! ### ARM_BOOK (R33) -/

theorem Code.letter_eq {letter : BitVec 8} (h : letter.toNat = (if l = .a then 0 else 1)) :
    Code.letter letter.toNat = some l := by
  rw [h]
  cases l <;> rfl

/-- ARM_BOOK comes to the checks of the book it names. -/
theorem State.takeArmBook_eq {letter : BitVec 8} (ht : target.toNat = st.val)
    (hr : (s.station st).retired = false) (hl : letter.toNat = (if l = .a then 0 else 1))
    (number : BitVec 16) : s.takeArmBook page target letter number =
      if s.time.state = .unset then s.answer page .timeUnset []
      else if ((s.station st).book l).state = .running then s.answer page .bookBusy []
      else
        (s.modStation st (fun x =>
          { x with validation := some (Validation.start s.mem st l number.toNat) })).modExchange
            (fun x => { x with inFlight := some { page := page, request := .armBook st } }) := by
  unfold State.takeArmBook
  rw [State.onStation_eq ht hr, State.named_some (Code.letter_eq hl)]

/-! ### DISARM_BOOK (R44) -/

theorem State.takeDisarmBook_none (ht : target.toNat = st.val)
    (hr : (s.station st).retired = false) (h : (s.station st).bookIn .pending = none) :
    s.takeDisarmBook page target = s.answer page .notNow [] := by
  unfold State.takeDisarmBook
  rw [State.onStation_eq ht hr, h]

theorem State.takeDisarmBook_some (ht : target.toNat = st.val)
    (hr : (s.station st).retired = false) (h : (s.station st).bookIn .pending = some l) :
    s.takeDisarmBook page target =
      (s.modBook st l (fun b => { b with state := .idle })).answer page .done [] := by
  unfold State.takeDisarmBook
  rw [State.onStation_eq ht hr, h]

/-! ### STOP_BOOK (R45) -/

theorem State.takeStopBook_none (k : Settle) (ht : target.toNat = st.val)
    (hr : (s.station st).retired = false) (h : (s.station st).bookIn .running = none) :
    s.takeStopBook k page target = s.answer page .notNow [] := by
  unfold State.takeStopBook
  rw [State.onStation_eq ht hr, h]

theorem State.takeStopBook_some (k : Settle) (ht : target.toNat = st.val)
    (hr : (s.station st).retired = false) (h : (s.station st).bookIn .running = some l) :
    s.takeStopBook k page target =
      ((s.modBook st l Book.idle).inputChanged k st).answer page .done [] := by
  unfold State.takeStopBook
  rw [State.onStation_eq ht hr, h]

/-- What settling leaves of a book where no table is in use. -/
theorem Kept.book {s t : State} (h : Settled s t) (n : s.noTable) (st : StationId) (l : Letter) :
    (t.station st).book l = (s.station st).book l := by
  have quiet := (h.quiet trivial (fun _ => id) n st).1
  cases l
  · exact quiet.bookA
  · exact quiet.bookB

theorem State.book_modBook (s : State) (st : StationId) (l : Letter) (f : Book → Book) :
    ((s.modBook st l f).station st).book l = f ((s.station st).book l) := by
  unfold State.modBook
  rw [State.station_modStation, if_pos rfl, Station.book_modBook, if_pos rfl]

end BookRequests

/-- Settles O29: each take by its equation. -/
theorem bookRequestsArmDisarmAndStop : Obligations.BookRequestsArmDisarmAndStop := by
  refine fun s page target st hf ht hr =>
    ⟨fun letter number l hl => ⟨fun hu => ?_, fun hu hb => ?_, fun hu hb => ?_⟩,
      fun hp => ?_, fun l hp => ?_, fun hn => ?_, fun l hn => ?_⟩
  · exact request_answer hf (by rw [State.takeArmBook_eq ht hr hl, if_pos hu])
  · exact request_answer hf (by rw [State.takeArmBook_eq ht hr hl, if_neg hu, if_pos hb])
  · refine ⟨_, request_eq hf _, ?_⟩
    rw [State.takeArmBook_eq ht hr hl, if_neg hu, if_neg hb]
    exact ⟨rfl, rfl, fun a ha => State.read_publish (Layout.not_isStatus ha), rfl⟩
  · exact request_answer hf (State.takeDisarmBook_none ht hr hp)
  · refine ⟨_, request_eq hf _, ?_⟩
    rw [State.takeDisarmBook_some ht hr hp]
    exact ⟨(Answers.of_counts (.modBook s st l _) page .done []).publish, rfl⟩
  · exact request_answer hf (State.takeStopBook_none settle ht hr hn)
  · have settled := Kept.inputChanged (E := fun _ => False) (Q := True) Kept.settle st
      (s.modBook st l Book.idle)
    refine ⟨(s.modBook st l Book.idle).inputChanged settle st, ?_, rfl, settled, fun n => ?_⟩
    · rw [← State.takeStopBook_some settle ht hr hn]
      exact request_eq hf _
    · rw [settled.book n, State.book_modBook]
      rfl

end Sys2Proof.Machine
end

section
/-! PROOFS. The validation of a book (R33 to R36): its checks of the points, and its completion events. -/

namespace Sys2Proof.Machine

/-! ### The checks of one point (R34) -/

/-- SPACING fails against the point before. -/
def Point.misspaced (p : Point) (previous : Option Nat) : Prop :=
  ∃ t, previous = some t ∧ (p.time < t + 20 ∨ t + 600000 < p.time)

/-- AZ_RANGE fails. -/
def Point.azOut (p : Point) : Prop := p.az < -270000000 ∨ 270000000 < p.az

/-- EL_RANGE fails. -/
def Point.elOut (p : Point) : Prop := p.el < 0 ∨ 92000000 < p.el

/-- No check fails. -/
def Point.good (p : Point) (previous : Option Nat) : Prop :=
  ¬ p.misspaced previous ∧ ¬ p.azOut ∧ ¬ p.elOut

/-- The first check that fails, with its reason. -/
def Point.fails (p : Point) (previous : Option Nat) (r : BookReason) : Prop :=
  p.misspaced previous ∧ r = .spacing ∨ ¬ p.misspaced previous ∧ p.azOut ∧ r = .azRange ∨
    ¬ p.misspaced previous ∧ ¬ p.azOut ∧ p.elOut ∧ r = .elRange

theorem Point.range_cases (p : Point) :
    p.azOut ∧ p.range = some .azRange ∨ ¬ p.azOut ∧ p.elOut ∧ p.range = some .elRange ∨
      ¬ p.azOut ∧ ¬ p.elOut ∧ p.range = none := by
  unfold Point.range
  split
  · next a => exact .inl ⟨a, rfl⟩
  · next a =>
    split
    · next e => exact .inr (.inl ⟨a, e, rfl⟩)
    · next e => exact .inr (.inr ⟨a, e, rfl⟩)

/-- The check of a point: SPACING where a point stands before it, then the two ranges. -/
theorem Point.check_cases (p : Point) (previous : Option Nat) :
    p.misspaced previous ∧ p.check previous = some .spacing ∨
      ¬ p.misspaced previous ∧ p.check previous = p.range := by
  cases previous with
  | none => exact .inr ⟨by rintro ⟨t, ⟨⟩, -⟩, rfl⟩
  | some t =>
    rw [Point.check, Point.spacing]
    split
    · next h => exact .inl ⟨⟨t, rfl, h⟩, rfl⟩
    · next h => exact .inr ⟨by rintro ⟨t, ⟨⟩, bad⟩; exact h bad, rfl⟩

theorem Point.check_none {p : Point} {previous : Option Nat} :
    p.check previous = none ↔ p.good previous := by
  unfold Point.good
  obtain ⟨s, c⟩ | ⟨s, c⟩ := p.check_cases previous
  · simp [s, c]
  · obtain ⟨a, r⟩ | ⟨a, e, r⟩ | ⟨a, e, r⟩ := p.range_cases <;> simp [*]

theorem Point.check_some {p : Point} {previous : Option Nat} {r : BookReason} :
    p.check previous = some r ↔ p.fails previous r := by
  unfold Point.fails
  obtain ⟨s, c⟩ | ⟨s, c⟩ := p.check_cases previous
  · simp [s, c, eq_comm]
  · obtain ⟨a, h⟩ | ⟨a, e, h⟩ | ⟨a, e, h⟩ := p.range_cases <;> simp [*, eq_comm]

theorem Point.fails_reason {p : Point} {previous : Option Nat} {r : BookReason}
    (h : p.fails previous r) : r = .spacing ∨ r = .azRange ∨ r = .elRange := by
  obtain ⟨-, h⟩ | ⟨-, -, h⟩ | ⟨-, -, -, h⟩ := h
  exacts [.inl h, .inr (.inl h), .inr (.inr h)]

/-! ### The checks of a group (R34) -/

section Group

variable {m : Mem} {st : StationId} {l : Letter} {i : Nat} {previous : Option Nat}

/-- The time of the point before point `k` of a group that starts at point `i`. -/
def Memory.timeBefore (m : Mem) (st : StationId) (l : Letter) (i : Nat) (previous : Option Nat)
    (k : Nat) : Option Nat :=
  if k = i then previous else some (Memory.point m st l (k - 1)).time

/-- Point `k` of a group passes its checks. -/
abbrev Memory.goodAt (m : Mem) (st : StationId) (l : Letter) (i : Nat) (previous : Option Nat)
    (k : Nat) : Prop :=
  (Memory.point m st l k).good (Memory.timeBefore m st l i previous k)

theorem Memory.timeBefore_first : Memory.timeBefore m st l i previous i = previous := if_pos rfl

/-- Past its first point a group is the group that starts with the next. -/
theorem Memory.timeBefore_rest {k : Nat} (h : i < k) :
    Memory.timeBefore m st l (i + 1) (some (Memory.pointTime m st l i)) k =
      Memory.timeBefore m st l i previous k := by
  unfold Memory.timeBefore
  rw [if_neg (by omega : k ≠ i)]
  split
  · next e => subst e; rfl
  · rfl

/-- The first of a group's points is good and so are the rest. -/
theorem Memory.goodAt_range {j : Nat} (h : i < j) :
    (∀ k, i ≤ k → k < j → Memory.goodAt m st l i previous k) ↔
      (Memory.point m st l i).good previous ∧ ∀ k, i + 1 ≤ k → k < j →
        Memory.goodAt m st l (i + 1) (some (Memory.pointTime m st l i)) k := by
  unfold Memory.goodAt
  constructor
  · refine fun all => ⟨?_, fun k hk hj => ?_⟩
    · have first := all i (Nat.le_refl i) h
      rwa [Memory.timeBefore_first] at first
    · rw [Memory.timeBefore_rest hk]
      exact all k (by omega) hj
  · rintro ⟨first, rest⟩ k hk hj
    by_cases e : k = i
    · rw [e, Memory.timeBefore_first]
      exact first
    · have good := rest k (by omega) hj
      rwa [Memory.timeBefore_rest (by omega)] at good

theorem Memory.checkPoints_error (n : Nat) {j : Nat} {r : BookReason} :
    Memory.checkPoints m st l n i previous = .error (j, r) ↔
      (i ≤ j ∧ j < i + n) ∧ (∀ k, i ≤ k → k < j → Memory.goodAt m st l i previous k) ∧
        (Memory.point m st l j).fails (Memory.timeBefore m st l i previous j) r := by
  induction n generalizing i previous with
  | zero =>
    refine ⟨by rintro ⟨⟩, ?_⟩
    rintro ⟨within, -⟩
    omega
  | succ n ih =>
    rw [Memory.checkPoints]
    by_cases e : j = i
    · subst e
      rw [Memory.timeBefore_first, ← Point.check_some]
      have none_before (k : Nat) (h : j ≤ k) (h' : k < j) :
          Memory.goodAt m st l j previous k := absurd h' (by omega)
      cases hc : (Memory.point m st l j).check previous with
      | some r' => simpa using fun _ => none_before
      | none =>
        dsimp only
        rw [ih]
        refine ⟨fun h => absurd h.1.1 (by omega), fun h => nomatch h.2.2⟩
    · cases hc : (Memory.point m st l i).check previous with
      | some r' =>
        refine ⟨fun h => absurd h (by simp [Ne.symm e]), ?_⟩
        rintro ⟨within, good, -⟩
        have first := ((Memory.goodAt_range (by omega)).1 good).1
        rw [Point.check_none.2 first] at hc
        cases hc
      | none =>
        dsimp only
        rw [ih]
        constructor
        · rintro ⟨within, good, bad⟩
          rw [Memory.timeBefore_rest (by omega)] at bad
          exact ⟨by omega, (Memory.goodAt_range (by omega)).2 ⟨Point.check_none.1 hc, good⟩, bad⟩
        · rintro ⟨within, good, bad⟩
          rw [← Memory.timeBefore_rest (by omega)] at bad
          exact ⟨by omega, ((Memory.goodAt_range (by omega)).1 good).2, bad⟩

theorem Memory.checkPoints_ok (n : Nat) {last : Option Nat} :
    Memory.checkPoints m st l n i previous = .ok last ↔
      (∀ k, i ≤ k → k < i + n → Memory.goodAt m st l i previous k) ∧
        last = if n = 0 then previous else some (Memory.point m st l (i + n - 1)).time := by
  induction n generalizing i previous with
  | zero =>
    rw [if_pos rfl, Memory.checkPoints, Except.ok.injEq, eq_comm, iff_and_self]
    exact fun _ k h h' => absurd h' (by omega)
  | succ n ih =>
    rw [Memory.checkPoints, if_neg (by omega), Memory.goodAt_range (by omega)]
    cases hc : (Memory.point m st l i).check previous with
    | some r =>
      refine ⟨by rintro ⟨⟩, ?_⟩
      rintro ⟨⟨first, -⟩, -⟩
      rw [Point.check_none.2 first] at hc
      cases hc
    | none =>
      dsimp only
      rw [ih, and_iff_right (Point.check_none.1 hc), show i + 1 + n = i + (n + 1) by omega]
      refine and_congr_right fun _ => ?_
      cases n with
      | zero => rfl
      | succ n => rfl

end Group

/-! ### The groups of a validation (R34) -/

/-- The number of points in the next group of a validation. -/
def Validation.size (v : Validation) : Nat := min 16 (v.headerCount - v.checked)

/-- The check of the next group's points. -/
def Validation.points (m : Mem) (st : StationId) (v : Validation) :
    Except (Nat × BookReason) (Option Nat) :=
  Memory.checkPoints m st v.letter v.size v.checked (if v.checked = 0 then none else some v.previous)

/-- The armed values as they stand after a group whose last point's time is known. -/
def Validation.armed (m : Mem) (st : StationId) (v : Validation) (last : Option Nat) : Armed :=
  { number := v.number, count := v.headerCount,
    first := if v.checked = 0 then Memory.pointTime m st v.letter 0 else v.first,
    last := last.getD v.previous }

/-- A header that passes, or was checked before an earlier group. -/
def Validation.headed (v : Validation) : Prop :=
  v.checked ≠ 0 ∨ ¬ (v.headerCount = 0 ∨ 128 < v.headerCount) ∧
    ¬ (v.headerNumber = 0 ∨ v.headerNumber ≠ v.number)

theorem checkHeader_count {count number requested : Nat} (h : count = 0 ∨ 128 < count) :
    checkHeader count number requested = some .count := if_pos h

theorem checkHeader_number {count number requested : Nat} (h : ¬ (count = 0 ∨ 128 < count))
    (hn : number = 0 ∨ number ≠ requested) : checkHeader count number requested = some .number := by
  unfold checkHeader
  rw [if_neg h, if_pos hn]

theorem checkHeader_none {count number requested : Nat} (h : ¬ (count = 0 ∨ 128 < count))
    (hn : ¬ (number = 0 ∨ number ≠ requested)) : checkHeader count number requested = none := by
  unfold checkHeader
  rw [if_neg h, if_neg hn]

section Validate

variable {s : State} {st : StationId} {v : Validation} {page : PageId}

theorem State.validateGroup_header {r : BookReason} (hz : v.checked = 0)
    (h : checkHeader v.headerCount v.headerNumber v.number = some r) :
    s.validateGroup st v page = s.rejectBook st .header r page := by
  unfold State.validateGroup
  rw [if_pos hz, h]

/-- A group under a header that passes: its points decide. -/
theorem State.validateGroup_headed (h : v.headed) : s.validateGroup st v page =
    match v.points s.mem st with
    | .error (i, r) => s.rejectBook st (.point i) r page
    | .ok last =>
      if v.checked + v.size < v.headerCount then
        s.modStation st (fun x => { x with validation := some { v with
          checked := v.checked + v.size, first := (v.armed s.mem st last).first,
          previous := (v.armed s.mem st last).last, timer := some 1 } })
      else s.acceptBook st v.letter (v.armed s.mem st last) page := by
  have none : (if v.checked = 0 then checkHeader v.headerCount v.headerNumber v.number else none) =
      none := by
    split
    · next hz =>
      obtain ⟨count, number⟩ := h.resolve_left (not_not.2 hz)
      exact checkHeader_none count number
    · rfl
  unfold State.validateGroup
  rw [none]
  rfl

theorem State.validateGroup_error {i : Nat} {r : BookReason} (h : v.headed)
    (hp : v.points s.mem st = .error (i, r)) :
    s.validateGroup st v page = s.rejectBook st (.point i) r page := by
  rw [State.validateGroup_headed h, hp]

theorem State.validateGroup_more {last : Option Nat} (h : v.headed)
    (hp : v.points s.mem st = .ok last) (hm : v.checked + v.size < v.headerCount) :
    s.validateGroup st v page = s.modStation st (fun x => { x with validation := some { v with
      checked := v.checked + v.size, first := (v.armed s.mem st last).first,
      previous := (v.armed s.mem st last).last, timer := some 1 } }) := by
  rw [State.validateGroup_headed h, hp]
  exact if_pos hm

theorem State.validateGroup_last {last : Option Nat} (h : v.headed)
    (hp : v.points s.mem st = .ok last) (hm : v.headerCount ≤ v.checked + v.size) :
    s.validateGroup st v page = s.acceptBook st v.letter (v.armed s.mem st last) page := by
  rw [State.validateGroup_headed h, hp]
  exact if_neg (Nat.not_lt.2 hm)

/-! ### Answers of a validation (R34 to R36) -/

/-- The data of an answer that names the header (R197). -/
theorem Code.ofInvalid_count : [0xFF, 1] =
    Bytes.ofNat 1 (Code.ofPlace .header) ++ Bytes.ofNat 1 (Code.ofInvalid .count) := by decide

theorem Code.ofInvalid_number : [0xFF, 2] =
    Bytes.ofNat 1 (Code.ofPlace .header) ++ Bytes.ofNat 1 (Code.ofInvalid .number) := by decide

/-- The data of an answer that names a point (R197). -/
theorem Code.ofInvalid_points {r : BookReason} (h : r = .spacing ∨ r = .azRange ∨ r = .elRange)
    (i : Nat) : Bytes.ofNat 1 (Code.ofPlace (.point i)) ++ Bytes.ofNat 1 (Code.ofInvalid r) =
      [BitVec.ofNat 8 i, if r = .spacing then 3 else if r = .azRange then 4 else 5] := by
  obtain rfl | rfl | rfl := h <;> rfl

theorem Validation.points_reason {i : Nat} {r : BookReason}
    (h : v.points s.mem st = .error (i, r)) : r = .spacing ∨ r = .azRange ∨ r = .elRange :=
  Point.fails_reason ((Memory.checkPoints_error _).1 h).2.2

theorem State.acceptBook_busy {l : Letter} {a : Armed} (h : ((s.station st).book l).state = .running) :
    s.acceptBook st l a page = (s.endValidation st).answer page .bookBusy [] := if_pos h

theorem State.acceptBook_stale {l : Letter} {a : Armed}
    (h : ((s.station st).book l).state ≠ .running) (ht : a.last ≤ s.time.time) :
    s.acceptBook st l a page =
      (s.endValidation st).answer page .bookStale (Bytes.ofNat 6 a.last) := by
  unfold State.acceptBook
  rw [if_neg h]
  exact if_pos ht

/-- The station's records once a validation has found no failure (R36). -/
def State.accepted (st : StationId) (l : Letter) (a : Armed) (s : State) : State :=
  ((s.supersede st l).modBook st l (fun _ =>
    { state := .pending, armed := some a, cursor := none, fault := none })).endValidation st

theorem State.acceptBook_done {l : Letter} {a : Armed}
    (h : ((s.station st).book l).state ≠ .running) (ht : s.time.time < a.last) :
    s.acceptBook st l a page = (s.accepted st l a).answer page .done a.data := by
  unfold State.acceptBook
  rw [if_neg h]
  exact if_neg (Nat.not_le.2 ht)

/-- The record of a superseded book's station (R36, R46). -/
def Station.superseding (l : Letter) (now : Nat) (x : Station) : Station :=
  { x.modBook l.other (fun b => { b with state := .idle }) with
    lastBook := some { kind := .superseded, letter := l.other, time := now } }

theorem State.supersede_pending {l : Letter} (h : ((s.station st).book l.other).state = .pending) :
    s.supersede st l =
      (s.modStation st (Station.superseding l s.time.time)).bump (.bookEvents st) := by
  unfold State.supersede State.bookEvent State.modBook
  rw [if_pos h, State.modStation_twice]
  rfl

theorem State.supersede_not {l : Letter} (h : ((s.station st).book l.other).state ≠ .pending) :
    s.supersede st l = s := if_neg h

/-- The record of the station whose book is accepted (R36). -/
def Station.accepting (l : Letter) (a : Armed) (x : Station) : Station :=
  { x.modBook l (fun _ => { state := .pending, armed := some a, cursor := none, fault := none }) with
    validation := none }

theorem State.accepted_eq (st : StationId) (l : Letter) (a : Armed) (s : State) :
    s.accepted st l a = (s.supersede st l).modStation st (Station.accepting l a) := by
  unfold State.accepted State.endValidation State.modBook
  rw [State.modStation_twice]
  rfl

theorem State.accepted_counts (st : StationId) (l : Letter) (a : Armed) (s : State) :
    Counts (if ((s.station st).book l.other).state = .pending then [.bookEvents st] else [])
      s (s.accepted st l a) := by
  rw [State.accepted_eq]
  split
  · next h =>
    rw [State.supersede_pending h]
    exact ((Counts.modStation s st _).trans (.bump _ _)).trans (.modStation _ st _)
  · next h =>
    rw [State.supersede_not h]
    exact .modStation s st _

theorem State.accepted_blocks (st : StationId) (l : Letter) (a : Armed) (s : State) :
    (s.accepted st l a).blocks = (s.modStation st (fun x => Station.accepting l a
      (if ((s.station st).book l.other).state = .pending then x.superseding l s.time.time
        else x))).blocks := by
  rw [State.accepted_eq]
  split
  · next h =>
    rw [State.supersede_pending h]
    have twice := congrArg State.blocks (State.modStation_twice s st
      (Station.superseding l s.time.time) (Station.accepting l a))
    exact twice
  · next h => rw [State.supersede_not h]

/-! ### VALIDATION_COMPLETION (R34 to R36) -/

theorem State.validate_due
    (hf : s.exchange.inFlight = some { page := page, request := .armBook st })
    (hv : (s.station st).validation = some v) (ht : v.timer = some 0) :
    s.validate = s.validateGroup st v page := by
  unfold State.validate
  rw [hf]
  dsimp only
  rw [hv]
  exact if_pos ht

theorem State.validate_not (h : ∀ page st v,
    s.exchange.inFlight = some { page := page, request := .armBook st } →
      (s.station st).validation = some v → v.timer ≠ some 0) : s.validate = s := by
  unfold State.validate
  split
  · next page st hf =>
    split
    · next v hv => exact if_neg (h page st v hf hv)
    · rfl
  · rfl
  · rfl

theorem exec_validationCompletion (s : State) :
    exec .validationCompletion s = .next (s.publish s.validate) := rfl

theorem exec_validationCompletion_not (h : ∀ page st v,
    s.exchange.inFlight = some { page := page, request := .armBook st } →
      (s.station st).validation = some v → v.timer ≠ some 0) :
    exec .validationCompletion s = .next s := by
  rw [exec_validationCompletion, State.validate_not h, State.publish_of_blocks rfl]

/-- A completion event that answers the request with the validation at its end. -/
theorem exec_validationCompletion_answers {r : Result} {data : List Byte}
    (h : s.validate = (s.endValidation st).answer page r data) :
    ∃ t, exec .validationCompletion s = .next t ∧ t.blocks = (s.endValidation st).blocks ∧
      Answers page r data [] s t := by
  refine ⟨_, exec_validationCompletion s, ?_, ?_⟩ <;> rw [h]
  · rfl
  · exact (Answers.of_counts (.modStation s st _) page r data).publish

end Validate

/-- Settles O30: the points by the two lemmas on a group, each outcome of an event by its equation. -/
theorem validationChecksPointsInGroups : Obligations.ValidationChecksPointsInGroups := by
  refine ⟨fun m st l n i previous =>
      ⟨fun j r => Memory.checkPoints_error n, fun last => Memory.checkPoints_ok n⟩,
    fun s h => exec_validationCompletion_not h, ?_⟩
  intro s page st v hf hv ht
  have due := State.validate_due hf hv ht
  refine ⟨fun hz bad => ?_, fun hz good bad => ?_, fun headed => ⟨fun i r hp => ?_,
    fun last hp more => ?_, fun last hp all => ⟨fun hr => ?_, fun hr stale => ?_, fun hr now => ?_⟩⟩⟩
  · rw [Code.ofInvalid_count]
    exact exec_validationCompletion_answers
      (due.trans (State.validateGroup_header hz (checkHeader_count bad)))
  · rw [Code.ofInvalid_number]
    exact exec_validationCompletion_answers
      (due.trans (State.validateGroup_header hz (checkHeader_number good bad)))
  · rw [← Code.ofInvalid_points (Validation.points_reason hp)]
    exact exec_validationCompletion_answers (due.trans (State.validateGroup_error headed hp))
  · refine ⟨_, exec_validationCompletion s, ?_, ?_⟩ <;>
      rw [due, State.validateGroup_more headed hp more]
    · exact (Counts.modStation s st _).publish
    · rfl
  all_goals replace due := due.trans (State.validateGroup_last headed hp all)
  · exact exec_validationCompletion_answers (due.trans (State.acceptBook_busy hr))
  · exact exec_validationCompletion_answers (due.trans (State.acceptBook_stale hr stale))
  · replace due := due.trans (State.acceptBook_done hr now)
    refine ⟨_, exec_validationCompletion s, ?_, ?_⟩ <;> rw [due]
    · exact (Answers.of_counts (State.accepted_counts ..) page .done _).publish
    · rw [State.blocks_publish, State.blocks_answer, State.accepted_blocks]
      refine congrArg State.blocks (State.modStation_ext ?_)
      dsimp only
      split <;> rfl

end Sys2Proof.Machine
end

section
/-! PROOFS. The reading of a RUNNING book by its cursor (R39 to R41). -/

namespace Sys2Proof.Machine

/-! ### The cursor search (R40) -/

/-- The search goes on past points at or before t, and rests before the first later one or at the last
index it may reach. -/
theorem Memory.search_facts (m : Mem) (st : StationId) (l : Letter) (t n : Nat) (fuel j : Nat)
    (h : n ≤ fuel + j) : let k := Memory.search m st l t n fuel j
    j ≤ k ∧ (j ≤ n - 2 → k ≤ n - 2) ∧
      (∀ i, j < i → i ≤ k → Memory.pointTime m st l i ≤ t) ∧
      (k + 1 ≤ n - 2 → t < Memory.pointTime m st l (k + 1)) := by
  induction fuel generalizing j with
  | zero => exact ⟨Nat.le_refl j, id, fun i hi hk => absurd hi (Nat.not_lt.2 hk), fun hk => by
      rw [Memory.search] at hk; omega⟩
  | succ fuel ih =>
    rw [Memory.search]
    split
    · next go =>
      obtain ⟨reach, bound, passed, rest⟩ := ih (j + 1) (by omega)
      refine ⟨by omega, fun _ => bound go.2, fun i hi hk => ?_, rest⟩
      by_cases e : i = j + 1
      · rw [e]; exact go.1
      · exact passed i (by omega) hk
    · next stop =>
      exact ⟨Nat.le_refl j, id, fun i hi hk => absurd hi (Nat.not_lt.2 hk), fun hk =>
        Nat.not_le.1 fun past => stop ⟨past, hk⟩⟩

/-! ### The checks of the two points (R41) -/

section Checks

variable {p q : Point} {k t : Nat} {a : Armed}

/-- Azimuth and elevation in range. -/
abbrev Point.inRange (p : Point) : Prop :=
  (-270000000 ≤ p.az ∧ p.az ≤ 270000000) ∧ 0 ≤ p.el ∧ p.el ≤ 92000000

theorem Point.range_in (h : p.inRange) : p.range = none := by
  obtain ⟨⟨a, b⟩, c, d⟩ := h
  unfold Point.range
  rw [if_neg (by omega), if_neg (by omega)]

theorem Point.range_out (h : ¬ p.inRange) : ∃ e, (e = .azRange ∨ e = .elRange) ∧ p.range = some e := by
  unfold Point.range
  split
  · exact ⟨_, .inl rfl, rfl⟩
  · split
    · exact ⟨_, .inr rfl, rfl⟩
    · exact absurd ⟨by omega, by omega⟩ h

/-- A failed range is the first failure of point k. -/
theorem Point.checkFrom_range {e : BookReason} (h : p.range = some e) (k t first : Nat) (b : Bool) :
    p.checkFrom k t first b = some e := by
  unfold Point.checkFrom
  rw [h]
  rfl

theorem Point.checkFrom_anchor {first : Nat} (h : p.inRange) (hk : k = 0) (ha : p.time ≠ first)
    (b : Bool) : p.checkFrom k t first b = some .anchor := by
  unfold Point.checkFrom
  rw [Point.range_in h, if_pos ⟨hk, ha⟩]
  rfl

theorem Point.checkFrom_order {first : Nat} (h : p.inRange) (ha : k = 0 → p.time = first)
    (ht : t < p.time) : p.checkFrom k t first true = some .order := by
  unfold Point.checkFrom
  rw [Point.range_in h, if_neg fun c => c.2 (ha c.1), if_pos ⟨rfl, ht⟩]
  rfl

theorem Point.checkFrom_passes {first : Nat} {b : Bool} (h : p.inRange) (ha : k = 0 → p.time = first)
    (ht : b = true → p.time ≤ t) : p.checkFrom k t first b = none := by
  unfold Point.checkFrom
  rw [Point.range_in h, if_neg fun c => c.2 (ha c.1), if_neg fun c => Nat.not_le.2 c.2 (ht c.1)]
  rfl

/-- What point k passes in the search case. -/
abbrev Point.fitsFrom (p : Point) (k t first : Nat) : Prop :=
  p.inRange ∧ (k = 0 → p.time = first) ∧ p.time ≤ t

theorem Point.checkFrom_fits {first : Nat} (h : p.fitsFrom k t first) :
    p.checkFrom k t first true = none := by
  obtain ⟨range, anchor, past⟩ := h
  exact Point.checkFrom_passes range anchor fun _ => past

theorem Point.checkFrom_fails {first : Nat} (h : ¬ p.fitsFrom k t first) :
    ∃ e, p.checkFrom k t first true = some e := by
  by_cases hr : p.inRange
  · by_cases ha : k = 0 → p.time = first
    · exact ⟨_, Point.checkFrom_order hr ha (Nat.not_le.1 fun ht => h ⟨hr, ha, ht⟩)⟩
    · obtain ⟨hk, ne⟩ := Classical.not_imp.1 ha
      exact ⟨_, Point.checkFrom_anchor hr hk ne true⟩
  · obtain ⟨e, -, he⟩ := Point.range_out hr
    exact ⟨e, Point.checkFrom_range he k t first true⟩

/-- SPACING between two points. -/
abbrev Point.spacedTo (p q : Point) : Prop := p.time + 20 ≤ q.time ∧ q.time ≤ p.time + 600000

theorem Point.checkTo_spacing (h : ¬ p.spacedTo q) : q.checkTo p k t a = some .spacing := by
  unfold Point.checkTo Point.spacing
  rw [if_pos (by omega)]
  rfl

theorem Point.checkTo_spaced (h : p.spacedTo q) : q.checkTo p k t a =
    if q.time ≤ t then some .order
    else q.range.or (if k + 1 = a.count - 1 ∧ q.time ≠ a.last then some .anchor else none) := by
  unfold Point.checkTo Point.spacing
  rw [if_neg (by omega)]
  rfl

theorem Point.checkTo_order (h : p.spacedTo q) (ht : q.time ≤ t) :
    q.checkTo p k t a = some .order := by
  rw [Point.checkTo_spaced h, if_pos ht]

/-- What point k + 1 passes. -/
abbrev Point.fitsTo (q p : Point) (k t : Nat) (a : Armed) : Prop :=
  p.spacedTo q ∧ t < q.time ∧ q.inRange ∧ (k + 1 = a.count - 1 → q.time = a.last)

theorem Point.checkTo_passes (h : q.fitsTo p k t a) : q.checkTo p k t a = none := by
  obtain ⟨spaced, later, range, anchor⟩ := h
  rw [Point.checkTo_spaced spaced, if_neg (Nat.not_le.2 later), Point.range_in range,
    if_neg fun c => c.2 (anchor c.1)]
  rfl

theorem Point.checkTo_fails (h : ¬ q.fitsTo p k t a) : ∃ e, q.checkTo p k t a = some e := by
  by_cases spaced : p.spacedTo q
  · by_cases late : q.time ≤ t
    · exact ⟨_, Point.checkTo_order spaced late⟩
    · rw [Point.checkTo_spaced spaced, if_neg late]
      by_cases range : q.inRange
      · have anchor : ¬ (k + 1 = a.count - 1 → q.time = a.last) := fun anchor =>
          h ⟨spaced, Nat.not_le.1 late, range, anchor⟩
        rw [Point.range_in range, if_pos (Classical.not_imp.1 anchor)]
        exact ⟨_, rfl⟩
      · obtain ⟨e, -, he⟩ := Point.range_out range
        rw [he]
        exact ⟨e, rfl⟩
  · exact ⟨_, Point.checkTo_spacing spaced⟩

end Checks

/-! ### One reading (R39 to R41) -/

section Reading

variable {s : State} {st : StationId} {l : Letter} {a : Armed} {cursor : Nat × Nat}

/-- What the end of a RUNNING book at its reading leaves: nothing handed on, the book record, the last
event and its count (R40, R41, R46). -/
structure BookEnds (st : StationId) (l : Letter) (kind : BookEventKind) (b : Book) (s : State)
    (r : State × Option BookTarget) : Prop where
  target : r.2 = none
  book : (r.1.station st).book l = b
  counts : Counts [.bookEvents st] s r.1
  event : (r.1.station st).lastBook = some { kind := kind, letter := l, time := s.time.time }

/-- A book that ends by a change of its record and a book event. -/
theorem State.bookEnds (s : State) (st : StationId) (l : Letter) (kind : BookEventKind)
    (f : Book → Book) : BookEnds st l kind (f ((s.station st).book l)) s
      ((s.modBook st l f).bookEvent st kind l, none) where
  target := rfl
  book := by
    rw [← State.book_modBook s st l f]
    unfold State.bookEvent
    rw [State.station_bump, State.station_modStation, if_pos rfl]
    cases l <;> rfl
  counts := ((Counts.modBook s st l f).trans (.modStation _ st _)).trans (.bump _ _)
  event := by
    unfold State.bookEvent
    rw [State.station_bump, State.station_modStation, if_pos rfl]
    rfl

/-- The book record of a book that faults at a point (R41). -/
def Book.fail (i : Nat) (e : BookReason) (b : Book) : Book :=
  { b with state := .faulted, cursor := none, fault := some (.point i, e) }

theorem State.faultBook_ends (s : State) (st : StationId) (l : Letter) (i : Nat) (e : BookReason) :
    BookEnds st l .faulted (((s.station st).book l).fail i e) s (s.faultBook st l i e, none) :=
  s.bookEnds st l .faulted (Book.fail i e)

theorem State.readArmed_spent (h : a.last ≤ s.time.time) : s.readArmed st l a cursor =
    ((s.modBook st l (fun b => { b with state := .spent, cursor := none })).bookEvent st .spent l,
      none) := if_pos h

/-- A reading ahead of t₀ with a point 0 that passes (R40). -/
theorem State.readArmed_ahead (h : s.time.time < a.last) (h' : s.time.time < a.first)
    (hc : (Memory.point s.mem st l 0).checkFrom 0 s.time.time a.first false = none) :
    s.readArmed st l a cursor = (s.modBook st l (fun b => { b with cursor := some (0, a.first) }),
      some (.fixed (Memory.point s.mem st l 0))) := by
  unfold State.readArmed State.now
  dsimp only
  rw [if_neg (Nat.not_le.2 h), if_pos h', hc]

/-- A reading ahead of t₀ with a point 0 that fails (R41). -/
theorem State.readArmed_ahead_fails {e : BookReason} (h : s.time.time < a.last)
    (h' : s.time.time < a.first)
    (hc : (Memory.point s.mem st l 0).checkFrom 0 s.time.time a.first false = some e) :
    s.readArmed st l a cursor = (s.faultBook st l 0 e, none) := by
  unfold State.readArmed State.now
  dsimp only
  rw [if_neg (Nat.not_le.2 h), if_pos h', hc]

section Between

variable {k : Nat} (h : s.time.time < a.last) (h' : a.first ≤ s.time.time)
  (hk : Memory.search s.mem st l s.time.time a.count 128
    (if cursor.2 ≤ s.time.time then cursor.1 else 0) = k)
include h h' hk

/-- A reading from t₀ on, where the search rests at a point that fails (R41). -/
theorem State.readArmed_from_fails {e : BookReason}
    (hc : (Memory.point s.mem st l k).checkFrom k s.time.time a.first true = some e) :
    s.readArmed st l a cursor = (s.faultBook st l k e, none) := by
  unfold State.readArmed State.now
  dsimp only
  rw [if_neg (Nat.not_le.2 h), if_neg (Nat.not_lt.2 h'), hk, hc]

/-- A reading from t₀ on, where the point after the one that the search found fails (R41). -/
theorem State.readArmed_to_fails {e : BookReason}
    (hc : (Memory.point s.mem st l k).checkFrom k s.time.time a.first true = none)
    (hd : (Memory.point s.mem st l (k + 1)).checkTo (Memory.point s.mem st l k) k s.time.time a =
      some e) : s.readArmed st l a cursor = (s.faultBook st l (k + 1) e, none) := by
  unfold State.readArmed State.now
  dsimp only
  rw [if_neg (Nat.not_le.2 h), if_neg (Nat.not_lt.2 h'), hk, hc]
  dsimp only
  rw [hd]

/-- A reading from t₀ on between two points that pass (R40). -/
theorem State.readArmed_between
    (hc : (Memory.point s.mem st l k).checkFrom k s.time.time a.first true = none)
    (hd : (Memory.point s.mem st l (k + 1)).checkTo (Memory.point s.mem st l k) k s.time.time a =
      none) : s.readArmed st l a cursor =
        (s.modBook st l (fun b => { b with cursor := some (k, (Memory.point s.mem st l k).time) }),
          some (.between (Memory.point s.mem st l k) (Memory.point s.mem st l (k + 1)))) := by
  unfold State.readArmed State.now
  dsimp only
  rw [if_neg (Nat.not_le.2 h), if_neg (Nat.not_lt.2 h'), hk, hc]
  dsimp only
  rw [hd]

end Between

/-- The fault that a reading answers, as the statement counts it. -/
theorem BookEnds.parts {kind : BookEventKind} {b : Book} {r : State × Option BookTarget}
    (h : BookEnds st l kind b s r) : r.2 = none ∧ (r.1.station st).book l = b ∧
      Counts [.bookEvents st] s r.1 ∧
      (r.1.station st).lastBook = some { kind := kind, letter := l, time := s.time.time } :=
  ⟨h.target, h.book, h.counts, h.event⟩

/-- A reading that faults the book. -/
theorem BookEnds.of_fault {i : Nat} {e : BookReason}
    (h : s.readArmed st l a cursor = (s.faultBook st l i e, none)) :
    BookEnds st l .faulted (((s.station st).book l).fail i e) s (s.readArmed st l a cursor) :=
  h ▸ s.faultBook_ends st l i e

/-! ### READ at an expiry (R39) -/

theorem State.readBook_none (h : (s.station st).bookIn .running = none) :
    s.readBook st = (s, none) := by
  unfold State.readBook
  dsimp only
  rw [h]

theorem State.readBook_some (hl : (s.station st).bookIn .running = some l)
    (ha : ((s.station st).book l).armed = some a) (hc : ((s.station st).book l).cursor = some cursor) :
    s.readBook st = s.readArmed st l a cursor := by
  unfold State.readBook
  dsimp only
  rw [hl]
  dsimp only
  rw [ha, hc]

end Reading

/-- Settles O31: the search by induction on its fuel, each outcome of a reading by its equation. -/
theorem runningBookIsReadByTheCursor : Obligations.RunningBookIsReadByTheCursor := by
  refine ⟨Memory.search_facts, fun s st => ⟨State.readBook_none, fun l a c => State.readBook_some⟩,
    fun s st l a cursor => ⟨fun spent => ?_, fun run ahead => ⟨fun range anchor => ?_,
      fun range anchor => ?_, fun range => ?_⟩, fun run begun => ⟨fun good next => ?_, fun bad => ?_,
      fun good bad => ?_, fun good bad => ?_, fun good spaced late => ?_⟩⟩⟩
  · exact (State.readArmed_spent (cursor := cursor) spent ▸ s.bookEnds st l .spent _).parts
  · exact State.readArmed_ahead run ahead (Point.checkFrom_passes range (fun _ => anchor) nofun)
  · exact (BookEnds.of_fault (State.readArmed_ahead_fails run ahead
      (Point.checkFrom_anchor range rfl anchor false))).parts
  · obtain ⟨e, he, out⟩ := Point.range_out range
    exact ⟨e, he, (BookEnds.of_fault (State.readArmed_ahead_fails run ahead
      (Point.checkFrom_range out _ _ _ _))).parts⟩
  · exact State.readArmed_between run begun rfl (Point.checkFrom_fits good) (Point.checkTo_passes next)
  · obtain ⟨e, he⟩ := Point.checkFrom_fails bad
    exact ⟨e, (BookEnds.of_fault (State.readArmed_from_fails run begun rfl he)).parts⟩
  · obtain ⟨e, he⟩ := Point.checkTo_fails bad
    exact ⟨e, (BookEnds.of_fault (State.readArmed_to_fails run begun rfl
      (Point.checkFrom_fits good) he)).parts⟩
  · exact (BookEnds.of_fault (State.readArmed_to_fails run begun rfl (Point.checkFrom_fits good)
      (Point.checkTo_spacing bad))).parts
  · exact (BookEnds.of_fault (State.readArmed_to_fails run begun rfl (Point.checkFrom_fits good)
      (Point.checkTo_order spaced late))).parts

end Sys2Proof.Machine
end

section
/-! PROOFS. The start of a waiting table, the issue of its entries and the engagement of a book (R43, R109 to
R117), as equations of next states. -/

namespace Sys2Proof.Machine

variable {k : Settle}

/-! ### Arriving starts (R109, R111) -/

theorem TableState.runs_iff {x : TableState} : x.runs = true ↔ x = .running ∨ x = .settling := by
  cases x <;> simp [TableState.runs]

/-- A table that waits for its start: ARMED, its start not due (R109). -/
abbrev SweepTable.waits (t : SweepTable) : Prop := t.state = .armed ∧ t.startDue = false

section Starts

variable {s : State} {x : TableId}

theorem State.arriveStart_not (h : ¬ (s.table x).waits) : s.arriveStart k x = s := if_neg h

theorem State.arriveStart_due (h : (s.table x).waits)
    (hr : (s.table (TableId.other x)).state = .running ∨ (s.table (TableId.other x)).state = .settling) :
    s.arriveStart k x = s.modTable x (fun t => { t with startDue := true }) :=
  (if_pos h).trans (if_pos (TableState.runs_iff.2 hr))

theorem State.arriveStart_starts (h : (s.table x).waits)
    (hr : ¬ ((s.table (TableId.other x)).state = .running ∨ (s.table (TableId.other x)).state = .settling)) :
    s.arriveStart k x = (s.beginTable k x false).judgeEnd k 2 x :=
  (if_pos h).trans (if_neg fun r => hr (TableState.runs_iff.1 r))

/-- The source for which a table was launched (R109). -/
abbrev SweepTable.starts (t : SweepTable) (l : StartSource) (now : Nat) : Prop :=
  ∃ a, t.launch = some a ∧ a.source = l ∧ (l = .atTime → a.time ≤ now)

theorem State.pulseTable_starts (h : (s.table x).starts .nextPulse s.time.time) :
    s.pulseTable k x = s.arriveStart k x := by
  obtain ⟨a, ha, source, -⟩ := h
  unfold State.pulseTable
  rw [ha]
  exact if_pos source

theorem State.pulseTable_not (h : ¬ (s.table x).starts .nextPulse s.time.time) :
    s.pulseTable k x = s := by
  unfold State.pulseTable
  split
  · rfl
  · next a ha => exact if_neg fun source => h ⟨a, ha, source, nofun⟩

theorem State.arriveAtTime_starts (h : (s.table x).starts .atTime s.time.time) :
    s.arriveAtTime k x = s.arriveStart k x := by
  obtain ⟨a, ha, source, come⟩ := h
  unfold State.arriveAtTime
  rw [ha]
  exact if_pos ⟨source, come rfl⟩

theorem State.arriveAtTime_not (h : ¬ (s.table x).starts .atTime s.time.time) :
    s.arriveAtTime k x = s := by
  unfold State.arriveAtTime
  split
  · rfl
  · next a ha => exact if_neg fun c => h ⟨a, ha, c.1, fun _ => c.2⟩

/-! ### Entries that are due (R113, R114) -/

theorem State.judgeIssue_not (h : (s.table x).state ≠ .running) : s.judgeIssue k x = s := if_neg h

theorem State.judgeIssue_running (h : (s.table x).state = .running) : s.judgeIssue k x =
    s.issueFrom k x (((s.table x).snapshot.getD []).drop (s.table x).next) (s.table x).next :=
  if_pos h

theorem Progress.through_iff (p : Progress) : p.through = true ↔ p.state = .skipped ∨
    p.state = .abandoned ∨ p.state = .settled ∨ p.state = .moving ∧ p.settle = false := by
  unfold Progress.through
  cases p.state <;> simp

/-- The record of a station that the entry before entry n names is through (R114). -/
theorem State.entryThrough_iff (s : State) (x : TableId) (n : Nat) : s.entryThrough x n = true ↔
    ∀ st, (s.station st).progress.table = some x → (s.station st).progress.state ≠ .notNamed →
      (s.station st).progress.entry + 1 = n → (s.station st).progress.through = true := by
  unfold State.entryThrough allStations
  rw [List.all_eq_true]
  refine forall_congr' fun st => ?_
  simp only [List.mem_finRange, true_imp_iff, Bool.or_eq_true, Bool.not_eq_true',
    Bool.and_eq_false_iff, beq_eq_false_iff_ne, bne_eq_false_iff_eq, ne_eq]
  tauto

/-- Entry n is issued now (R114). -/
abbrev State.issuesNow (s : State) (x : TableId) (n : Nat) (e : SweepEntry) : Prop :=
  (∃ t, (s.table x).sweepStart = some t ∧ t + 100 * e.offset ≤ s.time.time) ∧
    ∀ st, let p := (s.station st).progress
      p.table = some x → p.state ≠ .notNamed → p.entry + 1 = n →
        (p.state = .skipped ∨ p.state = .abandoned ∨ p.state = .settled ∨
          p.state = .moving ∧ p.settle = false)

theorem State.entryDue_iff (s : State) (x : TableId) (n : Nat) (e : SweepEntry) :
    s.entryDue x n e = true ↔ s.issuesNow x n e := by
  unfold State.entryDue State.issuesNow
  simp only [← Progress.through_iff]
  rw [← State.entryThrough_iff]
  split
  · next h => simp [h]
  · next t h =>
    rw [Bool.and_eq_true, decide_eq_true_iff]
    simp only [h, Option.some.injEq, exists_eq_left']
    rfl

theorem State.issueFrom_not {e : SweepEntry} {l : List SweepEntry} {n : Nat} (h : ¬ s.issuesNow x n e) :
    s.issueFrom k x (e :: l) n = s := by
  rw [State.issueFrom]
  exact if_neg fun d => h ((s.entryDue_iff x n e).1 d)

theorem State.issueFrom_due {e : SweepEntry} {l : List SweepEntry} {n : Nat} (h : s.issuesNow x n e) :
    s.issueFrom k x (e :: l) n = State.issueFrom k x l (n + 1)
      ((s.issueEntry k x n e).modTable x (fun t => { t with next := n + 1 })) := by
  rw [State.issueFrom]
  exact if_pos ((s.entryDue_iff x n e).2 h)

end Starts

/-! ### An entry issued to one station (R115 to R117) -/

section Issue

variable {s : State} {x : TableId} {n : Nat} {e : SweepEntry} {st : StationId}

/-- The record of a station that an entry names (R113). -/
def SweepEntry.record (e : SweepEntry) (x : TableId) (n : Nat) (state : RecordState)
    (r : Option SweepReason) (timer : Timer) : Progress :=
  { table := some x, state := state, reason := r, entry := n, action := some e.action,
    settle := e.settle, timer := timer, mark := false }

/-- The station skipped by an entry, and counted (R115, R117). -/
def State.skippedBy (x : TableId) (n : Nat) (e : SweepEntry) (st : StationId) (r : SweepReason)
    (s : State) : State :=
  (s.modStation st (fun z => { z with progress := e.record x n .skipped (some r) none })).modTable x
    (fun t => { t with skips := t.skips + 1 })

/-- The settle timer that starts with a record (R117). -/
def SweepEntry.timer (e : SweepEntry) (state : RecordState) : Timer :=
  if e.settle = true ∧ state ≠ .settled then some (1000 * e.limit) else none

/-- An entry issued to the station, and counted, before its action (R115 to R117). -/
def State.issuedBy (x : TableId) (n : Nat) (e : SweepEntry) (st : StationId) (state : RecordState)
    (s : State) : State :=
  (s.modStation st (fun z => { z with
    progress := e.record x n state none (e.timer state) })).modTable x
      (fun t => { t with issues := t.issues + 1 })

/-- The record as the issue of an entry names it, its state not yet decided. -/
def State.naming (x : TableId) (n : Nat) (e : SweepEntry) (st : StationId) (s : State) : State :=
  s.modProgress st (fun p => { p with
    table := some x, entry := n, action := some e.action, settle := e.settle, mark := false,
    timer := none, reason := none })

theorem State.skip_naming (r : SweepReason) :
    (s.naming x n e st).skip st x r = s.skippedBy x n e st r := by
  unfold State.naming State.skip State.modProgress State.skippedBy
  rw [State.modStation_twice]
  rfl

theorem State.issued_naming (state : RecordState) :
    (s.naming x n e st).issued st x e state = s.issuedBy x n e st state := by
  unfold State.naming State.issued State.modProgress State.issuedBy
  rw [State.modStation_twice]
  rfl

/-- The named record is no part of what the skip test or an action reads. -/
theorem State.station_naming : (s.naming x n e st).station st =
    { s.station st with progress := ((s.naming x n e st).station st).progress } := by
  unfold State.naming State.modProgress
  rw [State.station_modStation, if_pos rfl]

theorem State.skipReason_naming : (s.naming x n e st).skipReason st = s.skipReason st := by
  unfold State.skipReason
  rw [State.station_naming]
  rfl

/-- What an entry's action makes of a station that the skip test passes (R116). -/
def State.act (k : Settle) (x : TableId) (n : Nat) (e : SweepEntry) (st : StationId) (s : State) :
    State :=
  match e.action with
  | .goto => (s.issuedBy x n e st .waiting).setHold k st (some { table := x, az := e.az, el := e.el })
  | .hold => (s.issuedBy x n e st .waiting).setHold k st
      (some { table := x, az := (s.station st).az.c, el := (s.station st).el.c })
  | .release => (s.issuedBy x n e st .settled).clearHold k st
  | .engageA =>
    if ((s.issuedBy x n e st .waiting).engage k st .a).2 then
      ((s.issuedBy x n e st .waiting).engage k st .a).1
    else s.skippedBy x n e st .book
  | .engageB =>
    if ((s.issuedBy x n e st .waiting).engage k st .b).2 then
      ((s.issuedBy x n e st .waiting).engage k st .b).1
    else s.skippedBy x n e st .book

theorem State.issueTo_skips {r : SweepReason} (h : s.skipReason st = some r) :
    s.issueTo k x n e st = s.skippedBy x n e st r := by
  have h' : (s.naming x n e st).skipReason st = some r := State.skipReason_naming.trans h
  rw [← State.skip_naming]
  unfold State.naming at *
  unfold State.issueTo
  dsimp only
  rw [h']

theorem State.issueTo_acts (h : s.skipReason st = none) :
    s.issueTo k x n e st = s.act k x n e st := by
  have h' : (s.naming x n e st).skipReason st = none := State.skipReason_naming.trans h
  have az : ((s.naming x n e st).station st).az = (s.station st).az := by rw [State.station_naming]
  have el : ((s.naming x n e st).station st).el = (s.station st).el := by rw [State.station_naming]
  unfold State.act
  simp only [← State.issued_naming, ← State.skip_naming, ← az, ← el]
  unfold State.naming at *
  unfold State.issueTo
  dsimp only
  revert h'
  generalize State.skipReason _ st = r
  rintro rfl
  cases e.action <;> rfl

end Issue

/-! ### The skip test (R115) -/

section SkipTest

variable {s : State} {st : StationId}

/-- The station's zone stows (R115). -/
abbrev State.blown (s : State) (st : StationId) : Prop :=
  (s.zone (s.station st).cfg.zone).state.stows = true

/-- One of the station's axes is FAULTED (R115). -/
abbrev Station.broken (z : Station) : Prop := z.az.state = .faulted ∨ z.el.state = .faulted

theorem State.skipReason_retired (h : (s.station st).retired = true) :
    s.skipReason st = some .retired := if_pos h

theorem State.skipReason_working (h : (s.station st).retired = false) : s.skipReason st =
    if (s.station st).tags ≠ [] then some .locked
    else if s.blown st then some .wind
    else if (s.station st).broken then some .fault
    else none := by
  unfold State.skipReason
  dsimp only
  rw [if_neg (by rw [h]; decide)]
  cases (s.station st).tags <;> rfl

theorem State.skipReason_locked (h : (s.station st).retired = false)
    (ht : (s.station st).tags ≠ []) : s.skipReason st = some .locked :=
  (State.skipReason_working h).trans (if_pos ht)

theorem State.skipReason_untagged (h : (s.station st).retired = false)
    (ht : (s.station st).tags = []) : s.skipReason st =
      if s.blown st then some .wind else if (s.station st).broken then some .fault else none :=
  (State.skipReason_working h).trans (if_neg (not_not.2 ht))

theorem State.skipReason_wind (h : (s.station st).retired = false)
    (ht : (s.station st).tags = []) (hb : s.blown st) : s.skipReason st = some .wind :=
  (State.skipReason_untagged h ht).trans (if_pos hb)

theorem State.skipReason_fault (h : (s.station st).retired = false)
    (ht : (s.station st).tags = []) (hb : ¬ s.blown st) (hf : (s.station st).broken) :
    s.skipReason st = some .fault :=
  (State.skipReason_untagged h ht).trans ((if_neg hb).trans (if_pos hf))

theorem State.skipReason_none (h : (s.station st).retired = false)
    (ht : (s.station st).tags = []) (hb : ¬ s.blown st) (hf : ¬ (s.station st).broken) :
    s.skipReason st = none :=
  (State.skipReason_untagged h ht).trans ((if_neg hb).trans (if_neg hf))

end SkipTest

/-! ### Engagement (R43) -/

section Engage

variable {s t : State} {st : StationId} {l : Letter}

theorem Station.modBook_same {x : Station} {f : Book → Book} (h : f (x.book l) = x.book l) :
    x.modBook l f = x := by
  cases l
  case a => rw [Station.modBook, show f x.bookA = x.bookA from h]
  case b => rw [Station.modBook, show f x.bookB = x.bookB from h]

/-- Beside a book that does not run, the other is the one that can run. -/
theorem Station.idleRunning_beside {x : Station} (h : (x.book l).state ≠ .running) :
    x.idleRunning = x.modBook l.other Book.yield := by
  have yields (m : Letter) (e : (x.book m).state = .running) :
      x.modBook m Book.idle = x.modBook m Book.yield :=
    Station.modBook_ext (by rw [Book.yield, if_pos e]; rfl)
  have stays (m : Letter) (e : (x.book m).state ≠ .running) : x = x.modBook m Book.yield := by
    have kept : (x.book m).yield = x.book m := if_neg e
    exact (Station.modBook_same kept).symm
  unfold Station.idleRunning Station.bookIn
  cases l
  case a =>
    rw [if_neg (show x.bookA.state ≠ .running from h)]
    by_cases e : x.bookB.state = .running
    · rw [if_pos e]; exact yields .b e
    · rw [if_neg e]; exact stays .b e
  case b =>
    by_cases e : x.bookA.state = .running
    · rw [if_pos e]; exact yields .a e
    · rw [if_neg e, if_neg (show x.bookB.state ≠ .running from h)]
      exact stays .a e

/-- The start of a book that does not run (R38, R43): its station's running book gives way to it. -/
theorem State.startBook_beside (h : ((s.station st).book l).state ≠ .running) :
    s.startBook st l = (s.modStation st (fun x =>
      { (x.modBook l.other Book.yield).modBook l Book.run with
        lastBook := some { kind := .started, letter := l, time := s.time.time } })).bump
          (.bookEvents st) := by
  rw [State.startBook_eq]
  refine congrArg (State.bump · _) (State.modStation_ext ?_)
  rw [Station.starting, Station.idleRunning_beside h]

/-- Whether an engagement succeeds is read off the book's state and its bytes (R43). -/
theorem State.engage_answer (hb : ((t.station st).book l).state = ((s.station st).book l).state)
    (hm : t.mem = s.mem) : (t.engage k st l).2 = (s.engage k st l).2 := by
  unfold State.engage
  rw [hb, hm]
  cases ((s.station st).book l).state with
  | idle => cases Memory.wholeBook s.mem st l <;> rfl
  | _ => rfl

theorem State.engage_pending (h : ((s.station st).book l).state = .pending) :
    s.engage k st l = ((s.startBook st l).inputChanged k st, true) := by
  unfold State.engage
  rw [h]

theorem State.engage_running (h : ((s.station st).book l).state = .running) :
    s.engage k st l = (s, true) := by
  unfold State.engage
  rw [h]

theorem State.engage_over (h : ((s.station st).book l).state = .spent ∨
    ((s.station st).book l).state = .faulted) : s.engage k st l = (s, false) := by
  unfold State.engage
  obtain h | h := h <;> rw [h]

theorem State.engage_bad (h : ((s.station st).book l).state = .idle)
    (hw : Memory.wholeBook s.mem st l = none) : s.engage k st l = (s, false) := by
  unfold State.engage
  rw [h, hw]

theorem State.engage_whole {a : Armed} (h : ((s.station st).book l).state = .idle)
    (hw : Memory.wholeBook s.mem st l = some a) : s.engage k st l =
      (((s.modBook st l (fun b => { b with armed := some a })).startBook st l).inputChanged k st,
        true) := by
  unfold State.engage
  rw [h, hw]

end Engage

/-! ### The check of a whole book (R43) -/

section Whole

variable {m : Mem} {st : StationId} {l : Letter}

/-- A header that stands for a book: a count that fits and a number. -/
abbrev Memory.headed (m : Mem) (st : StationId) (l : Letter) : Prop :=
  (1 ≤ Memory.pointCount m st l ∧ Memory.pointCount m st l ≤ 128) ∧ Memory.bookNumber m st l ≠ 0

theorem Memory.checkHeader_headed (h : Memory.headed m st l) :
    checkHeader (Memory.pointCount m st l) (Memory.bookNumber m st l) (Memory.bookNumber m st l) =
      none :=
  checkHeader_none (by omega) (by simp [h.2])

theorem Memory.wholeBook_headless (h : ¬ Memory.headed m st l) : Memory.wholeBook m st l = none := by
  unfold Memory.wholeBook
  dsimp only
  by_cases count : Memory.pointCount m st l = 0 ∨ 128 < Memory.pointCount m st l
  · rw [checkHeader_count count]
  · rw [checkHeader_number count (.inl (by by_contra number; exact h ⟨by omega, number⟩))]

theorem Memory.wholeBook_failed {f : Nat × BookReason}
    (hp : Memory.checkPoints m st l (Memory.pointCount m st l) 0 none = .error f) :
    Memory.wholeBook m st l = none := by
  by_cases h : Memory.headed m st l
  · unfold Memory.wholeBook
    dsimp only
    rw [Memory.checkHeader_headed h, hp]
  · exact Memory.wholeBook_headless h

theorem Memory.wholeBook_passed {last : Nat} (h : Memory.headed m st l)
    (hp : Memory.checkPoints m st l (Memory.pointCount m st l) 0 none = .ok (some last)) :
    Memory.wholeBook m st l = some {
      number := Memory.bookNumber m st l, count := Memory.pointCount m st l,
      first := Memory.pointTime m st l 0, last := last } := by
  unfold Memory.wholeBook
  dsimp only
  rw [Memory.checkHeader_headed h, hp]

end Whole

/-! ### The actions of an entry (R116) -/

section Act

variable {s : State} {x : TableId} {n : Nat} {e : SweepEntry} {st : StationId}

/-- The issue of an entry touches the record of its station alone. -/
theorem State.station_issuedBy (state : RecordState) : (s.issuedBy x n e st state).station st =
    { s.station st with progress := e.record x n state none (e.timer state) } := by
  unfold State.issuedBy
  rw [State.station_modTable, State.station_modStation, if_pos rfl]

theorem State.act_goto (h : e.action = .goto) : s.act k x n e st =
    (s.issuedBy x n e st .waiting).setHold k st (some { table := x, az := e.az, el := e.el }) := by
  rw [State.act, h]

theorem State.act_hold (h : e.action = .hold) : s.act k x n e st =
    (s.issuedBy x n e st .waiting).setHold k st
      (some { table := x, az := (s.station st).az.c, el := (s.station st).el.c }) := by
  rw [State.act, h]

theorem State.act_release (h : e.action = .release) :
    s.act k x n e st = (s.issuedBy x n e st .settled).clearHold k st := by
  rw [State.act, h]

theorem State.act_release_free (h : e.action = .release) (hn : (s.station st).hold = none) :
    s.act k x n e st = s.issuedBy x n e st .settled := by
  rw [State.act_release h]
  exact if_pos (by rw [State.station_issuedBy, hn]; rfl)

theorem State.act_release_held (h : e.action = .release) (hn : (s.station st).hold ≠ none) :
    s.act k x n e st = (s.issuedBy x n e st .settled).setHold k st none := by
  rw [State.act_release h]
  exact if_neg (by rw [State.station_issuedBy]; simpa using hn)

/-- The action that engages a book. -/
abbrev Action.engaging (l : Letter) : Action :=
  match l with
  | .a => .engageA
  | .b => .engageB

theorem State.engage_issuedBy (l : Letter) :
    ((s.issuedBy x n e st .waiting).engage k st l).2 = (s.engage k st l).2 :=
  State.engage_answer (by rw [State.station_issuedBy]; cases l <;> rfl) rfl

theorem State.act_engage {l : Letter} (h : e.action = .engaging l) : s.act k x n e st =
    if (s.engage k st l).2 = true then ((s.issuedBy x n e st .waiting).engage k st l).1
    else s.skippedBy x n e st .book := by
  rw [← State.engage_issuedBy (x := x) (n := n) (e := e)]
  cases l <;> rw [State.act, h]

end Act

end Sys2Proof.Machine
end

section
/-! PROOFS. A table that waits for its start stays as it is through everything that follows from other tables,
and a table that has started goes to its end only (R109, R111, R121): what settling, the issue of entries and
the end of a table do to the tables. `StartsStand` says so of two states. -/

namespace Sys2Proof.Machine

/-- RUNNING, SETTLING or DONE: a table that has started and was not cancelled. -/
def SweepTable.started (t : SweepTable) : Prop :=
  t.state = .running ∨ t.state = .settling ∨ t.state = .done

/-- A table that waits stands, and one that has started has gone on or ended. -/
structure StartsStand (s t : State) : Prop where
  stands : ∀ x, (s.table x).waits → t.table x = s.table x
  started : ∀ x, (s.table x).started → (t.table x).started

variable {k : Settle}

namespace StartsStand

theorem refl (s : State) : StartsStand s s := ⟨fun _ _ => rfl, fun _ => id⟩

theorem after {s t u : State} (k : StartsStand t u) (h : StartsStand s t) : StartsStand s u :=
  ⟨fun x w => (k.stands x (h.stands x w ▸ w)).trans (h.stands x w),
    fun x b => k.started x (h.started x b)⟩

theorem ite {c : Prop} [Decidable c] {s t u : State} (h : StartsStand s t) (k : StartsStand s u) :
    StartsStand s (if c then t else u) := by
  split
  · exact h
  · exact k

/-- A change that is not one of a table. -/
theorem same {s t : State} (h : t.tables = s.tables) : StartsStand s t :=
  ⟨fun x _ => State.table_congr h x, fun x b => State.table_congr h x ▸ b⟩

theorem modStation (st : StationId) (f : Station → Station) (s : State) :
    StartsStand s (s.modStation st f) := .same rfl

theorem modZone (z : ZoneId) (f : Zone → Zone) (s : State) : StartsStand s (s.modZone z f) := .same rfl

theorem bump (x : Tally) (s : State) : StartsStand s (s.bump x) := .same rfl

/-- A change of a table that does not wait. -/
theorem modTable {x : TableId} {f : SweepTable → SweepTable} {s : State}
    (hw : ¬ (s.table x).waits) (hb : (s.table x).started → (f (s.table x)).started) :
    StartsStand s (s.modTable x f) := by
  refine ⟨fun y w => ?_, fun y b => ?_⟩ <;> rw [State.table_modTable]
  · rw [if_neg (by rintro rfl; exact hw w)]
  · split
    · next e => subst e; exact hb b
    · exact b

/-- A started table does not wait. -/
theorem not_waits {t : SweepTable} (h : t.started) : ¬ t.waits := by
  rintro ⟨armed, -⟩
  simp [SweepTable.started, armed] at h

/-- A change of a table that has started, which leaves its state. -/
theorem modStarted {x : TableId} {f : SweepTable → SweepTable} {s : State}
    (h : (s.table x).started) (hf : (f (s.table x)).started) : StartsStand s (s.modTable x f) :=
  .modTable (not_waits h) fun _ => hf

theorem eachOf {α : Type} {f : α → State → State} (l : List α) (h : ∀ a s, StartsStand s (f a s))
    (s : State) : StartsStand s (eachOf l f s) := by
  induction l generalizing s with
  | nil => exact .refl s
  | cons a l ih => exact (ih _).after (h a s)

/-- The mark of the zone whose entry is under way. -/
theorem entering (z : Option ZoneId) {s t : State} (h : StartsStand s t) :
    StartsStand s { t with entering := z } :=
  (same (s := t) (t := { t with entering := z }) rfl).after h

section

variable (hk : ∀ s, StartsStand s (k s))
include hk

/-! ### Claims, sources, shed orders and heater zones (R50, R78, R181) -/

theorem settle_leave (w : Work) (s : State) : StartsStand s (k (s.leave w)) :=
  (hk _).after (.same rfl)

theorem formClaim (st : StationId) (s : State) : StartsStand s (s.formClaim k st) := by
  unfold State.formClaim
  exact .ite (modStation ..) ((settle_leave hk ..).after (modStation ..))

theorem changeAxes (st : StationId) (f : Station → Station) (s : State) :
    StartsStand s (s.changeAxes k st f) := by
  have h := (formClaim hk st _).after (modStation st f s)
  unfold State.changeAxes
  exact .ite ((settle_leave hk ..).after h) h

theorem decideSource (st : StationId) (s : State) : StartsStand s (s.decideSource k st) := by
  unfold State.decideSource
  exact .ite (.refl s) (changeAxes hk ..)

theorem judgeShed (st : StationId) (s : State) : StartsStand s (s.judgeShed k st) := by
  unfold State.judgeShed
  exact .ite (.refl s) (.ite (.after (decideSource hk ..) (modStation ..))
    (.after (decideSource hk ..) (modStation ..)))

theorem inputChanged (st : StationId) (s : State) : StartsStand s (s.inputChanged k st) :=
  (judgeShed hk st _).after (decideSource hk st s)

theorem changeHeater (st : StationId) (area : Area) (f : Heater → Heater) (s : State) :
    StartsStand s (s.changeHeater k st area f) := by
  unfold State.changeHeater
  dsimp only
  generalize hu : (s.modHeater st area f).modStation st _ = u
  have h : StartsStand s u := hu ▸ .after (modStation ..) (modStation st _ s)
  have claims (b c : Bool) (cls : Option HeatClass) : StartsStand u
      (if b then k (u.leave (.heatWithdraw st area))
        else match cls with
          | some cls => if c then k (u.leave (.heat st area cls.watts)) else u
          | none => u) := by
    refine .ite (settle_leave hk _ u) ?_
    split
    · exact .ite (settle_leave hk _ u) (.refl u)
    · exact .refl u
  exact .ite (.after (judgeShed hk st _) (.after (claims ..) h)) (.after (claims ..) h)

theorem heatGrant (st : StationId) (area : Area) (watts : Nat) (s : State) :
    StartsStand s (s.heatGrant k st area watts) := by
  unfold State.heatGrant
  split
  · exact .ite (.refl s) (changeHeater hk ..)
  · exact .ite (.refl s) (changeHeater hk ..)
  · exact .ite (changeHeater hk ..) (.refl s)
  · exact .ite (changeHeater hk ..) (.refl s)
  all_goals exact .ite (.refl s) (settle_leave hk _ s)

/-! ### Books and holds (R43, R116) -/

omit hk in
theorem startBook (st : StationId) (l : Letter) (s : State) : StartsStand s (s.startBook st l) := .same rfl

theorem engage (st : StationId) (l : Letter) (s : State) : StartsStand s (s.engage k st l).1 := by
  unfold State.engage
  split
  · exact .after (inputChanged hk ..) (startBook ..)
  · exact .refl s
  · exact .refl s
  · exact .refl s
  · split
    · exact .refl s
    · exact .after (inputChanged hk ..) (.after (startBook ..) (modStation ..))

theorem setHold (st : StationId) (h : Option SweepHold) (s : State) : StartsStand s (s.setHold k st h) :=
  .after (inputChanged hk ..) (modStation ..)

theorem clearHold (st : StationId) (s : State) : StartsStand s (s.clearHold k st) :=
  .ite (.refl s) (setHold hk ..)

/-! ### The issue of entries, the start and the end of a table (R111 to R121) -/

section Issue

variable {x : TableId} {s : State}

theorem issueTo (h : (s.table x).started) (n : Nat) (e : SweepEntry) (st : StationId) :
    StartsStand s (s.issueTo k x n e st) := by
  have skipped (r : SweepReason) : StartsStand s (s.skippedBy x n e st r) :=
    .after (modStarted h h) (modStation ..)
  have issued (state : RecordState) : StartsStand s (s.issuedBy x n e st state) :=
    .after (modStarted h h) (modStation ..)
  cases hr : s.skipReason st with
  | some r => rw [State.issueTo_skips hr]; exact skipped r
  | none =>
    rw [State.issueTo_acts hr]
    unfold State.act
    split
    · exact .after (setHold hk ..) (issued _)
    · exact .after (setHold hk ..) (issued _)
    · exact .after (clearHold hk ..) (issued _)
    · exact .ite (.after (engage hk ..) (issued _)) (skipped _)
    · exact .ite (.after (engage hk ..) (issued _)) (skipped _)

theorem issueEntry (h : (s.table x).started) (n : Nat) (e : SweepEntry) :
    StartsStand s (s.issueEntry k x n e) := by
  unfold State.issueEntry
  generalize allStations.filter _ = l
  induction l generalizing s with
  | nil => exact .refl s
  | cons st l ih =>
    have one := issueTo hk h n e st
    exact (ih (one.started x h)).after one

theorem issueFrom (h : (s.table x).started) (l : List SweepEntry) (n : Nat) :
    StartsStand s (s.issueFrom k x l n) := by
  induction l generalizing n s with
  | nil => exact modStarted h (.inr (.inl rfl))
  | cons e l ih =>
    rw [State.issueFrom]
    split
    · have entry := issueEntry hk h n e
      have started := entry.started x h
      have next : StartsStand s ((s.issueEntry k x n e).modTable x (fun t => { t with next := n + 1 })) :=
        .after (modStarted started started) entry
      exact (ih (next.started x h) (n + 1)).after next
    · exact .refl s

theorem judgeIssue (h : (s.table x).started) : StartsStand s (s.judgeIssue k x) := by
  unfold State.judgeIssue
  exact .ite (issueFrom hk h _ _) (.refl s)

/-- The rest of a start, once the table is RUNNING (R112). -/
theorem began (h : (s.table x).started) : StartsStand s
    ((Machine.eachOf allStations (fun st s => s.modProgress st (fun _ => Progress.reset (some x)))
      s).judgeIssue k x) := by
  have records := StartsStand.eachOf allStations (f := fun st s =>
    s.modProgress st (fun _ => Progress.reset (some x))) (fun st s => modStation st _ s) s
  exact (judgeIssue hk (records.started x h)).after records

theorem beginTable (h : ¬ (s.table x).waits) (hs : ¬ (s.table x).started) (late : Bool) :
    StartsStand s (s.beginTable k x late) := by
  unfold State.beginTable
  dsimp only
  generalize hu : s.modTable x _ = u
  have start : StartsStand s u := hu ▸ .modTable h fun b => absurd b hs
  have runs : (u.table x).started := by
    rw [← hu, State.table_modTable, if_pos rfl]
    exact .inl rfl
  exact (began hk runs).after start

omit hk in
theorem ran {t : SweepTable} (h : t.state.runs = true) : t.started := by
  obtain h | h := TableState.runs_iff.1 h
  · exact .inl h
  · exact .inr (.inl h)

theorem closeTable (h : (s.table x).started) : StartsStand s (s.closeTable k x .done .done) := by
  unfold State.closeTable State.releaseTable
  dsimp only
  generalize hu : s.modTable x _ = u
  have ends : StartsStand s u := hu ▸ modStarted h (.inr (.inr rfl))
  generalize hv : Machine.eachOf allStations _ u = v
  have holds : StartsStand u v := hv ▸ .eachOf _ (fun st s => .ite (setHold hk ..) (.refl s)) u
  generalize hw : Machine.eachOf allStations _ v = w
  have timers : StartsStand v w := hw ▸ .eachOf _ (fun st s => modStation ..) v
  have all := timers.after (holds.after ends)
  exact .after (bump ..) (.after (modStarted (all.started x h) (all.started x h)) all)

end Issue

theorem judgeEnd (n : Nat) (x : TableId) (s : State) : StartsStand s (s.judgeEnd k n x) := by
  induction n generalizing x s with
  | zero => exact .refl s
  | succ n ih =>
    rw [State.judgeEnd]
    split
    · next h =>
      have close := closeTable hk (s := s) (x := x) (.inr (.inl h.1))
      dsimp only
      split
      · next o =>
        refine (ih _ _).after ((beginTable hk (fun w => ?_) (fun b => ?_) true).after close)
        · exact absurd w.2 (by rw [o.2]; decide)
        · simp [SweepTable.started, o.1] at b
      · exact close
    · exact .refl s

theorem abandon (st : StationId) (r : SweepReason) (s : State) : StartsStand s (s.abandon k st r) := by
  unfold State.abandon
  dsimp only
  split
  · exact .refl s
  · next x _ =>
    split
    · next h =>
      have started := ran (Bool.and_eq_true _ _ ▸ h).2
      exact .after (judgeEnd hk ..) (.after (clearHold hk ..)
        (.after (modStarted started started) (modStation ..)))
    · exact .refl s

/-! ### Wind zones (R151 to R155) -/

omit hk in
theorem expose (st : StationId) (r : ExposeReason) (s : State) : StartsStand s (s.expose st r) :=
  .ite (modZone ..) (.refl s)

omit hk in
theorem exposeBlocked (st : StationId) (s : State) : StartsStand s (s.exposeBlocked st) :=
  .ite (expose ..) (.ite (expose ..) (.refl s))

theorem judgeMembers (z : ZoneId) (s : State) : StartsStand s (s.judgeMembers k z) :=
  eachOf _ (judgeShed hk) s

theorem moveZone (z : ZoneId) (to_ : ZoneState) (f : Zone → Zone) (s : State) :
    StartsStand s (s.moveZone k z to_ f) :=
  .after (judgeMembers hk ..) (.same rfl)

theorem stowedTest (z : ZoneId) (s : State) : StartsStand s (s.stowedTest k z) :=
  .ite (moveZone hk z .stowed _ s) (.refl s)

theorem stowMember (st : StationId) (s : State) : StartsStand s (s.stowMember k st) :=
  .after (exposeBlocked ..) (.after (formClaim hk ..) (.after (decideSource hk ..)
    (.after (modStation ..) (abandon hk ..))))

theorem enterStowing (z : ZoneId) (s : State) : StartsStand s (s.enterStowing k z) := by
  have zoneEvent (left : ZoneState) (s : State) : StartsStand s (s.zoneEvent z left) := .same rfl
  unfold State.enterStowing
  dsimp only
  exact .after (stowedTest hk ..) (.entering _ (.after (judgeMembers hk ..)
    (.after (zoneEvent ..) (.after (eachOf _ (stowMember hk) _)
      (.after (modZone ..) (.entering (some z) (.refl s)))))))

theorem testZone (z : ZoneId) (s : State) : StartsStand s (s.testZone k z) :=
  .ite (enterStowing hk z s) (stowedTest hk z s)

theorem axesChanged (st : StationId) (s : State) : StartsStand s (s.axesChanged k st) :=
  .after (testZone hk ..) (.ite (modZone ..) (.refl s))

theorem joinExposed (st : StationId) (r : ExposeReason) (s : State) :
    StartsStand s (s.joinExposed k st r) :=
  .ite (.after (testZone hk ..) (expose ..)) (.refl s)

/-! ### Faults and grants (R71, R74, R79) -/

theorem faultAxis (st : StationId) (ax : AxisId) (r : AxisFault) (s : State) :
    StartsStand s (s.faultAxis k st ax r) :=
  .after (joinExposed hk ..) (.after (abandon hk ..) (.after (bump ..)
    (.after (formClaim hk ..) (modStation ..))))

theorem releaseAxis (st : StationId) (ax : AxisId) (s : State) :
    StartsStand s (s.releaseAxis k st ax) := by
  unfold State.releaseAxis
  dsimp only
  split
  · exact .ite (modStation ..) (faultAxis hk ..)
  · exact .refl s

theorem judgeAwaiting (st : StationId) (s : State) : StartsStand s (s.judgeAwaiting k st) :=
  .ite (.after (formClaim hk ..) (.after (releaseAxis hk ..) (releaseAxis hk ..))) (.refl s)

theorem driveGrant (st : StationId) (watts : Nat) (s : State) :
    StartsStand s (s.driveGrant k st watts) := by
  unfold State.driveGrant
  dsimp only
  refine .after ?_ (modStation st (Station.takeGrant watts) s)
  generalize s.modStation st (Station.takeGrant watts) = u
  refine .ite ?_ (.ite (.ite ?_ ?_) (.refl u))
  · exact .after (formClaim hk ..) (.after (judgeAwaiting hk ..) (modStation ..))
  · exact .after (axesChanged hk ..) (changeAxes hk ..)
  · exact .after (formClaim hk ..) (modStation ..)

theorem report (c : Claimant) (s : State) : StartsStand s (s.report k c) := by
  cases c with
  | station => exact driveGrant hk ..
  | heater => exact heatGrant hk ..

end

/-! ### Settling (R100) -/

theorem powerChange (w : Work) (s : State) : StartsStand s (s.powerChange w).1 := by
  have bumps (l : List Tally) (u : State) : StartsStand u (l.foldl State.bump u) := by
    induction l generalizing u with
    | nil => exact .refl u
    | cons t l ih => exact .after (ih _) (bump t u)
  exact .after (bumps _ _) (.same rfl)

theorem later (s : State) : StartsStand s (Settle.later s) := .refl s

theorem deliver (w : Work) (s : State) : StartsStand s (State.deliver w s) := by
  cases w with
  | awaiting st => exact judgeAwaiting later st s
  | _ => exact .after (eachOf _ (report later) _) (powerChange _ s)

theorem drain (n : Nat) (s : State) : StartsStand s (State.drain n s) := by
  induction n generalizing s with
  | zero => exact .refl s
  | succ n ih =>
    rw [State.drain]
    split
    · exact .refl s
    · exact .after (ih _) (.after (deliver ..) (.same rfl))

theorem settle (s : State) : StartsStand s (settle s) := drain _ s

end StartsStand

end Sys2Proof.Machine
end

section
/-! PROOFS. The starts that a taken pulse or a rising edge of SWEEP_STROBE brings to both tables, T0's before
T1's (R109 to R112). -/

namespace Sys2Proof.Machine

variable {k : Settle}

/-! ### What a start leaves (R112) -/

/-- A table that has started at a time, and not late. -/
abbrev SweepTable.onTime (t : SweepTable) (now : Nat) : Prop :=
  t.state ≠ .armed ∧ t.sweepStart = some now ∧ t.late = false

theorem Kept.onTime {E : TableId → Prop} {Q : Prop} {s t : State} (h : Kept E Q s t) {x : TableId}
    {now : Nat} (b : (s.table x).onTime now) : (t.table x).onTime now := by
  obtain ⟨state, start, late⟩ := b
  obtain ⟨state', start', late'⟩ := (h.table x).began state
  exact ⟨state', start'.trans start, late'.trans late⟩

/-- The table's own record at its start (R112). -/
def State.begun (x : TableId) (late : Bool) (s : State) : State :=
  s.modTable x (fun t => { t with
    state := .running, startDue := false, late := late, sweepStart := some s.time.time, next := 0 })

section Start

variable {s : State} {x : TableId}

theorem State.table_begun : (s.begun x false).table x = { s.table x with
    state := .running, startDue := false, late := false, sweepStart := some s.time.time,
    next := 0 } := by
  rw [State.begun, State.table_modTable, if_pos rfl]

theorem State.table_begun_other {y : TableId} (h : x ≠ y) : (s.begun x false).table y = s.table y := by
  rw [State.begun, State.table_modTable, if_neg h]

/-- From its record on, a start issues what is due and judges its table for its end. -/
theorem Kept.start {E : TableId → Prop} (hE : E x) (s : State) :
    Kept E False (s.begun x false) ((s.beginTable Machine.settle x false).judgeEnd Machine.settle 2 x) := by
  have hk (s : State) : Kept E False s (Machine.settle s) := (Kept.settle s).weaken
  have records : Kept E False (s.begun x false) _ := .eachOf allStations
    (fun st s => .modProgress (.of_issue hE) st (fun _ => Progress.reset (some x))) _
  exact (records.trans (.judgeIssue hk hE _)).trans (Kept.judgeEnd Kept.settle 2 x _).weaken

theorem StartsStand.start (s : State) (x : TableId) : StartsStand (s.begun x false)
    ((s.beginTable Machine.settle x false).judgeEnd Machine.settle 2 x) := by
  have runs : ((s.begun x false).table x).started := by
    rw [State.table_begun]
    exact .inl rfl
  exact (StartsStand.judgeEnd StartsStand.settle 2 x _).after
    (StartsStand.began StartsStand.settle runs)

/-- A table in the way of a start. -/
abbrev SweepTable.inUse (t : SweepTable) : Prop := t.state = .running ∨ t.state = .settling

theorem State.arriveStart_onTime (h : (s.table x).waits)
    (hr : ¬ (s.table (TableId.other x)).inUse) :
    ((s.arriveStart settle x).table x).onTime s.time.time := by
  rw [State.arriveStart_starts h hr]
  refine (Kept.start (E := fun _ => True) trivial s).onTime ?_
  rw [State.table_begun]
  exact ⟨nofun, rfl, rfl⟩

/-- While a table starts, one that waits beside it stands, and the start is not undone. -/
theorem State.arriveStart_first (h : (s.table 0).waits) (hr : ¬ (s.table 1).inUse) :
    ((s.table 1).waits → (s.arriveStart settle 0).table 1 = s.table 1) ∧
      ((s.arriveStart settle 0).table 0).started := by
  have stand := StartsStand.start s 0
  rw [← State.arriveStart_starts h hr] at stand
  have beside := State.table_begun_other (s := s) (x := 0) (y := 1) (by decide)
  refine ⟨fun w => (stand.stands 1 (by rw [beside]; exact w)).trans beside, stand.started 0 ?_⟩
  rw [State.table_begun]
  exact .inl rfl

/-- A start that arrives after the start of T0 becomes due, or follows where T0 has ended at once. -/
theorem State.arriveStart_second (h : (s.table 1).waits) (hs : (s.table 0).started) :
    let t := s.arriveStart settle 1
    (t.table 1).state = .armed ∧ (t.table 1).startDue = true ∨
      (t.table 1).state ≠ .armed ∧ (t.table 1).late = false ∧ (t.table 0).state = .done := by
  by_cases hr : (s.table 0).inUse
  · left
    rw [State.arriveStart_due h hr, State.table_modTable, if_pos rfl]
    exact ⟨h.1, rfl⟩
  · right
    have done : (s.table 0).state = .done :=
      (hs.resolve_left fun e => hr (.inl e)).resolve_left fun e => hr (.inr e)
    obtain ⟨state, -, late⟩ := State.arriveStart_onTime h hr
    refine ⟨state, late, ?_⟩
    rw [State.arriveStart_starts h hr]
    have unused := ((Kept.start (E := fun y => y = 1) rfl s).table 0).unused (by decide)
    rw [State.table_begun_other (by decide)] at unused
    rw [unused (by rw [done]; rfl), done]

end Start

theorem TableId.ne_other : ∀ x : TableId, x ≠ TableId.other x := by decide

theorem TableId.two (x y : TableId) (h : x ≠ y) : x = 0 ∧ y = 1 ∨ x = 1 ∧ y = 0 := by
  revert x y
  decide

/-! ### An event that is the start of the tables that wait for it (R109) -/

/-- An event handed to each table: one that waits for it has its strobe timer as the event leaves it and its
start arrives; another is left as it is. -/
structure Arrival (waits : SweepTable → Prop) (hear : SweepTable → SweepTable)
    (g : TableId → State → State) : Prop where
  awaits : ∀ t, waits t → t.waits
  hears : ∀ t, hear t = { t with strobe := (hear t).strobe }
  acts : ∀ x s, waits (s.table x) → g x s = (s.modTable x hear).arriveStart settle x
  idle : ∀ x s, ¬ waits (s.table x) → g x s = s

namespace Arrival

variable {waits : SweepTable → Prop} {hear : SweepTable → SweepTable} {g : TableId → State → State}
  {s : State} {x y : TableId} (a : Arrival waits hear g)
include a

theorem heard_waits {t : SweepTable} (h : waits t) : (hear t).waits := by
  rw [a.hears]
  exact a.awaits t h

theorem not_inUse {t : SweepTable} (h : t.inUse) : ¬ waits t := fun w => by
  have armed := (a.awaits t w).1
  simp [SweepTable.inUse, armed] at h

theorem kept (x : TableId) (s : State) : Kept (fun _ => True) False s (g x s) := by
  by_cases w : waits (s.table x)
  · rw [a.acts x s w]
    refine Kept.trans ?_ (.arriveStart x _)
    refine .modIssued trivial ?_ ?_ ?_ fun n => ?_ <;> rw [a.hears]
    exact ⟨n, rfl, rfl⟩
  · rw [a.idle x s w]
    exact .refl s

theorem heard_table (h : waits (s.table x)) :
    ((s.modTable x hear).table x).waits ∧ (s.modTable x hear).table (TableId.other x) =
      s.table (TableId.other x) := by
  rw [State.table_modTable, if_pos rfl, State.table_modTable, if_neg (TableId.ne_other x)]
  exact ⟨a.heard_waits h, rfl⟩

theorem due (h : waits (s.table x)) (hr : (s.table (TableId.other x)).inUse) :
    g x s = s.modTable x (fun t => { hear t with startDue := true }) := by
  obtain ⟨own, other⟩ := a.heard_table h
  rw [a.acts x s h, State.arriveStart_due own (by rw [other]; exact hr), State.modTable_twice]

theorem onTime (h : waits (s.table x)) (hr : ¬ (s.table (TableId.other x)).inUse) :
    ((g x s).table x).onTime s.time.time := by
  obtain ⟨own, other⟩ := a.heard_table h
  rw [a.acts x s h]
  exact State.arriveStart_onTime own (by rw [other]; exact hr)

/-! ### Both tables, T0 first -/

theorem pair_kept (s : State) : Kept (fun _ => True) False s (g 1 (g 0 s)) :=
  (a.kept 0 s).trans (a.kept 1 _)

theorem pair_idle (h0 : ¬ waits (s.table 0)) (h1 : ¬ waits (s.table 1)) : g 1 (g 0 s) = s := by
  rw [a.idle 0 s h0, a.idle 1 s h1]

theorem pair_due (hxy : x ≠ y) (h : waits (s.table x)) (hr : (s.table y).inUse) :
    g 1 (g 0 s) = s.modTable x (fun t => { hear t with startDue := true }) := by
  obtain ⟨rfl, rfl⟩ | ⟨rfl, rfl⟩ := TableId.two x y hxy
  · rw [a.due h hr]
    refine a.idle 1 _ (a.not_inUse ?_)
    rw [State.table_modTable, if_neg (by decide)]
    exact hr
  · rw [a.idle 0 s (a.not_inUse hr)]
    exact a.due h hr

theorem pair_onTime (hxy : x ≠ y) (h : waits (s.table x)) (hr : ¬ (s.table y).inUse)
    (first : x = 0 ∨ ¬ waits (s.table y)) : ((g 1 (g 0 s)).table x).onTime s.time.time := by
  obtain ⟨rfl, rfl⟩ | ⟨rfl, rfl⟩ := TableId.two x y hxy
  · exact (a.kept 1 _).onTime (a.onTime h hr)
  · rw [a.idle 0 s (first.resolve_left (by decide))]
    exact a.onTime h hr

theorem pair_both (h0 : waits (s.table 0)) (h1 : waits (s.table 1)) : let t := g 1 (g 0 s)
    (t.table 1).state = .armed ∧ (t.table 1).startDue = true ∨
      (t.table 1).state ≠ .armed ∧ (t.table 1).late = false ∧ (t.table 0).state = .done := by
  have free (t : SweepTable) (w : t.waits) : ¬ t.inUse := by simp [SweepTable.inUse, w.1]
  obtain ⟨own, other⟩ := a.heard_table h0
  have waits1 : ((s.modTable 0 hear).table 1).waits := other ▸ a.awaits _ h1
  obtain ⟨stands, started⟩ := State.arriveStart_first own (free _ waits1)
  rw [← a.acts 0 s h0] at stands started
  have first : (g 0 s).table 1 = s.table 1 := (stands waits1).trans other
  have second : waits ((g 0 s).table 1) := first ▸ h1
  obtain ⟨own', other'⟩ := a.heard_table second
  intro t
  rw [show t = ((g 0 s).modTable 1 hear).arriveStart settle 1 from a.acts 1 _ second]
  exact State.arriveStart_second own' (other' ▸ started)

end Arrival

/-! ### The site pulse and the strobe (R22, R109) -/

section Events

variable {s : State} {x : TableId}

/-- A table that waits for a pulse. -/
abbrev SweepTable.waitsPulse (t : SweepTable) : Prop :=
  t.state = .armed ∧ t.startDue = false ∧ ∃ l, t.launch = some l ∧ l.source = .nextPulse

/-- A table that waits for the strobe. -/
abbrev SweepTable.waitsStrobe (t : SweepTable) : Prop :=
  t.state = .armed ∧ t.startDue = false ∧ t.strobe ≠ none

theorem State.modTable_self (x : TableId) (s : State) : s.modTable x (fun t => t) = s := by
  simp [State.modTable]

theorem pulse_arrival : Arrival SweepTable.waitsPulse (fun t => t) (State.pulseTable settle) where
  awaits := fun _ ⟨armed, free, _⟩ => ⟨armed, free⟩
  hears := fun _ => rfl
  acts := fun x s h => by
    obtain ⟨-, -, l, launch, source⟩ := h
    rw [State.modTable_self]
    exact State.pulseTable_starts ⟨l, launch, source, nofun⟩
  idle := fun x s h => by
    by_cases hs : (s.table x).starts .nextPulse s.time.time
    · rw [State.pulseTable_starts hs]
      obtain ⟨l, launch, source, -⟩ := hs
      exact State.arriveStart_not fun w => h ⟨w.1, w.2, l, launch, source⟩
    · exact State.pulseTable_not hs

theorem State.strobe_waits (h : (s.table x).waitsStrobe) :
    s.strobe k x = (s.modTable x (fun t => { t with strobe := none })).arriveStart k x := by
  obtain ⟨armed, free, timer⟩ := h
  exact if_pos ⟨armed, free, Option.isSome_iff_ne_none.2 timer⟩

theorem State.strobe_not (h : ¬ (s.table x).waitsStrobe) : s.strobe k x = s :=
  if_neg fun ⟨armed, free, timer⟩ => h ⟨armed, free, Option.isSome_iff_ne_none.1 timer⟩

theorem strobe_arrival : Arrival SweepTable.waitsStrobe (fun t => { t with strobe := none })
    (State.strobe settle) where
  awaits := fun _ ⟨armed, free, _⟩ => ⟨armed, free⟩
  hears := fun _ => rfl
  acts := fun _ _ h => State.strobe_waits h
  idle := fun _ _ h => State.strobe_not h

theorem exec_sweepStrobe (s : State) :
    exec .sweepStrobe s = .next (s.publish ((s.strobe settle 0).strobe settle 1)) := rfl

/-! ### The strobe timeout (R110) -/

theorem exec_strobeTimeout_out (ha : (s.table x).state = .armed)
    (ht : (s.table x).strobe = some 0) : exec (.strobeTimeout x) s = .next (s.publish
      ((s.modTable x (fun t => { t with
        state := .expired, strobe := none, ended := some (.expired, s.time.time) })).bump
          .sweepEnds)) := by
  change execStrobeTimeout x s = _
  unfold execStrobeTimeout
  exact event_guarded (c := fun s => (s.table x).state = .armed ∧ (s.table x).strobe = some 0)
    ⟨ha, ht⟩

theorem exec_strobeTimeout_not (h : (s.table x).state ≠ .armed ∨ (s.table x).strobe ≠ some 0) :
    exec (.strobeTimeout x) s = .next s := by
  change execStrobeTimeout x s = _
  unfold execStrobeTimeout
  exact event_unguarded (c := fun s => (s.table x).state = .armed ∧ (s.table x).strobe = some 0)
    fun c => h.elim (fun n => n c.1) fun n => n c.2

/-- A change of one table counts nothing. -/
theorem Counts.modTable (s : State) (x : TableId) (f : SweepTable → SweepTable) :
    Counts [] s (s.modTable x f) := .of_eq rfl rfl rfl

end Events

/-- Settles O37: the starts and the issue by their equations, the actions and the engagement by case, and the
two events by what an arrival does to both tables. -/
theorem strobeStartsOrExpiresTheTable : Obligations.StrobeStartsOrExpiresTheTable := by
  refine ⟨fun k s x => ?_, fun k s x n e st => ?_, fun k s st l => ?_, fun s taken => ?_, fun s => ?_⟩
  · exact ⟨State.arriveStart_not, State.arriveStart_due, State.arriveStart_starts,
      State.pulseTable_starts, State.pulseTable_not, State.arriveAtTime_starts,
      State.arriveAtTime_not, fun _ => rfl, State.judgeIssue_not, State.judgeIssue_running,
      fun n => ⟨rfl, fun e l => ⟨State.issueFrom_not, State.issueFrom_due⟩⟩⟩
  · refine ⟨fun hr => State.issueTo_skips (State.skipReason_retired hr),
      fun hr ht => State.issueTo_skips (State.skipReason_locked hr ht),
      fun hr ht hb => State.issueTo_skips (State.skipReason_wind hr ht hb),
      fun hr ht hb hf => State.issueTo_skips (State.skipReason_fault hr ht hb hf), ?_⟩
    rintro ⟨hr, ht, hb, hf⟩
    have acts := State.issueTo_acts (k := k) (x := x) (n := n) (e := e)
      (State.skipReason_none hr ht hb hf)
    refine ⟨fun h => acts.trans (State.act_goto h), fun h => acts.trans (State.act_hold h),
      fun h hn => acts.trans (State.act_release_free h hn),
      fun h hn => acts.trans (State.act_release_held h hn), fun l h => ⟨fun no => ?_, fun yes => ?_⟩⟩
    · exact acts.trans ((State.act_engage h).trans (if_neg (by rw [no]; decide)))
    · exact acts.trans ((State.act_engage h).trans (if_pos yes))
  · refine ⟨fun h => ?_, State.engage_running, State.engage_over, fun h => ⟨State.engage_bad h,
      fun a hw => ?_⟩, Memory.wholeBook_headless, fun _ => Memory.wholeBook_failed,
      fun _ => Memory.wholeBook_passed⟩
    · rw [State.engage_pending h, State.startBook_beside (by rw [h]; decide)]
      rfl
    · rw [State.engage_whole h hw, State.startBook_beside (by rw [State.book_modBook, h]; decide)]
      rfl
  · have tables (x : TableId) : s.pulsed.table x = s.table x :=
      State.table_congr (congrArg Blocks.tables s.blocks_pulsed) x
    refine ⟨exec_sitePulse_taken taken, s.blocks_pulsed, fun t ht => ?_⟩
    rw [exec_sitePulse_taken taken] at ht
    injection ht with ht
    subst ht
    refine ⟨fun x y hxy hw hr => ?_, fun x y hxy hw hr first => ?_, fun h0 h1 => ?_⟩
    · simp only [← tables] at hw hr
      rw [State.table_publish, State.pulseTables, pulse_arrival.pair_due hxy hw hr,
        State.table_modTable, if_pos rfl]
      exact ⟨hw.1, rfl⟩
    · simp only [← tables] at hw hr first
      rw [State.table_publish, State.publish_time, (Kept.pulseTables _).time]
      exact pulse_arrival.pair_onTime hxy hw hr first
    · simp only [← tables] at h0 h1
      exact pulse_arrival.pair_both h0 h1
  · refine ⟨fun k x => ⟨State.strobe_waits, State.strobe_not⟩, rfl, fun h0 h1 => ?_,
      fun x y hxy hw hr => ⟨_, exec_sweepStrobe s, ?_, ?_⟩,
      fun x y hxy hw hr first => ⟨_, exec_sweepStrobe s, (strobe_arrival.pair_kept s).apart,
        strobe_arrival.pair_onTime hxy hw hr first⟩,
      fun h0 h1 => ⟨_, exec_sweepStrobe s, strobe_arrival.pair_both h0 h1⟩,
      fun x => ⟨fun ha ht => ⟨_, exec_strobeTimeout_out ha ht, ?_, rfl⟩, exec_strobeTimeout_not⟩⟩
    · rw [exec_sweepStrobe, strobe_arrival.pair_idle h0 h1, State.publish_of_blocks rfl]
    · rw [strobe_arrival.pair_due hxy hw hr]
      exact (Counts.modTable s x _).publish
    · rw [strobe_arrival.pair_due hxy hw hr]
      rfl
    · exact ((Counts.modTable s x _).trans (.bump _ _)).publish

end Sys2Proof.Machine
end

section
/-! PROOFS. The demand computation: the rounded interpolation, the braking step and its integer root, the
limited demand, and one expiry of an axis (R56 to R66). -/

namespace Sys2Proof.Machine

/-! ### The interpolation (R56) -/

/-- The nearest whole number to |n| / d, a half upwards: its distance from |n|, doubled, is at most d. -/
theorem roundDiv_abs {n d : Int} (hd : 0 < d) :
    2 * d * ((2 * (n.natAbs : Int) + d) / (2 * d)) ≤ 2 * n.natAbs + d ∧
      2 * n.natAbs < 2 * d * ((2 * (n.natAbs : Int) + d) / (2 * d)) + d := by
  have e := Int.emod_add_mul_ediv (2 * (n.natAbs : Int) + d) (2 * d)
  have lo := Int.emod_nonneg (2 * (n.natAbs : Int) + d) (b := 2 * d) (by omega)
  have hi := Int.emod_lt_of_pos (2 * (n.natAbs : Int) + d) (b := 2 * d) (by omega)
  generalize 2 * d * ((2 * (n.natAbs : Int) + d) / (2 * d)) = m at *
  constructor <;> omega

/-- The rounded quotient, scaled, as its sign times a multiple of d near |n|. -/
theorem roundDiv_mul {n d : Int} (hd : 0 < d) : ∃ q : Int, 0 ≤ q ∧ roundDiv n d = n.sign * q ∧
    2 * (d * q) ≤ 2 * n.natAbs + d ∧ 2 * n.natAbs < 2 * (d * q) + d := by
  obtain ⟨le, lt⟩ := roundDiv_abs (n := n) hd
  rw [Int.mul_assoc] at le lt
  exact ⟨_, Int.ediv_nonneg (by omega) (by omega), rfl, le, lt⟩

/-- Rounding to nearest, a half away from zero (R56). -/
theorem roundDiv_nearest {n d : Int} (hd : 0 < d) :
    (2 * (roundDiv n d * d - n)).natAbs ≤ d.natAbs ∧
      ((2 * (roundDiv n d * d - n)).natAbs = d.natAbs → n.natAbs ≤ (roundDiv n d * d).natAbs) := by
  obtain ⟨q, -, e, le, lt⟩ := roundDiv_mul (n := n) hd
  have e' : roundDiv n d * d = n.sign * (d * q) := by rw [e, mul_assoc, mul_comm q]
  rw [e']
  generalize d * q = m at *
  rcases lt_trichotomy n 0 with h | h | h
  · rw [Int.sign_eq_neg_one_of_neg h]
    omega
  · subst h
    rw [Int.sign_zero]
    omega
  · rw [Int.sign_eq_one_of_pos h]
    omega

/-- The rounded quotient of a fraction of x lies between 0 and x. -/
theorem roundDiv_fraction {x k d : Int} (hd : 0 < d) (h0 : 0 ≤ k) (h1 : k ≤ d) :
    min 0 x ≤ roundDiv (x * k) d ∧ roundDiv (x * k) d ≤ max 0 x := by
  obtain ⟨q, q0, e, le, -⟩ := roundDiv_mul (n := x * k) hd
  have bound : ((x * k).natAbs : Int) ≤ d * x.natAbs := by
    rw [Int.natAbs_mul, Nat.cast_mul, mul_comm]
    exact mul_le_mul_of_nonneg_right (by omega) (by omega)
  have small : q ≤ x.natAbs := by
    by_contra c
    have := mul_le_mul_of_nonneg_left (show (x.natAbs : Int) + 1 ≤ q by omega) hd.le
    rw [mul_add, mul_one] at this
    omega
  rw [e]
  rcases lt_trichotomy (x * k) 0 with h | h | h
  · have : x < 0 := by
      by_contra c
      exact absurd (mul_nonneg (not_lt.1 c) h0) (not_le.2 h)
    rw [Int.sign_eq_neg_one_of_neg h]
    omega
  · rw [h, Int.sign_zero]
    omega
  · have : 0 < x := by
      by_contra c
      exact absurd (mul_nonpos_of_nonpos_of_nonneg (not_lt.1 c) h0) (not_le.2 h)
    rw [Int.sign_eq_one_of_pos h]
    omega

theorem interpolate_sub (tk p tk1 p1 t : Int) :
    interpolate tk p tk1 p1 t - p = roundDiv ((p1 - p) * (t - tk)) (tk1 - tk) := by
  unfold interpolate
  omega

/-- The product of the interpolation fits 64 bits (R56). -/
theorem interpolate_product {x k d : Int} (h0 : 0 ≤ k) (h1 : k < d) (hd : d ≤ 600000)
    (hx : x.natAbs ≤ 540000000) : (x * k).natAbs ≤ 540000000 * 599999 := by
  rw [Int.natAbs_mul]
  exact Nat.mul_le_mul hx (by omega)

/-! ### The raw demand (R54, R56) -/

section RawDemand

variable {x : Station} {ax : AxisId} {book : Option BookTarget} {t : Nat}

theorem AxisId.of_eq (ax : AxisId) (p : Int × Int) : AxisId.of ax p = if ax = .az then p.1 else p.2 := by
  cases ax <;> rfl

theorem BookTarget.demand_fixed (p : Point) (ax : AxisId) (t : Nat) :
    (BookTarget.fixed p).demand ax t = if ax = .az then p.az else p.el := by
  cases ax <;> rfl

theorem BookTarget.demand_between (p q : Point) (ax : AxisId) (t : Nat) :
    (BookTarget.between p q).demand ax t = interpolate p.time (if ax = .az then p.az else p.el)
      q.time (if ax = .az then q.az else q.el) t := by
  cases ax <;> rfl

theorem Station.demandOf_holding {h : Int} (hs : (x.axis ax).state = .holding)
    (hh : (x.axis ax).hold = some h) : x.demandOf ax book t = h := by
  unfold Station.demandOf
  dsimp only
  rw [if_pos hs, hh]
  rfl

theorem Station.demandOf_target (hs : (x.axis ax).state ≠ .holding) :
    x.demandOf ax book t = match x.target.source with
      | .none => (x.axis ax).c
      | .book => (book.map (fun b => b.demand ax t)).getD (x.axis ax).c
      | .stow => (x.target.stow.map (AxisId.of ax)).getD (x.axis ax).c
      | .sweep => (x.hold.map (fun h => AxisId.of ax (h.az, h.el))).getD (x.axis ax).c
      | .shed => (x.target.shed.map (AxisId.of ax)).getD (x.axis ax).c := by
  unfold Station.demandOf
  dsimp only
  rw [if_neg hs]
  cases x.target.source with
  | none => rfl
  | book => cases book <;> rfl
  | stow => cases x.target.stow <;> rfl
  | sweep => cases x.hold <;> rfl
  | shed => cases x.target.shed <;> rfl

end RawDemand

/-- Settles O21: the interpolation by the rounded quotient, the fixed targets by the source. -/
theorem rawDemandFollowsTheTarget : Obligations.RawDemandFollowsTheTarget := by
  refine ⟨fun tk p tk1 p1 t lt => ?_, fun x ax book t => ⟨fun h => Station.demandOf_holding,
    fun hs => ?_⟩⟩
  · have hd : 0 < tk1 - tk := by omega
    obtain ⟨near, half⟩ := roundDiv_nearest (n := (p1 - p) * (t - tk)) hd
    rw [interpolate_sub]
    refine ⟨near, half, fun h0 h1 => ?_, fun e => ?_, fun h0 h1 h2 h3 =>
      ⟨interpolate_product (d := tk1 - tk) (by omega) (by omega) h2 h3, by decide⟩⟩
    · have := roundDiv_fraction (x := p1 - p) hd (show 0 ≤ t - tk by omega) (by omega)
      omega
    · rw [e, sub_self, mul_zero, roundDiv, Int.sign_zero, zero_mul]
  · have d := Station.demandOf_target (book := book) (t := t) hs
    refine ⟨fun e => ?_, fun p e hp => ?_, fun p e hp => ?_, fun h e hh => ?_, fun p e hb => ?_,
      fun p q e hb => ?_⟩
    · rw [d, e]
    · rw [d, e, hp]
      exact AxisId.of_eq ax p
    · rw [d, e, hp]
      exact AxisId.of_eq ax p
    · rw [d, e, hh]
      exact AxisId.of_eq ax (h.az, h.el)
    · rw [d, e, hb]
      exact BookTarget.demand_fixed p ax t
    · rw [d, e, hb]
      exact BookTarget.demand_between p q ax t

/-! ### The braking step (R58) -/

/-- The root built bit by bit: what is found stays at or below the root, what is left above it. -/
theorem isqrtFrom_root {n : Nat} (k : Nat) {r : Nat} (lo : r * r ≤ n)
    (hi : n < (r + 2 ^ k) * (r + 2 ^ k)) :
    isqrtFrom n k r * isqrtFrom n k r ≤ n ∧ n < (isqrtFrom n k r + 1) * (isqrtFrom n k r + 1) := by
  induction k generalizing r with
  | zero => exact ⟨lo, hi⟩
  | succ k ih =>
    unfold isqrtFrom
    rw [Nat.pow_succ, Nat.mul_two, ← Nat.add_assoc] at hi
    split
    · next le => exact ih le hi
    · next gt => exact ih lo (by omega)

/-- The floor integer square root of a 64-bit value (R58). -/
theorem isqrt_root {n : Nat} (h : n < 2 ^ 64) :
    isqrt n * isqrt n ≤ n ∧ n < (isqrt n + 1) * (isqrt n + 1) :=
  isqrtFrom_root 32 (by omega) (by omega)

theorem isqrt_zero : isqrt 0 = 0 := by
  simpa using (isqrt_root (n := 0) (by norm_num)).1

theorem brakingStep_natAbs (a : Nat) (r : Int) :
    (brakingStep a r).natAbs = min r.natAbs (isqrt (2 * a * r.natAbs)) := by
  unfold brakingStep
  rw [Int.natAbs_mul, Int.natAbs_sign, Int.natAbs_natCast]
  split
  · next h => simp [h]
  · simp

theorem brakingStep_nonneg (a : Nat) {r : Int} (h : 0 ≤ r) : 0 ≤ brakingStep a r :=
  Int.mul_nonneg (Int.sign_nonneg_iff.2 h) (by omega)

theorem brakingStep_nonpos (a : Nat) {r : Int} (h : r ≤ 0) : brakingStep a r ≤ 0 :=
  mul_nonpos_of_nonpos_of_nonneg (Int.sign_nonpos_iff.2 h) (by omega)

/-- Settles O22. -/
theorem brakingStepCanStop : Obligations.BrakingStepCanStop := by
  intro cfg d c ha hr r a b u
  have a800 : a ≤ 800 := (Nat.div_le_div_right ha).trans (by norm_num)
  have small : 2 * a * r.natAbs < 2 ^ 64 :=
    lt_of_le_of_lt (Nat.mul_le_mul (Nat.mul_le_mul_left 2 a800) hr.le) (by norm_num)
  have abs : u.natAbs = min r.natAbs b := brakingStep_natAbs a r
  refine ⟨⟨rfl, a800⟩, isqrt_root small, abs, brakingStep_nonneg a, brakingStep_nonpos a,
    fun h => ?_, fun h => ?_⟩
  · have : r.natAbs = 0 := by omega
    omega
  · have b0 : b = 0 := by
      show isqrt (2 * a * r.natAbs) = 0
      rw [h, Nat.mul_zero, Nat.zero_mul]
      exact isqrt_zero
    exact ⟨b0, by omega⟩

/-! ### The limited demand (R57, R158) -/

theorem lowerBound_own {ax : AxisId} {zone : ZoneState} (h : ax = .az ∨ zone ≠ .watch)
    (cfg : AxisConfig) (floor : Int) : lowerBound ax cfg zone floor = cfg.lmin := by
  refine if_neg ?_
  rintro ⟨rfl, rfl⟩
  simp at h

theorem lowerBound_watch {cfg : AxisConfig} (h : cfg.lmin ≤ cfg.lmax) (floor : Int) :
    lowerBound .el cfg .watch floor =
      if cfg.lmax < floor then cfg.lmax else max cfg.lmin floor := by
  refine (if_pos ⟨rfl, rfl⟩).trans ?_
  split <;> omega

theorem lowerBound_le {cfg : AxisConfig} (h : cfg.lmin ≤ cfg.lmax) (ax : AxisId) (zone : ZoneState)
    (floor : Int) : cfg.lmin ≤ lowerBound ax cfg zone floor ∧ lowerBound ax cfg zone floor ≤ cfg.lmax := by
  unfold lowerBound
  split <;> omega

section LimitDemand

variable {cfg : AxisConfig} {f d : Int}

theorem limitDemand_below (h : d < f) : limitDemand cfg f d =
    { demand := f, limited := f == cfg.lmin, windFloor := decide (cfg.lmin < f) } := if_pos h

theorem limitDemand_above (hf : f ≤ d) (h : cfg.lmax < d) : limitDemand cfg f d =
    { demand := cfg.lmax, limited := true, windFloor := false } :=
  (if_neg (by omega)).trans (if_pos h)

theorem limitDemand_within (hf : f ≤ d) (h : d ≤ cfg.lmax) : limitDemand cfg f d =
    { demand := d, limited := false, windFloor := false } :=
  (if_neg (by omega)).trans (if_neg (by omega))

end LimitDemand

/-! ### One expiry of an axis (R59 to R66) -/

theorem boundedStep_eq (cfg : AxisConfig) (level : Level) (r s : Int) :
    boundedStep cfg level r s = max (-(cfg.stepLimit level : Int)) (min (cfg.stepLimit level)
      (max (s - cfg.accel) (min (s + cfg.accel) (brakingStep cfg.accel r)))) := by
  unfold boundedStep
  dsimp only
  rw [clampInt_eq (by omega), clampInt_eq (by omega)]

theorem Axis.compute_releasing {a : Axis} (h : a.state = .releasing) (cfg : AxisConfig) (f : Int)
    (level : Level) (encoder : Option Int) (d : Int) :
    a.compute cfg f level encoder d = { a with
      s := 0, rate := 0, limitedDemand := some (limitDemand cfg f d).demand,
      error := encoder.map (fun e => a.c - e),
      onSource := some (withinWindow cfg (limitDemand cfg f d).demand a.c),
      limited := (limitDemand cfg f d).limited, windFloor := (limitDemand cfg f d).windFloor,
      computed := true } := by
  simp [Axis.compute, h]

theorem Axis.compute_moving {a : Axis} (h : a.state ≠ .releasing) {cfg : AxisConfig}
    (hl : cfg.lmin ≤ cfg.lmax) (f : Int) (level : Level) (encoder : Option Int) (d : Int) :
    let l := limitDemand cfg f d
    let free := a.c + boundedStep cfg level (l.demand - a.c) a.s
    let c := max cfg.lmin (min cfg.lmax free)
    a.compute cfg f level encoder d = { a with
      c := c, s := c - a.c, rate := 50 * (c - a.c), limitedDemand := some l.demand,
      error := encoder.map (fun e => c - e), onSource := some (withinWindow cfg l.demand c),
      limited := l.limited || c != free, windFloor := l.windFloor, computed := true } := by
  have moves : (a.state != .releasing) = true := by simp [h]
  simp [Axis.compute, moves, clampInt_eq hl]

/-- What one expiry leaves of an axis that the computation takes (R65, R66, R72). -/
theorem Station.axis_computeAxis (x : Station) (z : Zone) (book : Option BookTarget) (t : Nat)
    (ax : AxisId) : (x.computeAxis z book t ax).axis ax = if (x.axis ax).state.powered then
        ((x.axis ax).compute (x.cfg.axis ax) (lowerBound ax (x.cfg.axis ax) z.state z.cfg.floor)
          x.claim.grantedLevel (x.link.report.map (fun r => r.encoder ax))
          (x.demandOf ax book t)).countUp
      else (x.axis ax).rest :=
  (Station.axis_modAxis x ax ax _).trans (if_pos rfl)

/-- Settles O23: the limited demand by its three cases, an expiry by whether the axis moves. -/
theorem computedExpiryKeepsTheBounds : Obligations.ComputedExpiryKeepsTheBounds := by
  refine ⟨fun ax cfg zone floor d h => ?_, fun _ => ⟨rfl, rfl⟩, fun x z book t ax => ?_,
    fun a cfg f d level encoder h => ?_⟩
  · obtain ⟨-, fmax⟩ := lowerBound_le h ax zone floor
    refine ⟨fun own => lowerBound_own own cfg floor, ?_, fun lt => ?_, fun lt => ?_,
      fun le ge => ?_⟩
    · rintro rfl rfl
      exact lowerBound_watch h floor
    · rw [limitDemand_below lt]
      simp
    · rw [limitDemand_above (by omega) lt]
      exact ⟨rfl, rfl, rfl⟩
    · rw [limitDemand_within le ge]
      exact ⟨rfl, rfl, rfl⟩
  · dsimp only
    rw [Station.axis_computeAxis]
    by_cases hr : (x.axis ax).state = .releasing
    · rw [if_pos hr, if_pos (by rw [hr]; rfl)]
      exact if_pos hr
    · rw [if_neg hr]
      split
      · exact if_neg hr
      · rfl
  · dsimp only
    by_cases hr : a.state = .releasing
    · rw [Axis.compute_releasing hr]
      simp [hr, withinWindow]
    · rw [Axis.compute_moving hr h, ← boundedStep_eq]
      have lo : -(cfg.stepLimit level : Int) ≤
          boundedStep cfg level ((limitDemand cfg f d).demand - a.c) a.s := by
        rw [boundedStep_eq]; omega
      have hi : boundedStep cfg level ((limitDemand cfg f d).demand - a.c) a.s ≤
          cfg.stepLimit level := by
        rw [boundedStep_eq]; omega
      refine ⟨rfl, rfl, rfl, rfl, rfl, rfl, rfl, rfl, rfl, fun e => absurd e hr, fun _ =>
        ⟨rfl, by simp, fun _ _ => ?_⟩⟩
      dsimp only
      omega

end Sys2Proof.Machine
end

section
/-! PROOFS. The decision of the target source (R49 to R53, R181) through what settling does. `Sourced` says that
one table runs at most, that only such a table holds stations, and that every station shows the source of R49 but
those whose decision is still due; `Decided` says of two states which decisions a change leaves due, and which it
makes. -/

namespace Sys2Proof.Machine

/-! ### What the decision reads -/

/-- What a station brings to the decision of its source stands (R49). -/
structure InputsStand (x y : Station) : Prop where
  zone : y.cfg.zone = x.cfg.zone
  retired : y.retired = x.retired
  tags : y.tags = x.tags
  hold : y.hold = x.hold
  running : (y.bookIn .running).isSome = (x.bookIn .running).isSome
  shed : y.shedOrder = x.shedOrder

/-- What a station brings to the decision stands, and the source and the row that it shows (R48). -/
structure SourceStands (x y : Station) : Prop extends InputsStand x y where
  source : y.target.source = x.target.source
  row : y.target.row = x.target.row

theorem InputsStand.retarget (x : Station) (t : Target) : InputsStand x { x with target := t } :=
  ⟨rfl, rfl, rfl, rfl, rfl, rfl⟩

theorem InputsStand.trans {x y z : Station} (h : InputsStand x y) (k : InputsStand y z) :
    InputsStand x z :=
  ⟨k.zone.trans h.zone, k.retired.trans h.retired, k.tags.trans h.tags, k.hold.trans h.hold,
    k.running.trans h.running, k.shed.trans h.shed⟩

namespace SourceStands

theorem refl (x : Station) : SourceStands x x := ⟨⟨rfl, rfl, rfl, rfl, rfl, rfl⟩, rfl, rfl⟩

theorem trans {x y z : Station} (h : SourceStands x y) (k : SourceStands y z) : SourceStands x z :=
  ⟨h.toInputsStand.trans k.toInputsStand, k.source.trans h.source, k.row.trans h.row⟩

theorem modAxis (x : Station) (ax : AxisId) (f : Axis → Axis) : SourceStands x (x.modAxis ax f) := by
  cases ax <;> exact ⟨⟨rfl, rfl, rfl, rfl, rfl, rfl⟩, rfl, rfl⟩

theorem axes (x : Station) (a b : Axis) : SourceStands x { x with az := a, el := b } :=
  ⟨⟨rfl, rfl, rfl, rfl, rfl, rfl⟩, rfl, rfl⟩

theorem modHeater (x : Station) (area : Area) (f : Heater → Heater) :
    SourceStands x (x.modHeater area f) := by
  cases area <;> exact ⟨⟨rfl, rfl, rfl, rfl, rfl, rfl⟩, rfl, rfl⟩

theorem examine (x : Station) (ax : AxisId) : SourceStands x (x.examine ax) := modAxis x ax _

theorem examineBoth (x : Station) : SourceStands x x.examineBoth :=
  (examine x .az).trans (examine _ .el)

theorem answerSource (x : Station) (src : Source) (row : Nat) :
    SourceStands x (x.answerSource src row) := by
  unfold Station.answerSource
  dsimp only
  split
  · exact axes x _ _
  · exact (axes x _ _).trans (examineBoth _)

theorem answerConfigured (x : Station) (src : Source) (row : Nat) :
    SourceStands x (x.answerConfigured src row) := by
  unfold Station.answerConfigured
  dsimp only
  split
  · exact axes x _ _
  · exact (axes x _ _).trans (examineBoth _)

end SourceStands

/-- A change of a station's books alone. -/
structure BooksOnly (x y : Station) : Prop where
  zone : y.cfg.zone = x.cfg.zone
  retired : y.retired = x.retired
  tags : y.tags = x.tags
  hold : y.hold = x.hold
  target : y.target = x.target
  shed : y.shedOrder = x.shedOrder

theorem Station.modBook_only (x : Station) (l : Letter) (f : Book → Book) :
    BooksOnly x (x.modBook l f) := by
  cases l <;> exact ⟨rfl, rfl, rfl, rfl, rfl, rfl⟩

theorem BooksOnly.trans {x y z : Station} (h : BooksOnly x y) (k : BooksOnly y z) : BooksOnly x z :=
  ⟨k.zone.trans h.zone, k.retired.trans h.retired, k.tags.trans h.tags, k.hold.trans h.hold,
    k.target.trans h.target, k.shed.trans h.shed⟩

theorem Station.starting_only (l : Letter) (now : Nat) (x : Station) :
    BooksOnly x (x.starting l now) := by
  have idle : BooksOnly x x.idleRunning := by
    unfold Station.idleRunning
    split
    · exact ⟨rfl, rfl, rfl, rfl, rfl, rfl⟩
    · exact x.modBook_only _ _
  have run := idle.trans (Station.modBook_only _ l Book.run)
  exact ⟨run.zone, run.retired, run.tags, run.hold, run.target, run.shed⟩

theorem Station.motionBlocked_iff (x : Station) : x.motionBlocked = true ↔
    ∃ t ∈ x.tags, t.scope = .motion ∨ t.scope = .both := by
  simp [Station.motionBlocked]

theorem Station.serviceHeld_iff (x : Station) : x.serviceHeld = true ↔
    ∃ t ∈ x.tags, t.scope = .service := by
  simp [Station.serviceHeld]

theorem State.sweepHeld_iff (s : State) (st : StationId) : s.sweepHeld st = true ↔
    ∃ h, (s.station st).hold = some h ∧ (s.table h.table).state.runs = true := by
  unfold State.sweepHeld
  cases (s.station st).hold with
  | none => simp
  | some h => simp

theorem Station.bookIn_running (x : Station) : (x.bookIn .running).isSome = true ↔
    x.bookA.state = .running ∨ x.bookB.state = .running := by
  unfold Station.bookIn
  split
  · next h => simp [h]
  · next h =>
    split
    · next h' => simp [h']
    · next h' => simp [h, h']

/-- The source is decided from the station, the state of its zone and that of the table which holds it. -/
theorem State.sourceOf_congr {s t : State} {st : StationId}
    (h : InputsStand (s.station st) (t.station st))
    (hz : (t.zone (s.station st).cfg.zone).state.stows = (s.zone (s.station st).cfg.zone).state.stows)
    (ht : ∀ g, (s.station st).hold = some g →
      (t.table g.table).state.runs = (s.table g.table).state.runs) :
    t.sourceOf st = s.sourceOf st := by
  have swept : t.sweepHeld st = s.sweepHeld st := by
    unfold State.sweepHeld
    rw [h.hold]
    cases e : (s.station st).hold with
    | none => rfl
    | some g => exact ht g e
  unfold State.sourceOf Station.motionBlocked Station.serviceHeld
  dsimp only
  rw [h.zone, h.retired, h.tags, h.running, h.shed, swept, hz]

/-- A station that is not retired shows the source and the row of R49. -/
def State.agrees (s : State) (st : StationId) : Prop :=
  (s.station st).retired = false →
    ((s.station st).target.source, (s.station st).target.row) = s.sourceOf st

theorem State.agrees_congr {s t : State} {st : StationId}
    (h : SourceStands (s.station st) (t.station st))
    (hz : (t.zone (s.station st).cfg.zone).state.stows = (s.zone (s.station st).cfg.zone).state.stows)
    (ht : ∀ g, (s.station st).hold = some g →
      (t.table g.table).state.runs = (s.table g.table).state.runs) (a : s.agrees st) :
    t.agrees st := by
  intro r
  rw [h.retired] at r
  rw [h.source, h.row, State.sourceOf_congr h.toInputsStand hz ht]
  exact a r

theorem State.station_modStation_other {s : State} {st x : StationId} (e : x ≠ st)
    (f : Station → Station) : (s.modStation st f).station x = s.station x := by
  rw [State.station_modStation, if_neg (Ne.symm e)]

/-- A change of one station leaves the decisions of the others. -/
theorem State.agrees_modStation {s : State} {st x : StationId} (e : x ≠ st) (f : Station → Station)
    (a : s.agrees x) : (s.modStation st f).agrees x :=
  State.agrees_congr (s := s) (by rw [State.station_modStation_other e]; exact .refl _) rfl
    (fun _ _ => rfl) a

/-! ### The law with decisions due -/

/-- One table runs at most; only such a table, or one of `C` whose holds are being released, holds a station; and
every station shows the source of R49, but for those of `P`, whose decision is due, and for those that a table
of `C` holds. -/
structure Sourced (C : Set TableId) (P : Set StationId) (s : State) : Prop where
  one : ∀ x y : TableId, x ≠ y → (s.table x).state.runs = true → (s.table y).state.runs = false
  held : ∀ st g, (s.station st).hold = some g → (s.table g.table).state.runs = true ∨ g.table ∈ C
  agrees : ∀ st, st ∉ P → (∀ g, (s.station st).hold = some g → g.table ∉ C) → s.agrees st

/-- A change that finds the decisions of `P` due leaves those of `Q` due, and keeps the member sets (R145). -/
structure Decided (P Q : Set StationId) (s t : State) : Prop where
  sourced : ∀ {C}, Sourced C P s → Sourced C Q t
  members : ∀ {C}, Sourced C P s → Law.members s → Law.members t

theorem Law.source_iff (s : State) : Law.source s ↔ Law.members s ∧ Sourced ∅ ∅ s := by
  refine and_congr_right fun _ => ⟨?_, ?_⟩
  · rintro ⟨⟨one, held⟩, agrees⟩
    exact ⟨one, fun st g e => .inl (held st g e), fun st _ _ => agrees st⟩
  · rintro ⟨one, held, agrees⟩
    exact ⟨⟨one, fun st g e => (held st g e).resolve_right (Set.notMem_empty _)⟩, fun st =>
      agrees st (Set.notMem_empty _) fun _ _ => Set.notMem_empty _⟩

theorem Law.members_congr {s t : State} (hs : ∀ st, (t.station st).cfg.zone = (s.station st).cfg.zone ∧
    (t.station st).retired = (s.station st).retired) (hz : ∀ z, (t.zone z).members = (s.zone z).members)
    (h : Law.members s) : Law.members t := by
  intro st z
  rw [hz, (hs st).1, (hs st).2]
  exact h st z

theorem Kept.members {E : TableId → Prop} {Q : Prop} {s t : State} (h : Kept E Q s t) :
    Law.members s → Law.members t :=
  Law.members_congr (fun st => ⟨congrArg StationConfig.zone (h.station st).cfg, (h.station st).retired⟩)
    fun z => (h.zone z).members

theorem Sourced.mono {C : Set TableId} {P Q : Set StationId} {s : State} (h : Sourced C P s)
    (hPQ : P ⊆ Q) : Sourced C Q s :=
  ⟨h.one, h.held, fun st hQ => h.agrees st fun hP => hQ (hPQ hP)⟩

/-- A change of nothing that the decision reads or that shows it. -/
theorem Sourced.same {C : Set TableId} {P : Set StationId} {s t : State} (d : Sourced C P s)
    (hs : ∀ st, SourceStands (s.station st) (t.station st))
    (hz : ∀ z, (t.zone z).state.stows = (s.zone z).state.stows)
    (ht : ∀ x, (t.table x).state.runs = (s.table x).state.runs) : Sourced C P t := by
  refine ⟨fun x y => ?_, fun st g e => ?_, fun st hP hC => ?_⟩
  · rw [ht, ht]
    exact d.one x y
  · rw [ht]
    exact d.held st g ((hs st).hold.symm.trans e)
  · exact State.agrees_congr (hs st) (hz _) (fun _ _ => ht _)
      (d.agrees st hP fun g e => hC g ((hs st).hold.trans e))

/-- A change of one station leaves its decision due. -/
theorem Sourced.change {C : Set TableId} {P : Set StationId} {s : State} (d : Sourced C P s)
    {st : StationId} {f : Station → Station} (hh : ∀ g, (f (s.station st)).hold = some g →
      (s.station st).hold = some g ∨ (s.table g.table).state.runs = true) :
    Sourced C (insert st P) (s.modStation st f) := by
  refine ⟨d.one, fun x g e => ?_, fun x hx hC => ?_⟩
  · rw [State.station_modStation] at e
    split at e
    · exact (hh g e).elim (d.held st g) .inl
    · exact d.held x g e
  · rw [Set.mem_insert_iff, not_or] at hx
    rw [State.station_modStation_other hx.1] at hC
    exact State.agrees_modStation hx.1 f (d.agrees x hx.2 hC)

variable {P Q R : Set StationId} {k : Settle}

namespace Decided

/-! ### The relation and the named updates -/

theorem refl (s : State) : Decided P P s s := ⟨id, fun _ => id⟩

theorem after {s t u : State} (k : Decided Q R t u) (h : Decided P Q s t) : Decided P R s u :=
  ⟨fun d => k.sourced (h.sourced d), fun d m => k.members (h.sourced d) (h.members d m)⟩

theorem ite {c : Prop} [Decidable c] {s t u : State} (h : Decided P Q s t) (k : Decided P Q s u) :
    Decided P Q s (if c then t else u) := by
  split
  · exact h
  · exact k

/-- Decisions that are due besides are left due. -/
theorem weaken {P' Q' : Set StationId} {s t : State} (h : Decided P Q s t) (hP : P' ⊆ P)
    (hQ : Q ⊆ Q') : Decided P' Q' s t :=
  ⟨fun d => (h.sourced (d.mono hP)).mono hQ, fun d => h.members (d.mono hP)⟩

/-- What the law says of the first state is at hand. -/
theorem given {s t : State} (h : ∀ {C}, Sourced C P s → Decided P Q s t) : Decided P Q s t :=
  ⟨fun d => (h d).sourced d, fun d => (h d).members d⟩

/-- A change of nothing that the decision reads or that shows it. -/
theorem same {s t : State} (hs : ∀ st, SourceStands (s.station st) (t.station st))
    (hz : ∀ z, (t.zone z).state.stows = (s.zone z).state.stows ∧ (t.zone z).members = (s.zone z).members)
    (ht : ∀ x, (t.table x).state.runs = (s.table x).state.runs) : Decided P P s t :=
  ⟨fun d => d.same hs (fun z => (hz z).1) ht, fun _ =>
    Law.members_congr (fun st => ⟨(hs st).zone, (hs st).retired⟩) fun z => (hz z).2⟩

/-- A change of no station, zone or table. -/
theorem of_eq {s t : State} (hs : t.stations = s.stations) (hz : t.zones = s.zones)
    (ht : t.tables = s.tables) : Decided P P s t :=
  same (fun st => State.station_congr hs st ▸ .refl _)
    (fun z => by rw [State.zone_congr hz]; exact ⟨rfl, rfl⟩)
    fun x => by rw [State.table_congr ht]

theorem modStation {st : StationId} {f : Station → Station} {s : State}
    (h : SourceStands (s.station st) (f (s.station st))) : Decided P P s (s.modStation st f) := by
  refine same (fun x => ?_) (fun _ => ⟨rfl, rfl⟩) fun _ => rfl
  rw [State.station_modStation]
  split
  · next e => exact e ▸ h
  · exact .refl _

theorem modZone {z : ZoneId} {f : Zone → Zone} {s : State}
    (hs : (f (s.zone z)).state.stows = (s.zone z).state.stows)
    (hm : (f (s.zone z)).members = (s.zone z).members) : Decided P P s (s.modZone z f) := by
  refine same (fun _ => .refl _) (fun y => ?_) fun _ => rfl
  rw [State.zone_modZone]
  split
  · next e => exact e ▸ ⟨hs, hm⟩
  · exact ⟨rfl, rfl⟩

theorem modTable {x : TableId} {f : SweepTable → SweepTable} {s : State}
    (h : (f (s.table x)).state.runs = (s.table x).state.runs) : Decided P P s (s.modTable x f) := by
  refine same (fun _ => .refl _) (fun _ => ⟨rfl, rfl⟩) fun y => ?_
  rw [State.table_modTable]
  split
  · next e => exact e ▸ h
  · rfl

theorem bump (x : Tally) (s : State) : Decided P P s (s.bump x) := of_eq rfl rfl rfl

theorem modAxis (st : StationId) (ax : AxisId) (f : Axis → Axis) (s : State) :
    Decided P P s (s.modAxis st ax f) := modStation (.modAxis _ ax f)

theorem modHeater (st : StationId) (area : Area) (f : Heater → Heater) (s : State) :
    Decided P P s (s.modHeater st area f) := modStation (.modHeater _ area f)

theorem modProgress (st : StationId) (f : Progress → Progress) (s : State) :
    Decided P P s (s.modProgress st f) := modStation ⟨⟨rfl, rfl, rfl, rfl, rfl, rfl⟩, rfl, rfl⟩

theorem eachOf {α : Type} {f : α → State → State} (l : List α) (h : ∀ a s, Decided P P s (f a s))
    (s : State) : Decided P P s (eachOf l f s) := by
  induction l generalizing s with
  | nil => exact .refl s
  | cons a l ih => exact (ih _).after (h a s)

/-- The decisions that are due among the stations of a list made in turn. -/
theorem eachOf_due {M : Set StationId} {f : StationId → State → State}
    (h : ∀ (P : Set StationId) st s, Decided ({x | x = st ∧ x ∈ M} ∪ P) P s (f st s))
    (l : List StationId) (s : State) :
    Decided ({x | x ∈ l ∧ x ∈ M} ∪ P) P s (Machine.eachOf l f s) := by
  induction l generalizing s with
  | nil => exact (refl s).weaken (by simp) subset_rfl
  | cons a l ih =>
    refine (ih _).after ((h _ a s).weaken ?_ subset_rfl)
    intro x
    simp only [Set.mem_union, Set.mem_ofPred_eq, List.mem_cons]
    tauto

/-- The decisions of a list of stations made in turn. -/
theorem eachOf_decides {f : StationId → State → State}
    (h : ∀ (P : Set StationId) st s, Decided (insert st P) P s (f st s)) (l : List StationId)
    (s : State) : Decided ({st | st ∈ l} ∪ P) P s (Machine.eachOf l f s) :=
  (eachOf_due (M := Set.univ) (fun P st s => (h P st s).weaken (by intro x; simp) subset_rfl) l
    s).weaken (by simp) subset_rfl

/-- A change of what one station brings to its decision leaves that decision due. -/
theorem change {st : StationId} {f : Station → Station} {s : State}
    (hz : (f (s.station st)).cfg.zone = (s.station st).cfg.zone)
    (hr : (f (s.station st)).retired = (s.station st).retired)
    (hh : ∀ g, (f (s.station st)).hold = some g →
      (s.station st).hold = some g ∨ (s.table g.table).state.runs = true) :
    Decided P (insert st P) s (s.modStation st f) := by
  refine ⟨fun d => d.change hh, fun _ => Law.members_congr (fun x => ?_) fun _ => rfl⟩
  rw [State.station_modStation]
  split
  · next e => exact e ▸ ⟨hz, hr⟩
  · exact ⟨rfl, rfl⟩

/-- A record of one station that shows what R49 says of it makes its decision. -/
theorem install {st : StationId} {f : Station → Station} {s : State}
    (h : InputsStand (s.station st) (f (s.station st)))
    (hs : (f (s.station st)).target.source = (s.sourceOf st).1)
    (hr : (f (s.station st)).target.row = (s.sourceOf st).2) :
    Decided (insert st P) P s (s.modStation st f) := by
  have own : (s.modStation st f).station st = f (s.station st) := by
    rw [State.station_modStation, if_pos rfl]
  have hold (x : StationId) : ((s.modStation st f).station x).hold = (s.station x).hold := by
    by_cases e : x = st
    · rw [e, own, h.hold]
    · rw [State.station_modStation_other e]
  refine ⟨fun d => ⟨d.one, fun x g e => d.held x g ((hold x).symm.trans e), fun x hx hC => ?_⟩,
    fun _ => Law.members_congr (fun x => ?_) fun _ => rfl⟩
  · by_cases e : x = st
    · subst e
      intro _
      rw [State.sourceOf_congr (s := s) (t := s.modStation x f) (by rw [own]; exact h) rfl
        fun _ _ => rfl, own, hs, hr]
    · rw [hold] at hC
      exact State.agrees_modStation e f (d.agrees x (by simp [e, hx]) hC)
  · by_cases e : x = st
    · rw [e, own]
      exact ⟨h.zone, h.retired⟩
    · rw [State.station_modStation_other e]
      exact ⟨rfl, rfl⟩

end Decided

/-- A settling that makes every decision which it makes due, where `Kept` and `Unswept` say what else it does. -/
structure Settle.Sound (k : Settle) : Prop where
  settled : ∀ s, Settled s (k s)
  unswept : ∀ s, Unswept s (k s)
  decided : ∀ (P : Set StationId) s, Decided P P s (k s)

namespace Decided

section

variable (hk : k.Sound)
include hk

/-! ### Claims, sources and shed orders (R49, R50, R78, R181) -/

theorem settle_leave (w : Work) (s : State) : Decided P P s (k (s.leave w)) :=
  (hk.decided _ _).after (of_eq rfl rfl rfl)

theorem formClaim (st : StationId) (s : State) : Decided P P s (s.formClaim k st) := by
  have formed : Decided P P s (s.modStation st Station.reform) :=
    modStation ⟨⟨rfl, rfl, rfl, rfl, rfl, rfl⟩, rfl, rfl⟩
  unfold State.formClaim
  exact .ite formed ((settle_leave hk _ _).after formed)

/-- What follows from a change of a station's axes. -/
theorem axesSettled (st : StationId) (f : Station → Station) (s : State) :
    Decided P P (s.modStation st f) (s.changeAxes k st f) := by
  unfold State.changeAxes
  exact .ite ((settle_leave hk _ _).after (formClaim hk st _)) (formClaim hk st _)

theorem changeAxes {st : StationId} {f : Station → Station} {s : State}
    (h : SourceStands (s.station st) (f (s.station st))) :
    Decided P P s (s.changeAxes k st f) :=
  (axesSettled hk st f s).after (modStation h)

omit hk in
/-- A station whose record agrees needs no decision (R50). -/
theorem standing {st : StationId} {s : State} (h : s.agrees st) : Decided (insert st P) P s s := by
  refine ⟨fun d => ⟨d.one, d.held, fun x hx hC => ?_⟩, fun _ => id⟩
  by_cases e : x = st
  · exact e ▸ h
  · exact d.agrees x (by simp [e, hx]) hC

omit hk in
theorem agrees_of_same {st : StationId} {s : State} (h : (s.station st).retired = true ∨
    (s.station st).target.source = (s.sourceOf st).1 ∧
      (s.station st).target.row = (s.sourceOf st).2) : s.agrees st := by
  intro r
  rcases h with h | ⟨hs, hr⟩
  · rw [h] at r
    cases r
  · rw [hs, hr]

/-- The decision of a station's source (R50). -/
theorem decides (st : StationId) (s : State) :
    Decided (insert st P) P s (s.decideSource k st) := by
  unfold State.decideSource
  dsimp only
  split
  · next c => exact standing (agrees_of_same c)
  · have answers := SourceStands.answerSource
      { s.station st with target := (s.station st).retarget (s.sourceOf st).1 (s.sourceOf st).2 }
      (s.sourceOf st).1 (s.sourceOf st).2
    exact (axesSettled hk st _ s).after (install
      ((InputsStand.retarget _ _).trans answers.toInputsStand) answers.source answers.row)

theorem decideSource (st : StationId) (s : State) : Decided P P s (s.decideSource k st) :=
  (decides hk st s).weaken (Set.subset_insert ..) subset_rfl

/-- The decision of a station's source at the take of a CONFIGURE_STATION (R84). -/
theorem redecides (st : StationId) (s : State) :
    Decided (insert st P) P s (s.redecideSource k st) := by
  unfold State.redecideSource
  dsimp only
  split
  · next c => exact standing (agrees_of_same c)
  · have answers := SourceStands.answerConfigured
      { s.station st with target := (s.station st).retarget (s.sourceOf st).1 (s.sourceOf st).2 }
      (s.sourceOf st).1 (s.sourceOf st).2
    exact (axesSettled hk st _ s).after (install
      ((InputsStand.retarget _ _).trans answers.toInputsStand) answers.source answers.row)

theorem judgeShed (st : StationId) (s : State) : Decided P P s (s.judgeShed k st) := by
  unfold State.judgeShed
  exact .ite (.refl s) (.ite (.after (decides hk st _) (change rfl rfl fun _ => .inl))
    (.after (decides hk st _) (change rfl rfl fun _ => .inl)))

/-- The decision that a change of a book or a hold calls for (R42, R116). -/
theorem inputDecides (st : StationId) (s : State) :
    Decided (insert st P) P s (s.inputChanged k st) :=
  (judgeShed hk st _).after (decides hk st s)

/-! ### Heater zones -/

theorem changeHeater (st : StationId) (area : Area) (f : Heater → Heater) (s : State) :
    Decided P P s (s.changeHeater k st area f) := by
  unfold State.changeHeater
  dsimp only
  generalize hu : (s.modHeater st area f).modStation st _ = u
  have h : Decided P P s u := hu ▸ .after (modStation ⟨⟨rfl, rfl, rfl, rfl, rfl, rfl⟩, rfl, rfl⟩)
    (modHeater ..)
  have claims (b c : Bool) (cls : Option HeatClass) : Decided P P u
      (if b then k (u.leave (.heatWithdraw st area))
        else match cls with
          | some cls => if c then k (u.leave (.heat st area cls.watts)) else u
          | none => u) := by
    refine .ite (settle_leave hk _ u) ?_
    split
    · exact .ite (settle_leave hk _ u) (.refl u)
    · exact .refl u
  exact .ite (.after (judgeShed hk st _) (.after (claims ..) h)) (.after (claims ..) h)

theorem heatGrant (st : StationId) (area : Area) (watts : Nat) (s : State) :
    Decided P P s (s.heatGrant k st area watts) := by
  unfold State.heatGrant
  split
  · exact .ite (.refl s) (changeHeater hk ..)
  · exact .ite (.refl s) (changeHeater hk ..)
  · exact .ite (changeHeater hk ..) (.refl s)
  · exact .ite (changeHeater hk ..) (.refl s)
  all_goals exact .ite (.refl s) (settle_leave hk _ s)

/-! ### Books and holds (R38, R43, R116) -/

omit hk in
/-- The start of a book leaves its station's decision due. -/
theorem startBook (st : StationId) (l : Letter) (s : State) :
    Decided P (insert st P) s (s.startBook st l) := by
  have only := (s.station st).starting_only l s.time.time
  rw [State.startBook_eq]
  exact .after (bump ..) (change only.zone only.retired fun _ e => .inl (only.hold.symm.trans e))

omit hk in
/-- A change of a book that does not run and is not set running. -/
theorem modBook {st : StationId} {l : Letter} {f : Book → Book} {s : State}
    (h : ((s.station st).book l).state ≠ .running)
    (hf : (f ((s.station st).book l)).state ≠ .running) : Decided P P s (s.modBook st l f) := by
  have running : (((s.station st).modBook l f).bookIn .running).isSome =
      ((s.station st).bookIn .running).isSome := by
    rw [Bool.eq_iff_iff, Station.bookIn_running, Station.bookIn_running]
    cases l
    · exact or_congr_left (iff_of_false hf h)
    · exact or_congr_right (iff_of_false hf h)
  refine modStation ⟨⟨?_, ?_, ?_, ?_, running, ?_⟩, ?_, ?_⟩ <;> cases l <;> rfl

theorem engage (st : StationId) (l : Letter) (s : State) :
    Decided P P s (s.engage k st l).1 := by
  unfold State.engage
  split
  · exact .after (inputDecides hk st _) (startBook st l s)
  · exact .refl s
  · exact .refl s
  · exact .refl s
  · next e =>
    split
    · exact .refl s
    · exact .after (inputDecides hk st _) (.after (startBook st l _)
        (modBook (by rw [e]; decide) (by rw [e]; decide)))

/-- A hold set for a table that runs, or cleared. -/
theorem setHold {s : State} {h : Option SweepHold}
    (hr : ∀ g, h = some g → (s.table g.table).state.runs = true) (st : StationId) :
    Decided P P s (s.setHold k st h) := by
  unfold State.setHold
  exact .after (inputDecides hk st _) (change rfl rfl fun g e => .inr (hr g e))

theorem clearHold (st : StationId) (s : State) : Decided P P s (s.clearHold k st) := by
  unfold State.clearHold
  exact .ite (.refl s) (setHold hk (by rintro g ⟨⟩) st)

end

end Decided

end Sys2Proof.Machine
end

section
/-! PROOFS. The decision of the target source through sweeps, wind zones, faults and grants, and through settling
itself (R100, R111 to R122, R151 to R155). -/

namespace Sys2Proof.Machine

variable {P Q R : Set StationId} {k : Settle}

/-! ### The release of a table's holds (R121, R122) -/

theorem SweepsStand.noneRuns {s t : State} (h : SweepsStand s t) (n : s.noneRuns) : t.noneRuns :=
  fun x => by rw [h.table]; exact n x

/-- One hold of a table released, if it stands. -/
def State.releaseHold (k : Settle) (x : TableId) (st : StationId) (s : State) : State :=
  if (s.station st).hold.any (fun h => h.table == x) then s.setHold k st none else s

theorem State.releaseHolds_eq (x : TableId) (s : State) :
    s.releaseHolds k x = eachOf allStations (State.releaseHold k x) s := rfl

/-- Where no table runs, the release of one hold sets none. -/
theorem State.releaseHold_stands (hk : ∀ s, Unswept s (k s)) {x : TableId} {s : State}
    (n : s.noneRuns) (st : StationId) : (s.releaseHold k x st).noneRuns ∧
      ((s.releaseHold k x st).station st).hold.any (fun h => h.table == x) = false ∧
      ∀ y, (s.station y).hold.any (fun h => h.table == x) = false →
        ((s.releaseHold k x st).station y).hold.any (fun h => h.table == x) = false := by
  unfold State.releaseHold
  split
  · have stands := (Unswept.inputChanged hk st
      (s.modStation st (fun x => { x with hold := none }))).stands n
    have held (y : StationId) : ((s.setHold k st none).station y).hold =
        if st = y then none else (s.station y).hold := by
      refine (stands.hold y).trans ?_
      rw [State.station_modStation]
      split
      · rfl
      · rfl
    refine ⟨stands.noneRuns n, ?_, fun y e => ?_⟩
    · rw [held, if_pos rfl]
      rfl
    · rw [held]
      split
      · rfl
      · exact e
  · next c => exact ⟨n, by simpa using c, fun _ e => e⟩

/-- Where no table runs, the release of a table leaves none of its holds, and starts no table. -/
theorem State.releaseTable_stands (hk : ∀ s, Unswept s (k s)) (x : TableId) {s : State}
    (n : s.noneRuns) : (s.releaseTable k x).noneRuns ∧ ∀ st,
      ((s.releaseTable k x).station st).hold.any (fun h => h.table == x) = false := by
  have go (l : List StationId) (s : State) (n : s.noneRuns) :
      (eachOf l (State.releaseHold k x) s).noneRuns ∧
      ∀ st, st ∈ l ∨ (s.station st).hold.any (fun h => h.table == x) = false →
        ((eachOf l (State.releaseHold k x) s).station st).hold.any (fun h => h.table == x) = false := by
    induction l generalizing s with
    | nil => exact ⟨n, fun st h => h.resolve_left List.not_mem_nil⟩
    | cons a l ih =>
      obtain ⟨n', own, others⟩ := State.releaseHold_stands hk (x := x) n a
      obtain ⟨n'', held⟩ := ih _ n'
      refine ⟨n'', fun st h => held st ?_⟩
      rw [List.mem_cons] at h
      rcases h with (rfl | h) | h
      · exact .inr own
      · exact .inl h
      · exact .inr (others st h)
  obtain ⟨n', held⟩ := go allStations s n
  rw [State.releaseTable_eq, State.releaseHolds_eq]
  generalize eachOf allStations (State.releaseHold k x) s = u at *
  obtain ⟨v, hv⟩ := State.stopTimers_eq x u
  refine ⟨fun y => ?_, fun st => ?_⟩
  · rw [hv]
    exact n' y
  · rw [State.station_stopTimers]
    exact held st (.inl (List.mem_finRange st))

theorem State.noneRuns_modTable {s : State} {x : TableId} {f : SweepTable → SweepTable}
    (n : ∀ y, y ≠ x → (s.table y).state.runs = false) (hf : (f (s.table x)).state.runs = false) :
    (s.modTable x f).noneRuns := by
  intro y
  rw [State.table_modTable]
  split
  · exact hf
  · next e => exact n y (Ne.symm e)

/-- Beside a table that does not run stands the other. -/
theorem State.noneRuns_of_both {s : State} {x : TableId} (hx : (s.table x).state.runs = false)
    (ho : (s.table (TableId.other x)).state.runs = false) : s.noneRuns := by
  intro y
  have : ∀ x y : TableId, y = x ∨ y = TableId.other x := by decide
  rcases this x y with rfl | rfl
  · exact hx
  · exact ho

/-! ### A table that ends, and one that starts (R111, R112, R121) -/

namespace Sourced

variable {C : Set TableId} {s : State} {x : TableId}

/-- A table that ends, its holds not yet released. -/
theorem ending (d : Sourced C P s) {f : SweepTable → SweepTable}
    (hf : (f (s.table x)).state.runs = false) : Sourced (insert x C) P (s.modTable x f) := by
  have other {y : TableId} (e : y ≠ x) : (s.modTable x f).table y = s.table y := by
    rw [State.table_modTable, if_neg (Ne.symm e)]
  have own : ((s.modTable x f).table x).state.runs = false := by
    rw [State.table_modTable, if_pos rfl]
    exact hf
  refine ⟨fun y z e r => ?_, fun st g h => ?_, fun st hP hC => ?_⟩
  · by_cases ez : z = x
    · rw [ez]
      exact own
    · have ey : y ≠ x := by
        rintro rfl
        rw [own] at r
        cases r
      rw [other ez]
      exact d.one y z e (by rwa [other ey] at r)
  · by_cases e : g.table = x
    · exact .inr (.inl e)
    · rw [other e]
      exact (d.held st g h).imp_right .inr
  · refine State.agrees_congr (s := s) (.refl _) rfl (fun g h => ?_)
      (d.agrees st hP fun g h hg => hC g h (.inr hg))
    rw [other fun e => hC g h (.inl e)]

/-- A table whose holds have been released. -/
theorem released (d : Sourced (insert x C) P s)
    (h : ∀ st, (s.station st).hold.any (fun h => h.table == x) = false) : Sourced C P s := by
  have ne {st : StationId} {g : SweepHold} (e : (s.station st).hold = some g) : g.table ≠ x := by
    have := h st
    rw [e] at this
    simpa using this
  refine ⟨d.one, fun st g e => (d.held st g e).imp_right fun m => m.resolve_left (ne e),
    fun st hP hC => d.agrees st hP fun g e m => hC g e (m.resolve_left (ne e))⟩

/-- Where no table runs, the start of one changes no source. -/
theorem starting (d : Sourced C P s) (n : s.noneRuns) (x : TableId) (f : SweepTable → SweepTable) :
    Sourced C P (s.modTable x f) := by
  have closing {st : StationId} {g : SweepHold} (e : (s.station st).hold = some g) : g.table ∈ C :=
    (d.held st g e).resolve_left (by rw [n]; decide)
  refine ⟨fun y z e r => ?_, fun st g e => .inr (closing e), fun st hP hC =>
    State.agrees_congr (s := s) (.refl _) rfl (fun g e => absurd (closing e) (hC g e))
      (d.agrees st hP hC)⟩
  rw [State.table_modTable] at r ⊢
  split at r
  · next ey => rw [if_neg (ey ▸ e), n]
  · rw [n] at r
    cases r

end Sourced

theorem State.noneRuns_closeTable (hk : ∀ s, Unswept s (k s)) {s : State} {x : TableId}
    (n : ∀ y, y ≠ x → (s.table y).state.runs = false) {to_ : TableState} (h : to_.runs = false)
    (kind : EndKind) : (s.closeTable k x to_ kind).noneRuns := by
  unfold State.closeTable
  dsimp only
  generalize hu : s.modTable x _ = u
  have nu : u.noneRuns := hu ▸ State.noneRuns_modTable n h
  have nv := (State.releaseTable_stands hk x nu).1
  generalize u.releaseTable k x = v at *
  intro y
  rw [State.table_bump]
  exact State.noneRuns_modTable (fun y _ => nv y) (nv x) y

/-- The issue of a table's entries: the table stays RUNNING (R111), and the decisions are made. -/
structure Issuing (P : Set StationId) (x : TableId) (s t : State) : Prop where
  issues : (s.table x).state = .running → (t.table x).state = .running ∧ Decided P P s t

namespace Issuing

variable {x : TableId}

theorem after {s t u : State} (k : Issuing P x t u) (h : Issuing P x s t) : Issuing P x s u := by
  refine ⟨fun r => ?_⟩
  obtain ⟨rt, ht⟩ := h.issues r
  obtain ⟨ru, hu⟩ := k.issues rt
  exact ⟨ru, hu.after ht⟩

theorem ite {c : Prop} [Decidable c] {s t u : State} (h : Issuing P x s t) (k : Issuing P x s u) :
    Issuing P x s (if c then t else u) := by
  split
  · exact h
  · exact k

theorem eachOf {α : Type} {f : α → State → State} (l : List α) (h : ∀ a s, Issuing P x s (f a s))
    (s : State) : Issuing P x s (eachOf l f s) := by
  induction l generalizing s with
  | nil => exact ⟨fun r => ⟨r, .refl s⟩⟩
  | cons a l ih => exact (ih _).after (h a s)

theorem modProgress (st : StationId) (f : Progress → Progress) (s : State) :
    Issuing P x s (s.modProgress st f) := ⟨fun r => ⟨r, .modProgress st f s⟩⟩

/-- A change of the table that leaves its state. -/
theorem modTable {f : SweepTable → SweepTable} {s : State}
    (h : (f (s.table x)).state = (s.table x).state) : Issuing P x s (s.modTable x f) := by
  refine ⟨fun r => ⟨?_, .modTable (by rw [h])⟩⟩
  rw [State.table_modTable, if_pos rfl, h, r]

/-- What settles while the table is in use. -/
theorem of_kept {s t : State} (h : Busy (fun _ => False) True s → Settled s t)
    (d : (s.table x).state = .running → Decided P P s t) : Issuing P x s t :=
  ⟨fun r => ⟨((h (.of_use (x := x) (by rw [r]; rfl))).table x).running id r, d r⟩⟩

theorem skip (st : StationId) (r : SweepReason) (s : State) : Issuing P x s (s.skip st x r) :=
  (modTable (s := s.modProgress st _) (f := fun t => { t with skips := t.skips + 1 }) rfl).after
    (modProgress ..)

theorem issued (st : StationId) (e : SweepEntry) (r : RecordState) (s : State) :
    Issuing P x s (s.issued st x e r) :=
  (modTable (s := s.modProgress st _) (f := fun t => { t with issues := t.issues + 1 }) rfl).after
    (modProgress ..)

section

variable (hk : k.Sound)
include hk

theorem setHold (st : StationId) (az el : Int) (s : State) :
    Issuing P x s (s.setHold k st (some { table := x, az := az, el := el })) :=
  of_kept (fun b => .setHold hk.settled b st _) fun r =>
    .setHold hk (by rintro g ⟨⟩; rw [r]; rfl) st

theorem clearHold (st : StationId) (s : State) : Issuing P x s (s.clearHold k st) :=
  of_kept (fun b => .clearHold hk.settled b st) fun _ => .clearHold hk st s

theorem engage (st : StationId) (l : Letter) (s : State) : Issuing P x s (s.engage k st l).1 :=
  of_kept (fun b => .engage hk.settled b st l) fun _ => .engage hk st l s

/-- An entry issued to one station (R115 to R117). -/
theorem issueTo (n : Nat) (e : SweepEntry) (st : StationId) (s : State) :
    Issuing P x s (s.issueTo k x n e st) := by
  unfold State.issueTo
  dsimp only
  generalize hu : s.modProgress st _ = u
  have recorded : Issuing P x s u := hu ▸ modProgress ..
  split
  · exact .after (skip ..) recorded
  · split
    · exact .after (setHold hk ..) (.after (issued ..) recorded)
    · exact .after (setHold hk ..) (.after (issued ..) recorded)
    · exact .after (clearHold hk ..) (.after (issued ..) recorded)
    · exact .ite (.after (engage hk ..) (.after (issued ..) recorded)) (.after (skip ..) recorded)
    · exact .ite (.after (engage hk ..) (.after (issued ..) recorded)) (.after (skip ..) recorded)

end

end Issuing

namespace Decided

section

variable (hk : k.Sound)
include hk

/-! ### Sweeps (R112 to R122) -/

theorem releaseTable (x : TableId) (s : State) : Decided P P s (s.releaseTable k x) := by
  unfold State.releaseTable
  refine .after (eachOf _ (fun st s => modProgress st _ s) _) (eachOf _ (fun st s => ?_) s)
  exact .ite (setHold hk (by rintro g ⟨⟩) st) (.refl s)

/-- The end of a table: the stations that it held are decided as they are released. -/
theorem closeTable (x : TableId) {to_ : TableState} (h : to_.runs = false) (kind : EndKind)
    (s : State) : Decided P P s (s.closeTable k x to_ kind) := by
  have released : Decided P P s ((s.modTable x (fun t => { t with
      state := to_, strobe := none, startDue := false })).releaseTable k x) := by
    have release (u : State) := releaseTable (P := P) hk x u
    cases r : (s.table x).state.runs with
    | false => exact (release _).after (modTable (h.trans r.symm))
    | true =>
      refine ⟨fun d => ((release _).sourced (d.ending h)).released ?_, fun d m =>
        (release _).members (d.ending h) (Law.members_congr (fun _ => ⟨rfl, rfl⟩) (fun _ => rfl) m)⟩
      exact (State.releaseTable_stands hk.unswept x
        (State.noneRuns_modTable (fun y e => d.one x y (Ne.symm e) r) h)).2
  unfold State.closeTable
  dsimp only
  generalize State.releaseTable k x _ = v at *
  exact .after (bump ..) (.after (modTable rfl) released)

theorem issueFrom {x : TableId} (l : List SweepEntry) (n : Nat) {s : State}
    (r : (s.table x).state = .running) : Decided P P s (s.issueFrom k x l n) := by
  induction l generalizing n s with
  | nil => exact modTable (by rw [r]; rfl)
  | cons e l ih =>
    have issues : Issuing P x s
        ((s.issueEntry k x n e).modTable x (fun t => { t with next := n + 1 })) :=
      .after (.modTable rfl) (.eachOf _ (.issueTo hk n e) s)
    obtain ⟨r', d⟩ := issues.issues r
    simp only [State.issueFrom]
    exact .ite ((ih (n + 1) r').after d) (.refl s)

theorem judgeIssue (x : TableId) (s : State) : Decided P P s (s.judgeIssue k x) := by
  unfold State.judgeIssue
  dsimp only
  split
  · next r => exact issueFrom hk _ _ r
  · exact .refl s

theorem beginTable {s : State} (n : s.noneRuns) (x : TableId) (late : Bool) :
    Decided P P s (s.beginTable k x late) := by
  unfold State.beginTable
  refine .after (judgeIssue hk x _) (.after (eachOf _ (fun st s => modProgress st _ s) _)
    ⟨fun d => d.starting n x _, fun _ => Law.members_congr (fun _ => ⟨rfl, rfl⟩) fun _ => rfl⟩)

theorem judgeEnd (fuel : Nat) (x : TableId) (s : State) :
    Decided P P s (s.judgeEnd k fuel x) := by
  induction fuel generalizing x s with
  | zero => exact .refl s
  | succ fuel ih =>
    simp only [State.judgeEnd]
    split
    · next h =>
      refine .given fun d => ?_
      have closed := closeTable (P := P) hk x (to_ := .done) rfl .done s
      have n := State.noneRuns_closeTable hk.unswept (s := s) (x := x) (to_ := .done)
        (fun y e => d.one x y (Ne.symm e) (by rw [h.1]; rfl)) rfl .done
      exact .ite (.after (ih _ _) (.after (beginTable hk n _ true) closed)) closed
    · exact .refl s

theorem startTable {s : State} (n : s.noneRuns) (x : TableId) (late : Bool) :
    Decided P P s (s.startTable k x late) :=
  (judgeEnd hk 2 x _).after (beginTable hk n x late)

theorem abandon (st : StationId) (r : SweepReason) (s : State) :
    Decided P P s (s.abandon k st r) := by
  unfold State.abandon
  dsimp only
  split
  · exact .refl s
  · exact .ite (.after (judgeEnd hk ..) (.after (clearHold hk ..) (.after (modTable rfl)
      (modProgress ..)))) (.refl s)

/-! ### Wind zones (R151 to R155, R161) -/

omit hk in
theorem expose (st : StationId) (r : ExposeReason) (s : State) : Decided P P s (s.expose st r) :=
  .ite (modZone rfl rfl) (.refl s)

omit hk in
theorem exposeBlocked (st : StationId) (s : State) : Decided P P s (s.exposeBlocked st) :=
  .ite (expose ..) (.ite (expose ..) (.refl s))

omit hk in
theorem zoneEvent (z : ZoneId) (left : ZoneState) (s : State) :
    Decided P P s (s.zoneEvent z left) := by
  unfold State.zoneEvent
  exact .after (bump ..) (modZone rfl rfl)

theorem judgeMembers (z : ZoneId) (s : State) : Decided P P s (s.judgeMembers k z) :=
  eachOf _ (judgeShed hk) s

/-- A change of a zone's state that leaves row 2 of R49 to hold or not as before. -/
theorem moveZone {z : ZoneId} {to_ : ZoneState} {f : Zone → Zone} {s : State}
    (hs : (f { s.zone z with state := to_ }).state.stows = (s.zone z).state.stows)
    (hm : (f { s.zone z with state := to_ }).members = (s.zone z).members) :
    Decided P P s (s.moveZone k z to_ f) := by
  unfold State.moveZone
  exact .after (judgeMembers hk ..) (.after (zoneEvent ..) (modZone hs hm))

theorem stowedTest (z : ZoneId) (s : State) : Decided P P s (s.stowedTest k z) := by
  unfold State.stowedTest
  split
  · next h => exact moveZone hk (by rw [h.1]; rfl) rfl
  · exact .refl s

/-- A member treated on the entry into STOWING is decided (R152). -/
theorem stowDecides (st : StationId) (s : State) :
    Decided (insert st P) P s (s.stowMember k st) := by
  unfold State.stowMember
  exact .after (exposeBlocked ..) (.after (formClaim hk ..) (.after (decides hk ..)
    (.after (modStation (.axes _ _ _)) (abandon hk ..))))

theorem stowMember (st : StationId) (s : State) : Decided P P s (s.stowMember k st) :=
  (stowDecides hk st s).weaken (Set.subset_insert ..) subset_rfl

omit hk in
/-- The mark of the zone whose entry is under way. -/
theorem entering (z : Option ZoneId) {s t : State} (h : Decided P Q s t) :
    Decided P Q s { t with entering := z } :=
  (of_eq (s := t) (t := { t with entering := z }) rfl rfl rfl).after h

/-- The entry into STOWING decides every member of the zone (R151). -/
theorem enterDecides (z : ZoneId) (s : State) :
    Decided ({st | st ∈ (s.zone z).members} ∪ P) P (s.modZone z Zone.toStowing)
      (s.enterStowing k z) := by
  have members : (({ s with entering := some z }.modZone z Zone.toStowing).zone z).members =
      (s.zone z).members := by
    rw [State.zone_modZone, if_pos rfl]
    rfl
  have treated := eachOf_decides (P := P) (fun _ => stowDecides hk) (s.zone z).members
    ({ s with entering := some z }.modZone z Zone.toStowing)
  rw [← members] at treated ⊢
  unfold State.enterStowing
  exact .after (stowedTest hk ..) (.entering _ (.after (judgeMembers hk ..)
    (.after (zoneEvent ..) (.after treated (of_eq rfl rfl rfl)))))

/-- The entry into STOWING of a zone whose members follow STOW already. -/
theorem enterStowing {z : ZoneId} {s : State} (h : (s.zone z).state.stows = true) :
    Decided P P s (s.enterStowing k z) :=
  ((enterDecides hk z s).weaken Set.subset_union_right subset_rfl).after (modZone h.symm rfl)

theorem testZone (z : ZoneId) (s : State) : Decided P P s (s.testZone k z) := by
  unfold State.testZone
  split
  · next h => exact enterStowing hk (by rw [h.1]; rfl)
  · exact stowedTest hk z s

theorem axesChanged (st : StationId) (s : State) : Decided P P s (s.axesChanged k st) := by
  unfold State.axesChanged
  exact .after (testZone hk ..) (.ite (modZone rfl rfl) (.refl s))

theorem joinExposed (st : StationId) (r : ExposeReason) (s : State) :
    Decided P P s (s.joinExposed k st r) := by
  unfold State.joinExposed
  exact .ite (.after (testZone hk ..) (expose ..)) (.refl s)

theorem ableToMove (st : StationId) (s : State) : Decided P P s (s.ableToMove k st) := by
  have leaves (able : Bool) : Decided P P s (if able then
      (s.modZone (s.station st).cfg.zone (fun x => x.leave st)).axesChanged k st
      else s.axesChanged k st) :=
    .ite (.after (axesChanged hk ..) (modZone rfl rfl)) (axesChanged hk ..)
  unfold State.ableToMove
  dsimp only
  split
  · exact leaves _
  · exact leaves _
  · exact axesChanged hk ..
  · exact axesChanged hk ..

/-! ### Faults and grants (R71, R74, R79) -/

theorem afterFault (st : StationId) (s : State) : Decided P P s (s.afterFault k st) := by
  unfold State.afterFault
  exact .after (joinExposed hk ..) (.after (abandon hk ..) (.after (bump ..) (formClaim hk ..)))

theorem faultAxis (st : StationId) (ax : AxisId) (r : AxisFault) (s : State) :
    Decided P P s (s.faultAxis k st ax r) :=
  (afterFault hk st _).after (modAxis ..)

theorem releaseAxis (st : StationId) (ax : AxisId) (s : State) :
    Decided P P s (s.releaseAxis k st ax) := by
  unfold State.releaseAxis
  dsimp only
  split
  · exact .ite (modAxis ..) (faultAxis hk ..)
  · exact .refl s

theorem judgeAwaiting (st : StationId) (s : State) : Decided P P s (s.judgeAwaiting k st) := by
  unfold State.judgeAwaiting
  exact .ite (.after (formClaim hk ..) (.after (releaseAxis hk ..) (releaseAxis hk ..))) (.refl s)

omit hk in
theorem answerLevel (st : StationId) (rises : Bool) (s : State) :
    Decided P P s (s.modStation st (Station.answerLevel rises)) := modStation (.axes _ _ _)

theorem driveGrant (st : StationId) (watts : Nat) (s : State) :
    Decided P P s (s.driveGrant k st watts) := by
  have granted : Decided P P s (s.modStation st (Station.takeGrant watts)) :=
    modStation ⟨⟨rfl, rfl, rfl, rfl, rfl, rfl⟩, rfl, rfl⟩
  unfold State.driveGrant
  refine .after ?_ granted
  generalize s.modStation st (Station.takeGrant watts) = u
  refine .ite (.after (formClaim hk ..) (.after (judgeAwaiting hk ..) (answerLevel ..)))
    (.ite (.ite ?_ (.after (formClaim hk ..) (answerLevel ..))) (.refl u))
  exact .after (axesChanged hk ..) (changeAxes hk ((SourceStands.axes _ _ _).trans (.examineBoth _)))

theorem report (c : Claimant) (s : State) : Decided P P s (s.report k c) := by
  cases c with
  | station => exact driveGrant hk ..
  | heater => exact heatGrant hk ..

end

/-! ### Settling (R100) -/

theorem powerChange (w : Work) (s : State) : Decided P P s (s.powerChange w).1 :=
  .after (eachOf (f := fun x s => s.bump x) _ bump _) (of_eq rfl rfl rfl)

theorem later : Settle.Sound Settle.later := ⟨Kept.later, Unswept.later, fun _ => .refl⟩

theorem deliver (w : Work) (s : State) : Decided P P s (State.deliver w s) := by
  cases w with
  | awaiting st => exact judgeAwaiting later st s
  | _ => exact .after (eachOf _ (report later) _) (powerChange _ s)

theorem drain (n : Nat) (s : State) : Decided P P s (State.drain n s) := by
  induction n generalizing s with
  | zero => exact .refl s
  | succ n ih =>
    unfold State.drain
    split
    · exact .refl s
    · exact .after (ih _) (.after (deliver ..) (of_eq rfl rfl rfl))

/-- Settling makes every decision which it makes due (R50, R100). -/
theorem settle : Settle.Sound settle := ⟨Kept.settle, Unswept.settle, fun _ => drain _⟩

end Decided

end Sys2Proof.Machine
end

section
/-! PROOFS. The decision of the target source through what heater zones, books and the drive-interval expiry do
(R25, R30, R36 to R42, R55, R79, R109, R114, R119, R168 to R180). -/

namespace Sys2Proof.Machine

variable {P Q : Set StationId} {k : Settle}

namespace Decided

section

variable (hk : k.Sound)
include hk

/-! ### Heater zones (R166 to R180) -/

theorem judgeClaim (st : StationId) (area : Area) (s : State) :
    Decided P P s (s.judgeClaim k st area) := .ite (changeHeater hk st area _ s) (.refl s)

theorem judgeProbe (st : StationId) (area : Area) (s : State) :
    Decided P P s (s.judgeProbe k st area) := .ite (changeHeater hk st area _ s) (.refl s)

theorem judgeHeat (st : StationId) (area : Area) (s : State) :
    Decided P P s (s.judgeHeat k st area) :=
  .after (judgeClaim hk st area _) (judgeProbe hk st area s)

theorem judgeHeatBoth (st : StationId) (s : State) : Decided P P s (s.judgeHeatBoth k st) :=
  .after (judgeHeat hk st .feed _) (judgeHeat hk st .reflector s)

theorem changeCall (st : StationId) (area : Area) (f : Heater → Heater) (s : State) :
    Decided P P s (s.changeCall k st area f) := by
  unfold State.changeCall
  dsimp only
  exact .ite (modHeater ..) (.ite (.after (judgeHeat hk ..) (modHeater ..))
    (.after (changeHeater hk ..) (modHeater ..)))

theorem faultHeater (st : StationId) (area : Area) (r : HeatFault) (v : Nat) (s : State) :
    Decided P P s (s.faultHeater k st area r v) := by
  unfold State.faultHeater
  exact .after (bump ..) (.after (modStation ⟨⟨rfl, rfl, rfl, rfl, rfl, rfl⟩, rfl, rfl⟩)
    (changeHeater hk ..))

theorem dropHeat (st : StationId) (s : State) : Decided P P s (s.dropHeat k st) :=
  .after (changeHeater hk ..) (changeHeater hk ..)

theorem reportCurrent (st : StationId) (area : Area) (current : Nat) (s : State) :
    Decided P P s (s.reportCurrent k st area current) := by
  unfold State.reportCurrent
  dsimp only
  split
  case h_1 => exact .ite (.after (faultHeater hk ..) (modHeater ..)) (modHeater ..)
  case h_2 =>
    exact .ite (.after (faultHeater hk ..) (modHeater ..)) (.after (modHeater ..) (modHeater ..))
  all_goals exact modHeater ..

theorem probeResult (st : StationId) (area : Area) (resistance : Nat) (s : State) :
    Decided P P s (s.probeResult k st area resistance) := by
  unfold State.probeResult
  dsimp only
  refine .ite ?_ (.refl s)
  split
  case h_1 => exact .after (judgeClaim hk ..) (.after (changeHeater hk ..) (modHeater ..))
  all_goals exact .after (faultHeater hk ..) (modHeater ..)

theorem judgeAuto (st : StationId) (area : Area) (s : State) :
    Decided P P s (s.judgeAuto k st area) := .ite (changeCall hk st area _ s) (.refl s)

theorem heatPassEnd (st : StationId) (s : State) : Decided P P s (s.heatPassEnd k st) := by
  unfold State.heatPassEnd
  exact .after (judgeShed hk ..) (.after (judgeAuto hk ..) (judgeAuto hk ..))

theorem setMode (st : StationId) (area : Area) (mode : HeatMode) (s : State) :
    Decided P P s (s.setMode k st area mode) := by
  unfold State.setMode
  dsimp only
  refine .ite (.refl s) ?_
  split
  · exact changeHeater hk ..
  · exact .after (judgeProbe hk ..) (changeHeater hk ..)
  · exact changeCall hk ..

theorem endStart (st : StationId) (area : Area) (s : State) :
    Decided P P s (s.endStart k st area) := .ite (faultHeater hk ..) (changeHeater hk ..)

end

/-! ### Exchange memory and the other blocks -/

theorem answer (p : PageId) (r : Result) (d : List Byte) (s : State) :
    Decided P P s (s.answer p r d) := of_eq rfl rfl rfl

theorem modTime (f : TimeUnit → TimeUnit) (s : State) : Decided P P s (s.modTime f) :=
  of_eq rfl rfl rfl

/-! ### The validation of a book (R33 to R36) -/

theorem endValidation (st : StationId) (s : State) : Decided P P s (s.endValidation st) :=
  modStation ⟨⟨rfl, rfl, rfl, rfl, rfl, rfl⟩, rfl, rfl⟩

theorem bookEvent (st : StationId) (kind : BookEventKind) (l : Letter) (s : State) :
    Decided P P s (s.bookEvent st kind l) :=
  .after (bump ..) (modStation ⟨⟨rfl, rfl, rfl, rfl, rfl, rfl⟩, rfl, rfl⟩)

theorem supersede (st : StationId) (l : Letter) (s : State) :
    Decided P P s (s.supersede st l) := by
  unfold State.supersede
  split
  · next h => exact .after (bookEvent ..) (modBook (by rw [h]; decide) BookState.noConfusion)
  · exact .refl s

theorem acceptBook (st : StationId) (l : Letter) (a : Armed) (page : PageId) (s : State) :
    Decided P P s (s.acceptBook st l a page) := by
  by_cases busy : ((s.station st).book l).state = .running
  · rw [State.acceptBook_busy busy]
    exact .after (answer ..) (endValidation ..)
  · unfold State.acceptBook
    rw [if_neg busy]
    refine .ite (.after (answer ..) (endValidation ..)) (.after (answer ..)
      (.after (endValidation ..) (.after (modBook ?_ BookState.noConfusion) (supersede st l s))))
    have other : l.other ≠ l := by cases l <;> decide
    unfold State.supersede State.bookEvent State.modBook
    split
    · rw [State.station_bump, State.station_modStation, if_pos rfl, State.station_modStation,
        if_pos rfl]
      have stands : ((s.station st).modBook l.other (fun b => { b with state := .idle })).book l =
          (s.station st).book l := by rw [Station.book_modBook, if_neg other]
      cases l <;> exact stands ▸ busy
    · exact busy

theorem rejectBook (st : StationId) (place : Place) (r : BookReason) (page : PageId) (s : State) :
    Decided P P s (s.rejectBook st place r page) := .after (answer ..) (endValidation ..)

theorem validateGroup (st : StationId) (v : Validation) (page : PageId) (s : State) :
    Decided P P s (s.validateGroup st v page) := by
  unfold State.validateGroup
  dsimp only
  split
  · exact rejectBook ..
  · split
    · exact rejectBook ..
    · exact .ite (modStation ⟨⟨rfl, rfl, rfl, rfl, rfl, rfl⟩, rfl, rfl⟩) (acceptBook ..)

theorem validate (s : State) : Decided P P s s.validate := by
  unfold State.validate
  split
  · split
    · exact .ite (validateGroup ..) (.refl s)
    · exact .refl s
  · exact .refl s
  · exact .refl s

end Decided

/-! ### TE's books at an expiry (R38 to R42) -/

/-- What a book's start at an expiry, and its reading, leave of a station: the shed order falls with a change
of which book runs alone (R181). -/
structure BooksTurn (x y : Station) : Prop where
  zone : y.cfg.zone = x.cfg.zone
  retired : y.retired = x.retired
  tags : y.tags = x.tags
  hold : y.hold = x.hold
  target : y.target = x.target
  shed : x.runsSame y = true → y.shedOrder = x.shedOrder

theorem BooksOnly.turn {x y : Station} (h : BooksOnly x y) : BooksTurn x y :=
  ⟨h.zone, h.retired, h.tags, h.hold, h.target, fun _ => h.shed⟩

theorem BooksOnly.refl (x : Station) : BooksOnly x x := ⟨rfl, rfl, rfl, rfl, rfl, rfl⟩

theorem Station.bookIn_runsSame {x y : Station} (h : x.runsSame y = true) :
    (y.bookIn .running).isSome = (x.bookIn .running).isSome := by
  rw [Station.runsSame_iff] at h
  rw [Bool.eq_iff_iff, Station.bookIn_running, Station.bookIn_running]
  exact or_congr (h .a).symm (h .b).symm

/-- Two turns in which no book enters or leaves RUNNING. -/
theorem BooksTurn.stands {x y z : Station} (h : BooksTurn x y) (k : BooksTurn y z)
    (hr : x.runsSame y = true) (kr : y.runsSame z = true) : SourceStands x z where
  zone := k.zone.trans h.zone
  retired := k.retired.trans h.retired
  tags := k.tags.trans h.tags
  hold := k.hold.trans h.hold
  running := (Station.bookIn_runsSame kr).trans (Station.bookIn_runsSame hr)
  shed := (k.shed kr).trans (h.shed hr)
  source := by rw [k.target, h.target]
  row := by rw [k.target, h.target]

/-- One station's turn: no other station, no zone and no table changes. -/
structure Turn (R : Station → Station → Prop) (st : StationId) (s t : State) : Prop where
  own : R (s.station st) (t.station st)
  others : ∀ x, x ≠ st → t.station x = s.station x
  zones : t.zones = s.zones
  tables : t.tables = s.tables

namespace Turn

variable {R S : Station → Station → Prop} {st : StationId} {s t u : State}

theorem mono (h : Turn R st s t) (hRS : ∀ x y, R x y → S x y) : Turn S st s t :=
  { h with own := hRS _ _ h.own }

theorem refl (hR : ∀ x, R x x) (st : StationId) (s : State) : Turn R st s s :=
  ⟨hR _, fun _ _ => rfl, rfl, rfl⟩

theorem after (hR : ∀ x y z, R x y → R y z → R x z) (k : Turn R st t u) (h : Turn R st s t) :
    Turn R st s u :=
  ⟨hR _ _ _ h.own k.own, fun x e => (k.others x e).trans (h.others x e), k.zones.trans h.zones,
    k.tables.trans h.tables⟩

theorem modStation {f : Station → Station} (h : R (s.station st) (f (s.station st))) :
    Turn R st s (s.modStation st f) := by
  refine ⟨?_, fun x e => State.station_modStation_other e f, rfl, rfl⟩
  rw [State.station_modStation, if_pos rfl]
  exact h

theorem bump (y : Tally) (h : Turn R st s t) : Turn R st s (t.bump y) :=
  ⟨h.own, h.others, h.zones, h.tables⟩

/-- The turns of the stations of a list that names each once. -/
theorem eachOf {f : StationId → State → State} (h : ∀ st s, Turn R st s (f st s))
    {l : List StationId} (hl : l.Nodup) (s : State) :
    (Machine.eachOf l f s).zones = s.zones ∧ (Machine.eachOf l f s).tables = s.tables ∧
    (∀ st ∈ l, R (s.station st) ((Machine.eachOf l f s).station st)) ∧
    ∀ st, st ∉ l → (Machine.eachOf l f s).station st = s.station st := by
  induction l generalizing s with
  | nil => exact ⟨rfl, rfl, nofun, fun _ _ => rfl⟩
  | cons a l ih =>
    obtain ⟨ha, hl⟩ := List.nodup_cons.1 hl
    obtain ⟨zones, tables, own, others⟩ := ih hl (f a s)
    have turn := h a s
    refine ⟨zones.trans turn.zones, tables.trans turn.tables, fun st m => ?_, fun st m => ?_⟩
    · rw [eachOf_cons]
      by_cases e : st = a
      · rw [e, others a ha]
        exact turn.own
      · rw [← turn.others st e]
        exact own st ((List.mem_cons.1 m).resolve_left e)
    · rw [List.mem_cons, not_or] at m
      exact (others st m.2).trans (turn.others st m.1)

/-! ### The turns of a station's books -/

theorem modBook (st : StationId) (l : Letter) (f : Book → Book) (s : State) :
    Turn BooksOnly st s (s.modBook st l f) := modStation (Station.modBook_only _ l f)

theorem bookEvent (kind : BookEventKind) (l : Letter) (h : Turn BooksOnly st s t) :
    Turn BooksOnly st s (t.bookEvent st kind l) :=
  after (fun _ _ _ => BooksOnly.trans) (bump _ (modStation ⟨rfl, rfl, rfl, rfl, rfl, rfl⟩)) h

theorem startDueBook (st : StationId) (s : State) : Turn BooksOnly st s (s.startDueBook st) := by
  have still := refl BooksOnly.refl st s
  unfold State.startDueBook
  dsimp only
  split
  · exact still
  · next l _ =>
    split
    · exact still
    · split
      · rw [State.startBook_eq]
        exact bump _ (modStation (Station.starting_only l _ _))
      · exact still

theorem startAtExpiry (st : StationId) (s : State) : Turn BooksTurn st s (s.startAtExpiry st) := by
  have due := startDueBook st s
  unfold State.startAtExpiry
  dsimp only
  split
  · exact refl (fun x => (BooksOnly.refl x).turn) st s
  · generalize s.startDueBook st = t at *
    split
    · exact due.mono fun _ _ => BooksOnly.turn
    · next moved =>
      simp only [Bool.or_eq_true, not_or, Bool.not_eq_true] at moved
      refine ⟨?_, fun x e => (State.station_modStation_other e _).trans (due.others x e),
        due.zones, due.tables⟩
      have own := due.own
      rw [State.station_modStation, if_pos rfl]
      refine ⟨own.zone, own.retired, own.tags, own.hold, own.target, fun same => ?_⟩
      have stands : (s.station st).runsSame (t.station st) = true := same
      rw [moved.1] at stands
      cases stands

theorem faultBook (st : StationId) (l : Letter) (i : Nat) (r : BookReason) (s : State) :
    Turn BooksOnly st s (s.faultBook st l i r) := bookEvent _ _ (modBook ..)

theorem readArmed (st : StationId) (l : Letter) (a : Armed) (cursor : Nat × Nat) (s : State) :
    Turn BooksOnly st s (s.readArmed st l a cursor).1 := by
  unfold State.readArmed
  dsimp only
  split
  · exact bookEvent _ _ (modBook ..)
  · split
    · split
      · exact faultBook ..
      · exact modBook ..
    · split
      · exact faultBook ..
      · split
        · exact faultBook ..
        · exact modBook ..

theorem readAtExpiry (st : StationId) (s : State) : Turn BooksOnly st s (s.readAtExpiry st) := by
  have still := refl BooksOnly.refl st s
  unfold State.readAtExpiry
  split
  · exact still
  · unfold State.readBook
    dsimp only
    split
    · exact still
    · split
      · exact readArmed ..
      · exact readArmed ..
      · exact still

end Turn

/-- What the book phase leaves of every station (R38 to R42). -/
theorem State.bookPhase_turns (s : State) : s.bookPhase.read.zones = s.zones ∧
    s.bookPhase.read.tables = s.tables ∧ ∀ st,
      BooksTurn (s.station st) (s.bookPhase.started.station st) ∧
      BooksTurn (s.bookPhase.started.station st) (s.bookPhase.read.station st) := by
  have started : s.bookPhase.started = eachOf allStations State.startAtExpiry s := by
    rw [State.bookPhase]
  rw [State.bookPhase_read, started]
  have once : allStations.Nodup := List.nodup_finRange 16
  have every := mem_allStations
  clear started
  generalize allStations = l at *
  obtain ⟨zones, tables, starts, -⟩ := Turn.eachOf Turn.startAtExpiry once s
  obtain ⟨zones', tables', reads, -⟩ := Turn.eachOf Turn.readAtExpiry once
    (eachOf l State.startAtExpiry s)
  exact ⟨zones'.trans zones, tables'.trans tables, fun st =>
    ⟨starts st (every st), (reads st (every st)).turn⟩⟩

theorem SourceStands.send (x : Station) : SourceStands x x.send := by
  cases h : x.retired
  · have named : SourceStands x x.named := by
      unfold Station.named
      split
      · exact refl x
      · exact modHeater ..
    rw [Station.send_eq h]
    exact named.trans ⟨⟨rfl, rfl, rfl, rfl, rfl, rfl⟩, rfl, rfl⟩
  · rw [Station.send_retired h]
    exact refl x

namespace Decided

/-- A change of stations that leaves the decisions of `M` due. -/
theorem stations {M : Set StationId} {s t : State} (hz : t.zones = s.zones)
    (ht : t.tables = s.tables) (hs : ∀ st, (t.station st).cfg.zone = (s.station st).cfg.zone ∧
      (t.station st).retired = (s.station st).retired ∧ (t.station st).hold = (s.station st).hold)
    (hm : ∀ st, st ∉ M → SourceStands (s.station st) (t.station st)) :
    Decided P (M ∪ P) s t := by
  have tables (x : TableId) : t.table x = s.table x := State.table_congr ht x
  have zones (z : ZoneId) : t.zone z = s.zone z := State.zone_congr hz z
  refine ⟨fun d => ⟨fun x y => ?_, fun st g e => ?_, fun st hst hC => ?_⟩, fun _ =>
    Law.members_congr (fun st => ⟨(hs st).1, (hs st).2.1⟩) fun z => by rw [zones]⟩
  · rw [tables, tables]
    exact d.one x y
  · rw [tables]
    exact d.held st g ((hs st).2.2.symm.trans e)
  · rw [Set.mem_union, not_or] at hst
    exact State.agrees_congr (hm st hst.1) (by rw [zones]) (fun g _ => by rw [tables])
      (d.agrees st hst.2 fun g e => hC g ((hs st).2.2.trans e))

/-- The stations whose books have moved are due their decision (R42). -/
theorem bookPhase (s : State) :
    Decided P ({st | s.bookPhase.moved st = true} ∪ P) s s.bookPhase.read := by
  obtain ⟨zones, tables, turns⟩ := s.bookPhase_turns
  refine stations zones tables (fun st => ?_) fun st m => ?_
  · obtain ⟨start, read⟩ := turns st
    exact ⟨read.zone.trans start.zone, read.retired.trans start.retired, read.hold.trans start.hold⟩
  · obtain ⟨start, read⟩ := turns st
    have same : ((s.station st).runsSame (s.bookPhase.started.station st) &&
        (s.bookPhase.started.station st).runsSame (s.bookPhase.read.station st)) = true :=
      Bool.not_eq_false' .. ▸ Bool.not_eq_true _ ▸ m
    rw [Bool.and_eq_true] at same
    exact start.stands read same.1 same.2

section

variable (hk : k.Sound)
include hk

/-! ### TE's axes, JS's tables and the links at an expiry -/

theorem monitorAxis (st : StationId) (ax : AxisId) (s : State) :
    Decided P P s (s.monitorAxis k st ax) :=
  .ite (.ite (faultAxis hk ..) (modAxis ..)) (.refl s)

theorem countRelease (st : StationId) (ax : AxisId) (s : State) :
    Decided P P s (s.countRelease k st ax) :=
  .ite (.ite (modAxis ..) (.ite (.refl s) (faultAxis hk ..))) (.refl s)

theorem afterAxes (st : StationId) (before : Station) (s : State) :
    Decided P P s (s.afterAxes k st before) := by
  unfold State.afterAxes
  exact .after (axesChanged hk ..) (.after (.ite (settle_leave hk ..) (.refl _)) (formClaim hk ..))

/-- TE's work for one station makes its decision, where its books have moved. -/
theorem driveStation (b : BookPhase) (st : StationId) (s : State) :
    Decided ({x | x = st ∧ x ∈ {y | b.moved y = true}} ∪ P) P s (s.driveStation k b st) := by
  have due : {x | x = st ∧ x ∈ {y | b.moved y = true}} ∪ P ⊆ insert st P :=
    Set.union_subset_union_left P fun _ h => h.1
  have axes (u : State) (f : Station → Station) (hf : SourceStands (u.station st) (f (u.station st))) :
      Decided P P u (u.modStation st f) := modStation hf
  unfold State.driveStation
  split
  · next r => exact (standing (agrees_of_same (.inl r))).weaken due subset_rfl
  · dsimp only
    generalize hu : (if b.moved st = true then _ else _) = u
    have decided : Decided ({x | x = st ∧ x ∈ {y | b.moved y = true}} ∪ P) P s u := by
      rw [← hu]
      split
      · exact (inputDecides hk st s).weaken due subset_rfl
      · next m =>
        refine (refl s).weaken (Set.union_subset ?_ subset_rfl) subset_rfl
        rintro x ⟨rfl, h⟩
        exact absurd h m
    refine .after (afterAxes hk ..) (.after (axes _ _ (.axes _ _ _)) (.after (countRelease hk ..)
      (.after (countRelease hk ..) (.after (monitorAxis hk ..) (.after (monitorAxis hk ..)
        (.after (axes _ _ ?_) decided))))))
    exact (SourceStands.modAxis _ .az _).trans (.modAxis _ .el _)

theorem judgeRecord (x : TableId) (st : StationId) (s : State) :
    Decided P P s (s.judgeRecord k x st) := by
  unfold State.judgeRecord
  dsimp only
  exact .ite (.refl s) (.ite (.after (clearHold hk ..) (.after (modTable rfl) (modProgress ..)))
    (.ite (modProgress ..) (modProgress ..)))

theorem judgeTable (x : TableId) (s : State) : Decided P P s (s.judgeTable k x) :=
  .ite (.after (judgeEnd hk 2 x _) (.after (judgeIssue hk x _) (eachOf _ (judgeRecord hk x) s)))
    (.refl s)

theorem judgeTables (s : State) : Decided P P s (s.judgeTables k) := by
  have first : Decided P P s (if (s.table 0).state.runs = true then s.judgeTable k 0 else s) :=
    .ite (judgeTable hk 0 s) (.refl s)
  exact .ite (.after (judgeTable hk 1 _) first) first

theorem arriveStart (x : TableId) (s : State) : Decided P P s (s.arriveStart k x) := by
  unfold State.arriveStart
  dsimp only
  split
  · next h =>
    split
    · exact modTable rfl
    · next n =>
      exact startTable hk (State.noneRuns_of_both (by rw [h.1]; rfl) (by simpa using n)) x false
  · exact .refl s

theorem arriveAtTime (x : TableId) (s : State) : Decided P P s (s.arriveAtTime k x) := by
  unfold State.arriveAtTime
  split
  · exact .refl s
  · exact .ite (arriveStart hk x s) (.refl s)

theorem pulseTable (x : TableId) (s : State) : Decided P P s (s.pulseTable k x) := by
  unfold State.pulseTable
  split
  · exact .refl s
  · exact .ite (arriveStart hk x s) (.refl s)

theorem strobe (x : TableId) (s : State) : Decided P P s (s.strobe k x) := by
  unfold State.strobe
  exact .ite (.after (arriveStart hk ..) (modTable rfl)) (.refl s)

theorem cancelTable (x : TableId) (late : Bool) (s : State) :
    Decided P P s (s.cancelTable k x late) := by
  refine .given fun d => ?_
  have closed := closeTable (P := P) hk x (to_ := .cancelled) rfl .cancelled s
  unfold State.cancelTable
  dsimp only
  split
  · next c =>
    have n := State.noneRuns_closeTable hk.unswept (s := s) (x := x) (to_ := .cancelled)
      (fun y e => d.one x y (Ne.symm e) c.2.1) rfl .cancelled
    exact .after (startTable hk n _ true) closed
  · exact closed

theorem loseLink (st : StationId) (s : State) : Decided P P s (s.loseLink k st) := by
  unfold State.loseLink
  dsimp only
  exact .after (dropHeat hk ..) (.after (.ite (afterFault hk ..) (.refl _))
    (.after (.ite (afterFault hk ..) (.refl _))
      (.after (modStation ⟨⟨rfl, rfl, rfl, rfl, rfl, rfl⟩, rfl, rfl⟩) (.after (bump ..)
        (modStation ⟨⟨rfl, rfl, rfl, rfl, rfl, rfl⟩, rfl, rfl⟩)))))

theorem closeWindow (st : StationId) (s : State) : Decided P P s (s.closeWindow k st) :=
  .ite (.ite (modStation ⟨⟨rfl, rfl, rfl, rfl, rfl, rfl⟩, rfl, rfl⟩) (loseLink hk st s)) (.refl s)

theorem linkExpiry (s : State) : Decided P P s (s.linkExpiry k) :=
  .after (eachOf _ (fun _ _ => modStation (.send _)) _) (eachOf _ (closeWindow hk) s)

theorem driveExpiry (s : State) : Decided P P s (s.driveExpiry k) := by
  unfold State.driveExpiry
  dsimp only
  have next := modTime (P := P) (fun t => { t with drive := Config.driveInterval }) s
  generalize s.modTime (fun t => { t with drive := Config.driveInterval }) = t at *
  have driven (b : BookPhase) : Decided ({st | b.moved st = true} ∪ P) P b.read
      (Machine.eachOf allStations (State.driveStation k b) b.read) :=
    (eachOf_due (fun _ => driveStation hk b) _ _).weaken
      (Set.union_subset_union_left P fun st m => ⟨mem_allStations st, m⟩) subset_rfl
  have phase := (driven t.bookPhase).after ((bookPhase (P := P) t).after next)
  generalize Machine.eachOf _ _ _ = u at *
  exact .after (modTime ..) (.after (linkExpiry hk _) (.after (arriveAtTime hk ..)
    (.after (arriveAtTime hk ..) (.after (judgeTables hk _) phase))))

end

end Decided

end Sys2Proof.Machine
end

section
/-! PROOFS. The decision of the target source through lockouts, requests, sensing and wind zones, and through
every command (R49 to R53, R83, R84, R145 to R160, R183 to R194). -/

namespace Sys2Proof.Machine

variable {P Q : Set StationId} {k : Settle}

namespace Decided

theorem iteOf {c : Prop} [Decidable c] {s t u : State} (h : c → Decided P Q s t)
    (k : ¬ c → Decided P Q s u) : Decided P Q s (if c then t else u) := by
  split
  · next hc => exact h hc
  · next hc => exact k hc

/-! ### Exchange memory, sensing and array time -/

theorem sensingEvent (kind : SensingKind) (n : Nat) (s : State) :
    Decided P P s (s.sensingEvent kind n) := of_eq rfl rfl rfl

theorem modStage (n : Nat) (f : Stage → Stage) (s : State) : Decided P P s (s.modStage n f) :=
  of_eq rfl rfl rfl

theorem modSensing (f : Sensing → Sensing) (s : State) : Decided P P s (s.modSensing f) :=
  of_eq rfl rfl rfl

theorem modExchange (f : Exchange → Exchange) (s : State) : Decided P P s (s.modExchange f) :=
  of_eq rfl rfl rfl

theorem takeValue (n : Nat) (x : Int) (s : State) : Decided P P s (s.takeValue n x) := by
  unfold State.takeValue
  dsimp only
  split
  · exact modStage ..
  · exact .ite (.ite (.after (modStage ..) (modStage ..))
      (.after (sensingEvent ..) (.after (modStage ..) (modStage ..))))
      (.after (modStage ..) (modStage ..))

theorem passWork (s : State) : Decided P P s s.passWork := by
  unfold State.passWork
  dsimp only
  exact .after (eachOf (f := fun (e : SensingEvent) s => s.bump e.kind.tally) _
    (fun _ _ => bump ..) _) (.after (modSensing ..) (modSensing ..))

theorem loadList (s : State) : Decided P P s s.loadList := by
  unfold State.loadList
  split
  · dsimp only
    split
    · exact .after (answer ..) (modSensing ..)
    · exact .after (answer ..) (.after (modSensing ..) (modSensing ..))
  · exact .refl s

theorem countStep (step : Bool) (s : State) : Decided P P s (s.countStep step) :=
  .ite (bump _ s) (.refl s)

theorem setTimeNow (value : Nat) (s : State) : Decided P P s (s.setTimeNow value) :=
  .after (countStep ..) (modTime ..)

theorem pulseTime (s : State) : Decided P P s s.pulseTime := by
  unfold State.pulseTime State.applySet State.snap
  dsimp only
  split
  case h_2 => exact .refl s
  all_goals exact .after (countStep ..) (modTime ..)

theorem hostStore (l : List (BitVec 18 × Byte)) (s : State) : Decided P P s (s.hostStore l) := by
  induction l generalizing s with
  | nil => exact .refl s
  | cons x l ih => exact .after (ih _) (of_eq rfl rfl rfl)

theorem post (v : BitVec 32) (s : State) : Decided P P s (s.post v) :=
  .ite (bump ..) (of_eq rfl rfl rfl)

/-- No source follows from the count of a timer. -/
theorem tick (s : State) : Decided P P s s.tick := by
  refine same (fun st => ?_) (fun z => ?_) fun x => ?_
  · rw [State.station_tick]
    exact ⟨⟨rfl, rfl, rfl, rfl, rfl, rfl⟩, rfl, rfl⟩
  · rw [State.zone_tick]
    exact ⟨rfl, rfl⟩
  · rw [State.table_tick]

theorem millisecond (s : State) : Decided P P s s.millisecond :=
  (of_eq (s := s.tick) (t := s.millisecond) rfl rfl rfl).after (tick s)

/-! ### Panels and fuse words (R191 to R194) -/

theorem lockoutEvent (st : StationId) (kind : LockoutKind) (what : Nat) (party : Party)
    (s : State) : Decided P P s (s.lockoutEvent st kind what party) :=
  .after (bump ..) (modStation ⟨⟨rfl, rfl, rfl, rfl, rfl, rfl⟩, rfl, rfl⟩)

theorem writeFuse (st : StationId) (word : Nat) (party : Party) (s : State) :
    Decided P P s (s.writeFuse st word party) :=
  .after (lockoutEvent ..) (modStation ⟨⟨rfl, rfl, rfl, rfl, rfl, rfl⟩, rfl, rfl⟩)

theorem modPanel (st : StationId) (f : Panel → Panel) (s : State) :
    Decided P P s (s.modStation st (fun x => { x with panel := f x.panel })) :=
  modStation ⟨⟨rfl, rfl, rfl, rfl, rfl, rfl⟩, rfl, rfl⟩

theorem modPanelLine (f : PanelLine → PanelLine) (s : State) : Decided P P s (s.modPanelLine f) :=
  of_eq rfl rfl rfl

theorem acknowledge (st : StationId) (a : Ack) (s : State) : Decided P P s (s.acknowledge st a) :=
  modPanel st (fun p => { p with ack := some a }) s

theorem panelAnswer (code : Nat → Bool) {act : StationId → State → State}
    (h : ∀ st s, Decided P P s (act st s)) (f : Frame) (s : State) :
    Decided P P s (s.panelAnswer code act f) := by
  have heard : Decided P P s s.panelHeard :=
    .after (modPanel _ (fun p => { p with lost := false, unanswered := 0 }) _) (modPanelLine _ s)
  exact .ite (.after (h ..) heard) (.refl s)

theorem confirmRetire (st : StationId) (s : State) : Decided P P s (s.confirmRetire st) :=
  .ite (acknowledge ..) (.after (acknowledge ..) (writeFuse ..))

theorem losePanel (st : StationId) (s : State) : Decided P P s (s.losePanel st) :=
  .after (bump ..) (modPanel st (fun p => { p with lost := true, unanswered := 0 }) s)

theorem judgePanel (st : StationId) (s : State) : Decided P P s (s.judgePanel st) :=
  .ite (.refl s) (.ite (modPanel st (fun p => { p with unanswered := p.unanswered + 1 }) s)
    (losePanel st s))

theorem poll (s : State) : Decided P P s s.poll :=
  .after (modPanel _ (fun p => { p with ack := none }) _) (modPanelLine ..)

section

variable (hk : k.Sound)
include hk

/-! ### Reports (R81, R172 to R175) -/

theorem reportAxis (st : StationId) (r : Report) (ax : AxisId) (s : State) :
    Decided P P s (s.reportAxis k st r ax) := by
  unfold State.reportAxis
  dsimp only
  split
  · exact .after (faultAxis hk ..) (modAxis ..)
  · exact .after (modStation ((SourceStands.modAxis _ ax _).trans (.examine _ ax))) (modAxis ..)

theorem takeReport (st : StationId) (r : Report) (s : State) :
    Decided P P s (s.takeReport k st r) := by
  have link : Decided P P s (s.modStation st (fun x => { x with link := { x.link with
      up := true, answered := true, missed := 0, report := some r } })) :=
    modStation ⟨⟨rfl, rfl, rfl, rfl, rfl, rfl⟩, rfl, rfl⟩
  unfold State.takeReport
  dsimp only
  generalize hu : (if (s.station st).link.up = true then _ else _) = u
  have h : Decided P P s u := hu ▸ .ite link (.after (judgeHeatBoth hk ..) link)
  generalize hv : State.afterAxes k st (u.station st) _ = v
  have h' : Decided P P s v := hv ▸ .after (afterAxes hk ..) (.after (reportAxis hk ..)
    (.after (reportAxis hk ..) h))
  have h'' := (reportCurrent (P := P) hk st .feed r.feedCurrent _).after
    ((reportCurrent hk st .reflector r.reflectorCurrent v).after h')
  split
  · exact h''
  · exact .after (probeResult hk ..) h''

/-! ### Tags (R186, R187, R190) -/

/-- A tag placed leaves the decision due until the fifth effect makes it (R186). -/
theorem placeTag (st : StationId) (t : Tag) (s : State) : Decided P P s (s.placeTag k st t) := by
  have placed : Decided P (insert st P) s
      (s.modStation st (fun x => { x with tags := x.tags ++ [t] })) := change rfl rfl fun _ => .inl
  unfold State.placeTag
  dsimp only
  refine .after (lockoutEvent ..) (.after (decides hk ..)
    (.after (.ite (joinExposed hk ..) (.refl _)) (.after (abandon hk ..)
      (.after (.ite (dropHeat hk ..) (.refl _)) ?_))))
  exact .ite (.after (formClaim hk ..) (.after (modStation (.axes _ _ _)) placed)) placed

theorem placeSite (st : StationId) (s : State) : Decided P P s (s.placeSite k st) :=
  placeTag hk ..

theorem placePending (st : StationId) (s : State) : Decided P P s (s.placePending k st) :=
  .ite (.after (placeSite hk ..) (modStation ⟨⟨rfl, rfl, rfl, rfl, rfl, rfl⟩, rfl, rfl⟩)) (.refl s)

theorem removeTag (st : StationId) (id : Nat) (party : Party) (s : State) :
    Decided P P s (s.removeTag k st id party) := by
  unfold State.removeTag
  dsimp only
  exact .after (lockoutEvent ..) (.after (placePending hk ..)
    (.after (.ite (judgeHeatBoth hk ..) (.refl _)) (.after (ableToMove hk ..)
      (.after (decides hk ..) (change rfl rfl fun _ => .inl)))))

theorem stopStation (st : StationId) (s : State) : Decided P P s (s.stopStation k st) :=
  .ite (.refl s) (.ite (modStation ⟨⟨rfl, rfl, rfl, rfl, rfl, rfl⟩, rfl, rfl⟩) (placeSite hk st s))

theorem clearStation (st : StationId) (s : State) : Decided P P s (s.clearStation k st) := by
  have cleared : Decided P P s (s.modStation st (fun x => { x with sitePending := false })) :=
    modStation ⟨⟨rfl, rfl, rfl, rfl, rfl, rfl⟩, rfl, rfl⟩
  unfold State.clearStation
  exact .ite (.after (removeTag hk ..) cleared) cleared

theorem lock (f : Frame) (st : StationId) (s : State) : Decided P P s (s.lock k f st) := by
  unfold State.lock
  dsimp only
  refine .ite (acknowledge ..) ?_
  split
  · exact acknowledge ..
  · exact .ite (acknowledge ..) (.ite (acknowledge ..) (.after (acknowledge ..) (placeTag hk ..)))

theorem unlock (f : Frame) (st : StationId) (s : State) : Decided P P s (s.unlock k f st) :=
  .ite (acknowledge ..) (.ite (.after (acknowledge ..) (removeTag hk ..)) (acknowledge ..))

/-! ### Axes, budgets and tables at their requests (R83, R87, R122) -/

theorem recover (st : StationId) (ax : AxisId) (s : State) :
    Decided P P s (s.recover k st ax) :=
  .after (ableToMove hk ..) (changeAxes hk ((SourceStands.modAxis _ ax _).trans (.examine _ ax)))

theorem rebudget (f : Power → Power) (s : State) : Decided P P s (s.rebudget k f) := by
  have changed : Decided P P s (s.modPower f) := of_eq rfl rfl rfl
  unfold State.rebudget
  exact .ite changed (.after (settle_leave hk ..) changed)

theorem resetTable (x : TableId) (s : State) : Decided P P s (s.resetTable k x) :=
  .ite (cancelTable hk x false s) (.refl s)

omit hk in
theorem abandonRequest (s : State) : Decided P P s s.abandonRequest := by
  unfold State.abandonRequest
  dsimp only
  refine .after (modExchange ..) ?_
  split
  · exact .refl s
  · exact endValidation ..
  · exact modSensing ..

theorem exchangeReset (s : State) : Decided P P s (s.exchangeReset k) := by
  unfold State.exchangeReset
  dsimp only
  exact .after (resetTable hk 1 _) (.after (resetTable hk 0 _)
    (.after (modExchange ..) (abandonRequest s)))

/-! ### Wind zones without an entry into STOWING (R150, R154) -/

theorem moveByWeather (z : ZoneId) (s : State) : Decided P P s (s.moveByWeather k z) := by
  have moves {from_ to_ : ZoneState} (h : (s.zone z).state = from_) (hs : to_.stows = from_.stows) :
      Decided P P s (s.moveZone k z to_ id) := moveZone hk (h ▸ hs) rfl
  exact iteOf (fun c => moves c.1 rfl) fun _ => iteOf (fun c => moves c.1 rfl) fun _ => .refl s

theorem deadlineOut (z : ZoneId) (s : State) : Decided P P s (s.deadlineOut k z) := by
  unfold State.deadlineOut
  dsimp only
  refine .after (stowedTest hk ..) ?_
  have h := (eachOf ((s.modZone z (fun x => { x with deadline := none })).zone z).members
    (fun st => expose (P := P) st .deadline) _).after
      (modZone (z := z) (f := fun x => { x with deadline := none }) (s := s) rfl rfl)
  exact .ite h (.after (bump ..) (.after (modZone rfl rfl) h))

end

/-! ### The request kinds -/

theorem onStation (page : PageId) (target : BitVec 16) {f : StationId → State → State}
    (h : ∀ st s, Decided P P s (f st s)) (s : State) :
    Decided P P s (s.onStation page target f) := by
  unfold State.onStation
  split
  · exact answer ..
  · exact .ite (answer ..) (h _ s)

theorem onHeater (page : PageId) (target : BitVec 16) {f : StationId → Area → State → State}
    (h : ∀ st area s, Decided P P s (f st area s)) (s : State) :
    Decided P P s (s.onHeater page target f) := by
  unfold State.onHeater
  split
  · exact answer ..
  · exact .ite (answer ..) (h _ _ s)

theorem onTable (page : PageId) (target : BitVec 16) {f : TableId → State → State}
    (h : ∀ x s, Decided P P s (f x s)) (s : State) : Decided P P s (s.onTable page target f) := by
  unfold State.onTable
  split
  · exact answer ..
  · exact h _ s

theorem named {α : Type} (page : PageId) (code : Option α) {f : α → State → State}
    (h : ∀ a s, Decided P P s (f a s)) (s : State) : Decided P P s (s.named page code f) := by
  unfold State.named
  split
  · exact answer ..
  · exact h _ s

theorem takeSetTime (page : PageId) (value : BitVec 48) (mode : BitVec 8) (s : State) :
    Decided P P s (s.takeSetTime page value mode) := by
  refine named page _ (fun m s => ?_) s
  cases m with
  | immediate => exact .after (answer ..) (setTimeNow ..)
  | atPulse => exact .ite (.after (answer ..) (modTime ..)) (answer ..)

theorem takeArmBook (page : PageId) (target : BitVec 16) (letter : BitVec 8) (number : BitVec 16)
    (s : State) : Decided P P s (s.takeArmBook page target letter number) := by
  refine onStation page target (fun st s => named page _ (fun l s => ?_) s) s
  exact .ite (answer ..) (.ite (answer ..)
    (.after (modExchange ..) (modStation ⟨⟨rfl, rfl, rfl, rfl, rfl, rfl⟩, rfl, rfl⟩)))

theorem takeDisarmBook (page : PageId) (target : BitVec 16) (s : State) :
    Decided P P s (s.takeDisarmBook page target) := by
  refine onStation page target (fun st s => ?_) s
  split
  · exact answer ..
  · next l pending =>
    refine .after (answer ..) (modBook ?_ BookState.noConfusion)
    rw [Station.book_pending pending]
    decide

theorem takeConfigureSensing (page : PageId) (count : BitVec 8) (s : State) :
    Decided P P s (s.takeConfigureSensing page count) := of_eq rfl rfl rfl

theorem takeRecalibrate (page : PageId) (s : State) : Decided P P s (s.takeRecalibrate page) :=
  of_eq rfl rfl rfl

/-- A launched table was not running, and waits for its start (R107, R108). -/
theorem takeLaunchSweep (page : PageId) (target : BitVec 16) (source : BitVec 8)
    (start : BitVec 48) (timeout : BitVec 32) (s : State) :
    Decided P P s (s.takeLaunchSweep page target source start timeout) := by
  refine onTable page target (fun x s => named page _ (fun src s => ?_) s) s
  dsimp only
  split
  · exact answer ..
  · next launchable =>
    refine .ite (answer ..) ?_
    split
    · exact answer ..
    · refine .after (answer ..) (modTable ?_)
      revert launchable
      cases (s.table x).state <;> simp [TableState.launchable, TableState.runs,
        SweepTable.launched]

theorem takeRetireStation (page : PageId) (target : BitVec 16) (s : State) :
    Decided P P s (s.takeRetireStation page target) := by
  refine onStation page target (fun st s => ?_) s
  exact .ite (answer ..) (.after (answer ..) (writeFuse ..))

section

variable (hk : k.Sound)
include hk

theorem takeStopBook (page : PageId) (target : BitVec 16) (s : State) :
    Decided P P s (s.takeStopBook k page target) := by
  refine onStation page target (fun st s => ?_) s
  split
  · exact answer ..
  · next l _ =>
    have only := (s.station st).modBook_only l Book.idle
    exact .after (answer ..) (.after (inputDecides hk ..)
      (change only.zone only.retired fun _ e => .inl (only.hold.symm.trans e)))

theorem takeRecoverAxis (page : PageId) (target : BitVec 16) (axis : BitVec 8) (s : State) :
    Decided P P s (s.takeRecoverAxis k page target axis) := by
  refine onStation page target (fun st s => named page _ (fun ax s => ?_) s) s
  exact .ite (answer ..) (.after (answer ..) (recover hk ..))

theorem takeSetBudget (page : PageId) (normal emergency : BitVec 32) (s : State) :
    Decided P P s (s.takeSetBudget k page normal emergency) :=
  .after (answer ..) (rebudget hk ..)

theorem takeCancelSweep (page : PageId) (target : BitVec 16) (s : State) :
    Decided P P s (s.takeCancelSweep k page target) := by
  refine onTable page target (fun x s => ?_) s
  exact .ite (.after (answer ..) (cancelTable hk ..)) (answer ..)

theorem takeSetHeatMode (page : PageId) (target : BitVec 16) (mode : BitVec 8) (s : State) :
    Decided P P s (s.takeSetHeatMode k page target mode) :=
  onHeater page target (fun st area s => named page _ (fun m s =>
    .after (answer ..) (setMode hk st area m s)) s) s

theorem manualDemand (page : PageId) (demand : Bool) (st : StationId) (area : Area) (s : State) :
    Decided P P s (s.manualDemand k page demand st area) :=
  .ite (.after (answer ..) (changeCall hk ..)) (answer ..)

theorem takeHeatOn (page : PageId) (target : BitVec 16) (s : State) :
    Decided P P s (s.takeHeatOn k page target) := onHeater page target (manualDemand hk page true) s

theorem takeHeatOff (page : PageId) (target : BitVec 16) (s : State) :
    Decided P P s (s.takeHeatOff k page target) := onHeater page target (manualDemand hk page false) s

theorem takeProbeHeater (page : PageId) (target : BitVec 16) (s : State) :
    Decided P P s (s.takeProbeHeater k page target) := by
  refine onHeater page target (fun st area s => ?_) s
  exact .ite (.after (answer ..) (changeHeater hk ..)) (answer ..)

theorem takePlaceTag (page : PageId) (target : BitVec 16) (kind scope : BitVec 8)
    (id : BitVec 16) (s : State) :
    Decided P P s (s.takePlaceTag k page target kind scope id) := by
  refine onStation page target (fun st s => named page _ (fun _ s =>
    named page _ (fun _ s => ?_) s) s) s
  exact .ite (answer ..) (.ite (answer ..) (.ite (answer ..)
    (.after (answer ..) (placeTag hk ..))))

theorem takeClearReturn (page : PageId) (target : BitVec 16) (s : State) :
    Decided P P s (s.takeClearReturn k page target) := by
  unfold State.takeClearReturn
  refine .ite (.after (answer ..) (eachOf _ (fun st => removeTag hk st _ _) s))
    (onStation page target (fun st s => ?_) s)
  exact .ite (.after (answer ..) (removeTag hk ..)) (answer ..)

theorem takeClearSite (page : PageId) (target : BitVec 16) (s : State) :
    Decided P P s (s.takeClearSite k page target) := by
  unfold State.takeClearSite
  refine .ite (.ite (answer ..) (.after (answer ..) (eachOf _ (clearStation hk) s)))
    (onStation page target (fun st s => ?_) s)
  exact .ite (answer ..) (.ite (.after (answer ..) (clearStation hk ..)) (answer ..))

end

end Decided

end Sys2Proof.Machine
end

section
/-! PROOFS. The source law through every step (R49, R50): what changes a whole zone's decisions, a station's zone,
or every record at once rests on the member sets (R145), so it is said of the law as a whole. -/

namespace Sys2Proof.Machine

variable {P Q : Set StationId} {k : Settle} {s t : State} {st : StationId}

/-- Where the source law holds of the first state, it holds of the second. -/
structure KeepsSource (s t : State) : Prop where
  source : Law.source s → Law.source t

theorem Decided.keeps (h : Decided ∅ ∅ s t) : KeepsSource s t := by
  refine ⟨fun l => ?_⟩
  rw [Law.source_iff] at l ⊢
  exact ⟨h.members l.2 l.1, h.sourced l.2⟩

/-- A change of one zone leaves the decisions of its members due. -/
theorem Sourced.zoneChanged {C : Set TableId} (d : Sourced C P s) (m : Law.members s) (z : ZoneId)
    (f : Zone → Zone) : Sourced C ({st | st ∈ (s.zone z).members} ∪ P) (s.modZone z f) := by
  refine ⟨d.one, d.held, fun st hst hC => ?_⟩
  rw [Set.mem_union, not_or, Set.mem_ofPred_eq, m st z] at hst
  intro r
  have elsewhere : z ≠ (s.station st).cfg.zone := fun e => hst.1 ⟨r, e.symm⟩
  refine State.agrees_congr (s := s) (t := s.modZone z f) (.refl _) ?_ (fun _ _ => rfl)
    (d.agrees st hst.2 hC) r
  rw [State.zone_modZone, if_neg elsewhere]

theorem Zone.holdAgain_stands (x : Zone) : x.holdAgain.state = x.state ∧
    x.holdAgain.members = x.members := by
  unfold Zone.holdAgain
  split
  · exact ⟨rfl, rfl⟩
  · split
    · exact ⟨rfl, rfl⟩
    · exact ⟨rfl, rfl⟩

namespace KeepsSource

theorem refl (s : State) : KeepsSource s s := ⟨id⟩

theorem after {u : State} (k : KeepsSource t u) (h : KeepsSource s t) : KeepsSource s u :=
  ⟨fun l => k.source (h.source l)⟩

theorem ite {c : Prop} [Decidable c] {u : State} (h : KeepsSource s t) (k : KeepsSource s u) :
    KeepsSource s (if c then t else u) := by
  split
  · exact h
  · exact k

theorem eachOf {α : Type} {f : α → State → State} (l : List α) (h : ∀ a s, KeepsSource s (f a s))
    (s : State) : KeepsSource s (eachOf l f s) := by
  induction l generalizing s with
  | nil => exact .refl s
  | cons a l ih => exact (ih _).after (h a s)

/-- A change of a zone that is followed by the decisions of its members. -/
theorem zoneDecides {z : ZoneId} {f : Zone → Zone} (hm : (f (s.zone z)).members = (s.zone z).members)
    (h : Decided ({st | st ∈ (s.zone z).members} ∪ ∅) ∅ (s.modZone z f) t) : KeepsSource s t := by
  refine ⟨fun l => ?_⟩
  rw [Law.source_iff] at l ⊢
  have due := l.2.zoneChanged l.1 z f
  refine ⟨h.members due (Law.members_congr (s := s) (fun _ => ⟨rfl, rfl⟩) (fun y => ?_) l.1),
    h.sourced due⟩
  rw [State.zone_modZone]
  split
  · next e => rw [hm, e]
  · rfl

/-! ### Wind zones (R149 to R157) -/

section

variable (hk : k.Sound)
include hk

theorem enterStowing (z : ZoneId) (s : State) : KeepsSource s (s.enterStowing k z) :=
  zoneDecides rfl (Decided.enterDecides hk z s)

theorem evaluate (passEnd : Bool) (z : ZoneId) (s : State) :
    KeepsSource s (s.evaluate k passEnd z) := by
  have judged : KeepsSource s (s.modZone z (fun x => { x with causes := x.causesNow s.lines.siteStow })) :=
    Decided.keeps (.modZone rfl rfl)
  have leaves (u : State) (f : Zone → Zone) (hu : (u.zone z).state.stows = true)
      (hs : (f { u.zone z with state := .returnHold }).state = .returnHold)
      (hm : (f { u.zone z with state := .returnHold }).members = (u.zone z).members) :
      KeepsSource u (u.moveZone k z .returnHold f) :=
    Decided.keeps (.moveZone hk (by rw [hs, hu]; rfl) hm)
  unfold State.evaluate
  dsimp only
  generalize s.modZone z (fun x => { x with causes := x.causesNow s.lines.siteStow }) = u at *
  split
  case h_5 | h_8 | h_9 => exact judged
  case h_6 | h_7 => exact .after (Decided.moveByWeather hk z u).keeps judged
  case h_10 e _ | h_11 e _ => exact .after (leaves u _ (by rw [e]; rfl) rfl rfl) judged
  case h_12 =>
    obtain ⟨state, members⟩ := (u.zone z).holdAgain_stands
    exact .ite (.after (Decided.keeps (.modZone (congrArg ZoneState.stows state) members)) judged)
      judged
  all_goals exact .after (enterStowing hk z u) judged

theorem windPassEnd (s : State) : KeepsSource s (s.windPassEnd k) :=
  .after (eachOf _ (evaluate hk true) _)
    (Decided.eachOf _ (fun _ _ => .modZone rfl rfl) s).keeps

/-- The end of a return hold: the zone's members are no longer stowed, and are decided (R157). -/
theorem holdOut (z : ZoneId) (s : State) : KeepsSource s (s.holdOut k z) := by
  unfold State.holdOut
  dsimp only
  generalize hf : (fun x : Zone => { x with
    state := x.returnState, holdTimer := none, exposed := [] }) = f
  have stands (x : Zone) : (f x).members = x.members := by rw [← hf]
  have members : ((s.modZone z f).zone z).members = (s.zone z).members := by
    rw [State.zone_modZone, if_pos rfl, stands]
  rw [members]
  exact zoneDecides (stands _) (.after (.judgeMembers hk ..) (.after (.zoneEvent ..)
    (Decided.eachOf_decides (fun _ => Decided.decides hk) _ _)))

theorem passBoundary (s : State) : KeepsSource s (s.passBoundary k) := by
  unfold State.passBoundary
  dsimp only
  exact .after (Decided.modSensing ..).keeps (.after (Decided.loadList _).keeps
    (.after (Decided.eachOf _ (Decided.heatPassEnd hk) _).keeps
      (.after (windPassEnd hk _) (Decided.passWork s).keeps)))

theorem configureZone (z : ZoneId) (cfg : ZoneConfig) (s : State) :
    KeepsSource s (s.configureZone k z cfg) := by
  unfold State.configureZone State.judgeWeather
  dsimp only
  generalize hu : State.evaluate k false z _ = u
  have h : KeepsSource s u := hu ▸ .after (evaluate hk ..)
    (Decided.keeps (.after (.modZone rfl rfl) (.modZone rfl rfl)))
  have moves {from_ to_ : ZoneState} (e : (u.zone z).state = from_) (hs : to_.stows = from_.stows) :
      KeepsSource s (u.moveZone k z to_ id) :=
    .after (Decided.keeps (.moveZone hk (e ▸ hs) rfl)) h
  split
  case h_1 e => exact .ite h (.after (Decided.moveByWeather hk ..).keeps (moves e rfl))
  case h_2 e | h_3 e => exact .ite (moves e rfl) h
  all_goals exact h

theorem orderZone (z : ZoneId) (order : Bool) (s : State) :
    KeepsSource s (s.orderZone k z order) :=
  .after (evaluate hk ..) (Decided.keeps (.modZone rfl rfl))

theorem takeConfigureZone (page : PageId) (target : BitVec 16) (raw : RawZoneConfig) (s : State) :
    KeepsSource s (s.takeConfigureZone k page target raw) := by
  unfold State.takeConfigureZone State.onZone
  split
  · exact (Decided.answer ..).keeps
  · exact .ite (Decided.answer ..).keeps (.ite (.after (Decided.answer ..).keeps
      (configureZone hk ..)) (Decided.answer ..).keeps)

theorem takeStowZone (page : PageId) (target : BitVec 16) (s : State) :
    KeepsSource s (s.takeStowZone k page target) := by
  unfold State.takeStowZone State.onZone
  split
  · exact (Decided.answer ..).keeps
  · exact .after (Decided.answer ..).keeps (orderZone hk ..)

theorem takeReleaseZone (page : PageId) (target : BitVec 16) (s : State) :
    KeepsSource s (s.takeReleaseZone k page target) := by
  unfold State.takeReleaseZone State.onZone
  split
  · exact (Decided.answer ..).keeps
  · exact .after (Decided.answer ..).keeps (orderZone hk ..)

end

end KeepsSource

/-! ### A station that changes zones (R84, R145) -/

theorem mem_insertStation {x : StationId} {l : List StationId} :
    x ∈ insertStation st l ↔ x = st ∨ x ∈ l := by
  have parts : x ∈ l ↔ x ∈ l.takeWhile (fun x => decide (x.val < st.val)) ∨
      x ∈ l.dropWhile (fun x => decide (x.val < st.val)) := by
    rw [← List.mem_append, List.takeWhile_append_dropWhile]
  rw [insertStation, List.mem_append, List.mem_cons, List.mem_filter, parts, bne_iff_ne]
  tauto

/-- The member sets follow a working station from its old zone to its new one (R145). -/
theorem Law.members_moved (m : Law.members s) (r : (s.station st).retired = false) {cfg : StationConfig}
    (h : (s.station st).cfg.zone ≠ cfg.zone) : Law.members
      (((s.modStation st (fun x => { x with cfg := cfg })).modZone (s.station st).cfg.zone
        (Zone.without st)).modZone cfg.zone (Zone.joined st)) := by
  intro x z
  have member := m x z
  rw [State.zone_modZone, State.zone_modZone, State.zone_modZone, if_neg h]
  simp only [State.station_modZone, State.zone_modStation]
  by_cases own : st = x
  · subst x
    rw [State.station_modStation, if_pos rfl]
    split
    · next e => exact iff_of_true (mem_insertStation.2 (.inl rfl)) ⟨r, e⟩
    · next e =>
      refine iff_of_false ?_ fun c => e c.2
      split
      · simp [Zone.without]
      · next e' => exact fun c => e' (member.1 c).2
  · rw [State.station_modStation, if_neg own, ← member]
    split
    · next e => simp [Zone.joined, mem_insertStation, Ne.symm own, e]
    · split
      · next e => simp [Zone.without, Ne.symm own, e]
      · exact Iff.rfl

theorem Sourced.moveMember (hk : k.Sound) {C : Set TableId} {old new : ZoneId} (d : Sourced C P s)
    (hn : (s.station st).cfg.zone = new) (h : old ≠ new) :
    Sourced C P (s.moveMember k st old) := by
  have zoneStands {u : State} {z : ZoneId} {f : Zone → Zone} (hf : ∀ x, (f x).state = x.state)
      (d : Sourced C P u) : Sourced C P (u.modZone z f) := by
    refine d.same (fun _ => .refl _) (fun y => ?_) fun _ => rfl
    rw [State.zone_modZone]
    split
    · next e => rw [hf, e]
    · rfl
  have joined : Sourced C P (s.rejoined k st old new) :=
    zoneStands (fun _ => rfl) ((Decided.stowedTest hk old _).sourced (zoneStands (fun _ => rfl) d))
  rw [State.moveMember_eq hn h]
  dsimp only
  generalize s.rejoined k st old new = u at *
  have stowed := (Decided.stowMember hk st u).sourced joined
  split
  · split
    · next c => exact (Decided.enterStowing hk (by rw [c.1]; rfl)).sourced stowed
    · exact stowed
  · exact joined

namespace KeepsSource

/-- A configuration leaves the station's decision due until it is made again (R84). -/
theorem configure (r : (s.station st).retired = false) (cfg : StationConfig) :
    KeepsSource s (s.configure settle st cfg) := by
  refine ⟨fun l => ?_⟩
  rw [Law.source_iff] at l ⊢
  obtain ⟨m, d⟩ := l
  have kept := (State.configure_kept st cfg s).members
  have own : ((s.modStation st (fun x => { x with cfg := cfg })).station st).cfg.zone = cfg.zone := by
    rw [State.station_modStation, if_pos rfl]
  have changed : Sourced ∅ (insert st ∅) (s.modStation st (fun x => { x with cfg := cfg })) :=
    d.change fun _ => .inl
  have rest (u : State) : Decided (insert st ∅) ∅ u
      (((u.redecideSource settle st).formClaim settle st).axesChanged settle st) :=
    .after (.axesChanged Decided.settle ..) (.after (.formClaim Decided.settle ..)
      (.redecides Decided.settle st u))
  unfold State.configure at *
  dsimp only at *
  by_cases e : (s.station st).cfg.zone = cfg.zone
  · rw [if_pos e] at kept
    rw [State.moveMember_same (e.trans own.symm)] at *
    refine ⟨kept (Law.members_congr (s := s) (fun x => ?_) (fun _ => rfl) m), (rest _).sourced changed⟩
    rw [State.station_modStation]
    split
    · subst x
      exact ⟨e.symm, rfl⟩
    · exact ⟨rfl, rfl⟩
  · rw [if_neg e] at kept
    exact ⟨kept (Law.members_moved m r e), (rest _).sourced (changed.moveMember Decided.settle own e)⟩

theorem takeConfigureStation (page : PageId) (target : BitVec 16) (raw : RawStationConfig)
    (s : State) : KeepsSource s (s.takeConfigureStation settle page target raw) := by
  have answers (r : Result) : KeepsSource s (s.answer page r []) := (Decided.answer ..).keeps
  unfold State.takeConfigureStation State.onStation
  split
  · exact answers _
  · split
    · exact answers _
    · next r => exact .ite (answers _) (.ite (answers _) (.ite (answers _) (.ite (answers _)
        (.after (Decided.answer ..).keeps (configure (by simpa using r) _)))))

end KeepsSource

/-! ### The full reset (R16) -/

/-- A station at a full reset shows the source of R49: by the levels of SITE_STOW and SITE_STOP, and else NONE
for the service tag that every station then has (R48, R196). -/
theorem Station.agrees_afterReset (fuse1 fuse2 siteStow siteStop : Bool) :
    let x := Station.afterReset fuse1 fuse2 siteStow siteStop
    (x.target.source, x.target.row) = if x.retired || x.motionBlocked then (.none, 1)
      else if siteStow then (.stow, 2) else (.none, 3) := by
  revert fuse1 fuse2 siteStow siteStop
  decide

theorem Station.serviceHeld_afterReset {fuse1 fuse2 siteStow siteStop : Bool}
    (h : (Station.afterReset fuse1 fuse2 siteStow siteStop).retired = false) :
    (Station.afterReset fuse1 fuse2 siteStow siteStop).serviceHeld = true := by
  revert fuse1 fuse2 siteStow siteStop
  decide

theorem Law.source_afterReset (p : List Instr) (m : Mem) (f : StationId → Bool × Bool) (a b c : Bool)
    (n : Nat) : Law.source (State.afterReset p m f a b c n) := by
  refine ⟨fun st z => ?_, ⟨fun x y _ h => ?_, fun st h e => ?_⟩, fun st r => ?_⟩
  · refine (State.members_afterReset z st).trans ?_
    rw [and_comm, eq_comm (a := z), State.station_afterReset]
    rfl
  · rw [State.table_afterReset] at h
    cases h
  · rw [State.station_afterReset] at e
    cases e
  · have stows (z : ZoneId) : ((State.afterReset p m f a b c n).zone z).state.stows = a := by
      rw [State.zone_afterReset]
      cases a <;> rfl
    unfold State.sourceOf
    dsimp only
    rw [stows]
    rw [State.station_afterReset] at r ⊢
    rw [Station.agrees_afterReset, Station.serviceHeld_afterReset r]
    rfl

end Sys2Proof.Machine
end

section
/-! PROOFS. The decision of the target source (R49 to R53, R181): every command and every step keeps it, what one
decision does, and the obligation that states both. -/

namespace Sys2Proof.Machine

variable {s t : State}

/-! ### The commands -/

namespace KeepsSource

theorem of_eq (hs : t.stations = s.stations) (hz : t.zones = s.zones) (ht : t.tables = s.tables) :
    KeepsSource s t := (Decided.of_eq hs hz ht).keeps

theorem publish (h : KeepsSource s t) (r : State) : KeepsSource s (r.publish t) :=
  (of_eq (s := t) (t := r.publish t) rfl rfl rfl).after h

theorem of_event {f : State → State} (h : event s f = .next t) (hf : ∀ s, KeepsSource s (f s)) :
    KeepsSource s t := event_next h ▸ (hf s).publish s

theorem of_request {f : State → State} (h : request s f = .next t)
    (hf : ∀ s, KeepsSource s (f s)) : KeepsSource s t :=
  of_event h fun s => .ite (.refl s) (hf s)

end KeepsSource

namespace Decided

theorem of_event {f : State → State} (h : event s f = .next t) (hf : ∀ s, Decided ∅ ∅ s (f s)) :
    KeepsSource s t := KeepsSource.of_event h fun s => (hf s).keeps

theorem of_request {f : State → State} (h : request s f = .next t)
    (hf : ∀ s, Decided ∅ ∅ s (f s)) : KeepsSource s t :=
  KeepsSource.of_request h fun s => (hf s).keeps

theorem of_onStage {P : Set StationId} (n : Nat) {f : Stage → State} (s : State)
    (hf : ∀ g, Decided P P s (f g)) :
    Decided P P s (match s.stage n with
      | none => s
      | some g => f g) := by
  split
  · exact .refl s
  · exact hf _

end Decided

/-- Every request that a page can carry keeps the source law. -/
theorem KeepsSource.runPage (p : PageId) (s : State) : KeepsSource s (s.runPage settle p) := by
  have sound := Decided.settle
  unfold State.runPage
  dsimp only
  split
  · exact (Decided.takeSetTime ..).keeps
  · exact (Decided.takeArmBook ..).keeps
  · exact (Decided.takeDisarmBook ..).keeps
  · exact (Decided.takeStopBook sound ..).keeps
  · exact takeConfigureStation ..
  · exact (Decided.takeRecoverAxis sound ..).keeps
  · exact (Decided.takeSetBudget sound ..).keeps
  · exact (Decided.takeLaunchSweep ..).keeps
  · exact (Decided.takeCancelSweep sound ..).keeps
  · exact (Decided.takeConfigureSensing ..).keeps
  · exact (Decided.takeRecalibrate ..).keeps
  · exact takeConfigureZone sound ..
  · exact takeStowZone sound ..
  · exact takeReleaseZone sound ..
  · exact (Decided.takeSetHeatMode sound ..).keeps
  · exact (Decided.takeHeatOn sound ..).keeps
  · exact (Decided.takeHeatOff sound ..).keeps
  · exact (Decided.takeProbeHeater sound ..).keeps
  · exact (Decided.takePlaceTag sound ..).keeps
  · exact (Decided.takeClearReturn sound ..).keeps
  · exact (Decided.takeClearSite sound ..).keeps
  · exact (Decided.takeRetireStation ..).keeps
  · exact (Decided.answer ..).keeps

theorem KeepsSource.take (p : PageId) (rest : List PageId) (s : State) :
    KeepsSource s (s.take settle p rest) := by
  have dropped : KeepsSource s (s.modExchange (fun x => { x with queue := rest })) :=
    (Decided.modExchange _ s).keeps
  unfold State.take
  dsimp only
  generalize s.modExchange (fun x => { x with queue := rest }) = u at *
  have taken : Decided ∅ ∅ u (u.store (Layout.page p) (Status.word PageState.taken)) :=
    .of_eq rfl rfl rfl
  exact .ite (.after (runPage p _) (.after taken.keeps dropped))
    (.after (Decided.bump _ u).keeps dropped)

open Decided in
/-- Every command keeps the source law. -/
theorem exec_keepsSource {i : Instr} (h : exec i s = .next t) : KeepsSource s t := by
  have sound := Decided.settle
  unfold exec at h
  cases i with
  | postWrite l v => exact of_event h (fun s => .after (post v _) (hostStore l s))
  | requestTake =>
    refine KeepsSource.of_event h fun s => .ite ?_ (.refl s)
    split
    · exact .refl s
    · exact KeepsSource.take ..
  | exchangeReset b => exact of_event h (fun s => .after (exchangeReset sound _) (modExchange _ s))
  | fullReset a b c =>
    cases h
    exact ⟨fun _ => Law.source_afterReset ..⟩
  | summaryRead | maskWrite | intEnable => exact of_event h (modExchange _)
  | registerWriteIgnored reg _ => exact of_event h (hostStore reg.stores)
  | setTime p v m => exact of_request h (takeSetTime p v m)
  | armBook p x l n => exact of_request h (takeArmBook p x l n)
  | disarmBook p x => exact of_request h (takeDisarmBook p x)
  | stopBook p x => exact of_request h (takeStopBook sound p x)
  | configureStation p x c => exact KeepsSource.of_request h (.takeConfigureStation p x c)
  | recoverAxis p x a => exact of_request h (takeRecoverAxis sound p x a)
  | setBudget p n e => exact of_request h (takeSetBudget sound p n e)
  | launchSweep p x a b c => exact of_request h (takeLaunchSweep p x a b c)
  | cancelSweep p x => exact of_request h (takeCancelSweep sound p x)
  | configureSensing p n => exact of_request h (takeConfigureSensing p n)
  | recalibrate p => exact of_request h (takeRecalibrate p)
  | configureZone p x c => exact KeepsSource.of_request h (.takeConfigureZone sound p x c)
  | stowZone p x => exact KeepsSource.of_request h (.takeStowZone sound p x)
  | releaseZone p x => exact KeepsSource.of_request h (.takeReleaseZone sound p x)
  | setHeatMode p x m => exact of_request h (takeSetHeatMode sound p x m)
  | heatOn p x => exact of_request h (takeHeatOn sound p x)
  | heatOff p x => exact of_request h (takeHeatOff sound p x)
  | probeHeater p x => exact of_request h (takeProbeHeater sound p x)
  | placeTag p x k c n => exact of_request h (takePlaceTag sound p x k c n)
  | clearReturn p x => exact of_request h (takeClearReturn sound p x)
  | clearSite p x => exact of_request h (takeClearSite sound p x)
  | retireStation p x => exact of_request h (takeRetireStation p x)
  | validationCompletion => exact of_event h validate
  | sitePulse =>
    exact of_event h (fun s => .ite (.after (pulseTable sound 1 _) (.after (pulseTable sound 0 _)
      (.after (pulseTime _) (modTime _ s)))) (.refl s))
  | pulseWatchExpiry =>
    exact of_event h (fun s => .ite (.after (bump ..) (modTime _ s)) (.refl s))
  | sweepStrobe => exact of_event h (fun s => .after (strobe sound 1 _) (strobe sound 0 s))
  | siteStowChange level =>
    refine KeepsSource.of_event h fun s => .ite (.refl s)
      (.after (KeepsSource.eachOf _ (.evaluate sound false) _) ?_)
    exact KeepsSource.of_eq rfl rfl rfl
  | siteStopChange level =>
    have moved (s : State) : Decided ∅ ∅ s { s with lines := { s.lines with siteStop := level } } :=
      .of_eq rfl rfl rfl
    exact of_event h (fun s => .ite (.refl s)
      (.ite (.after (Decided.eachOf _ (stopStation sound) _) (moved s)) (moved s)))
  | feederAlarmChange level => exact of_event h (rebudget sound _)
  | driveIntervalExpiry => exact of_event h (fun s => .ite (driveExpiry sound s) (.refl s))
  | linkLoss st => exact of_event h (fun s => .ite (loseLink sound st s) (.refl s))
  | reportFrame st f => exact of_event h (fun s => .ite (takeReport sound st _ s) (.refl s))
  | brakeTimeout st ax =>
    exact of_event h (fun s => .ite (faultAxis sound st ax .brake s) (.refl s))
  | trackingFault st ax =>
    exact of_event h (fun s => .ite (faultAxis sound st ax .tracking s) (.refl s))
  | holdIdleExpiry st ax =>
    exact of_event h (fun s => .ite (.after (axesChanged sound st _)
      (changeAxes sound ((SourceStands.modAxis _ ax _).trans (.examine _ ax)))) (.refl s))
  | strobeTimeout x =>
    refine of_event h fun s => iteOf (fun c => .after (bump ..) (modTable ?_)) fun _ => .refl s
    rw [c.1]
    rfl
  | settleTimeout st =>
    refine of_event h fun s => ?_
    dsimp only
    split
    · exact .refl s
    · exact .ite (.after (judgeEnd sound 2 _ _) (.after (modTable rfl) (modProgress st _ s)))
        (.refl s)
  | passBoundary => exact KeepsSource.of_event h fun s => .ite (.passBoundary sound s) (.refl s)
  | quietRateEntry => exact of_event h (fun s => .ite (modSensing _ s) (.refl s))
  | stageMisses g =>
    exact of_event h (fun s => of_onStage g.val s fun _ =>
      .ite (.after (sensingEvent ..) (modStage ..)) (.refl s))
  | baselineStep g =>
    exact of_event h (fun s => of_onStage g.val s fun _ => .ite (modStage ..) (.refl s))
  | forcedRecalibration g =>
    exact of_event h (fun s => of_onStage g.val s fun _ =>
      .ite (.after (sensingEvent ..) (modStage ..)) (.refl s))
  | sampleReply f => exact of_event h (fun s => .ite (takeValue _ _ s) (.refl s))
  | blindTimerExpiry z =>
    exact KeepsSource.of_event h fun s => .ite (.after (.evaluate sound false z _)
      (Decided.keeps (modZone rfl rfl))) (.refl s)
  | stowDeadlineExpiry z => exact of_event h (fun s => .ite (deadlineOut sound z s) (.refl s))
  | returnHoldExpiry z =>
    exact KeepsSource.of_event h fun s => .ite (.holdOut sound z s) (.refl s)
  | probeWindowExpiry st a =>
    exact of_event h (fun s => .ite (faultHeater sound st a _ _ s) (.refl s))
  | energizeWindowExpiry st a => exact of_event h (fun s => .ite (endStart sound st a s) (.refl s))
  | overloadExpiry st a =>
    exact of_event h (fun s => .ite (faultHeater sound st a _ _ s) (.refl s))
  | openElementExpiry st a =>
    exact of_event h (fun s => .ite (faultHeater sound st a _ _ s) (.refl s))
  | cooldownExpiry st a =>
    exact of_event h (fun s => .ite (.after (judgeProbe sound st a _)
      (changeHeater sound st a _ s)) (.refl s))
  | meltOffExpiry st a => exact of_event h (fun s => .ite (changeCall sound st a _ s) (.refl s))
  | onRunExpiry st =>
    exact of_event h (fun s => .ite (.after (judgeShed sound st _)
      (modHeater st .reflector _ s)) (.refl s))
  | panelPoll => exact of_event h (fun s => .ite (poll s) (.refl s))
  | panelSlotEnd =>
    exact of_event h (fun s => .ite (.after (modPanelLine ..) (judgePanel _ s)) (.refl s))
  | panelLost st => exact of_event h (fun s => .ite (losePanel st s) (.refl s))
  | panelNone f => exact of_event h (panelAnswer _ (fun _ s => .refl s) f)
  | panelLock f => exact of_event h (panelAnswer _ (lock sound f) f)
  | panelRelease f => exact of_event h (panelAnswer _ (unlock sound f) f)
  | retireConfirm f => exact of_event h (panelAnswer _ confirmRetire f)
  | unlistedPanelAnswer f =>
    exact of_event h (panelAnswer _ (fun st s => acknowledge st _ s) f)

theorem step_keepsSource (h : step s = .next t) : KeepsSource s t := by
  rcases step_cases h with ⟨c, rest, -, e⟩ | ⟨-, -, e⟩ | ⟨-, -, rfl⟩
  · exact (exec_keepsSource e).after
      (.of_eq (s := s) (t := { s with pending := rest }) rfl rfl rfl)
  · exact exec_keepsSource e
  · exact (Decided.millisecond s).keeps

end Sys2Proof.Machine
end

section
/-! PROOFS. O24: the rows of R49, one decision (R50, R181), an axis's answer (R75), and the law through every
step. -/

namespace Sys2Proof.Machine

variable {k : Settle} {s : State} {st : StationId} {a : Axis} {row seconds : Nat}

/-! ### The rows of R49 -/

theorem ZoneState.stows_iff (z : ZoneState) : z.stows = true ↔
    z = .stowing ∨ z = .stowed ∨ z = .returnHold := by
  cases z <;> decide

/-- Row 1 is that of a blocked station, which has no source (R49). -/
theorem State.sourceOf_row_one (h : (s.sourceOf st).2 = 1) : (s.sourceOf st).1 = .none := by
  revert h
  unfold State.sourceOf
  dsimp only
  split_ifs <;> simp

/-! ### One decision (R50, R181) -/

theorem State.decideSource_same (hs : (s.station st).target.source = (s.sourceOf st).1)
    (hr : (s.station st).target.row = (s.sourceOf st).2) : s.decideSource k st = s :=
  if_pos (.inr ⟨hs, hr⟩)

theorem State.decideSource_retired (h : (s.station st).retired = true) : s.decideSource k st = s :=
  if_pos (.inl h)

theorem State.decideSource_changed (h : (s.station st).retired = false)
    (n : (s.station st).target.source ≠ (s.sourceOf st).1 ∨
      (s.station st).target.row ≠ (s.sourceOf st).2) :
    s.decideSource k st = s.changeAxes k st (fun x =>
      { x with target := x.retarget (s.sourceOf st).1 (s.sourceOf st).2 }.answerSource
        (s.sourceOf st).1 (s.sourceOf st).2) := by
  refine if_neg ?_
  rintro (r | ⟨hs, hr⟩)
  · rw [h] at r
    cases r
  · exact n.elim (absurd hs) (absurd hr)

/-- A decision leaves its station with the source and the row of R49, whatever the other records show. -/
theorem State.decideSource_agrees (l : Law.sweeps s) : (s.decideSource settle st).agrees st := by
  have due : Sourced ∅ (insert st {x | x ≠ st}) s := by
    refine ⟨l.1, fun x g e => .inl (l.2 x g e), fun x hx _ => absurd ?_ hx⟩
    by_cases e : x = st
    · exact .inl e
    · exact .inr e
  have made := (Decided.decides Decided.settle st s).sourced due
  exact made.agrees st (by simp) fun _ _ => Set.notMem_empty _

/-- Each way of a shed order's judgement (R181). -/
theorem State.judgeShed_cases (k : Settle) (s : State) (st : StationId) :
    let x := s.station st
    let due := s.shedConditions st = true
    (x.shedOrder = true ↔ due) ∧ s.judgeShed k st = s ∨
      x.shedOrder = false ∧ due ∧ s.judgeShed k st =
        (s.modStation st (fun x => { x with shedOrder := true })).decideSource k st ∨
      x.shedOrder = true ∧ ¬ due ∧ s.judgeShed k st =
        (s.modStation st Station.withdrawShed).decideSource k st := by
  dsimp only
  unfold State.judgeShed
  dsimp only
  cases s.shedConditions st <;> cases (s.station st).shedOrder <;> simp

/-! ### The answer of an axis (R75) -/

theorem Axis.answerSource_none_blocked : a.answerSource .none 1 seconds = a := by
  simp [Axis.answerSource]

theorem Axis.answerSource_none_stands (h : a.state = .holding) :
    a.answerSource .none row seconds = a := by
  unfold Axis.answerSource
  simp [h]

theorem Axis.answerSource_none_brakes (hr : row ≠ 1) (h : a.state = .awaitingPower ∨ a.state = .stowed) :
    a.answerSource .none row seconds = a.brake := by
  unfold Axis.answerSource
  rcases h with h | h <;> simp [h, hr]

theorem Axis.answerSource_none_holds (hr : row ≠ 1) (h : (a.state = .slewing ∨ a.state = .catchingUp ∨
    a.state = .tracking) ∨ a.state = .stowing) :
    a.answerSource .none row seconds = a.toHolding seconds := by
  unfold Axis.answerSource
  rcases h with (h | h | h) | h <;> simp [h, hr]

theorem Axis.answerSource_stow_stows (h : (a.state = .slewing ∨ a.state = .catchingUp ∨
    a.state = .tracking) ∨ a.state = .holding) :
    a.answerSource .stow row seconds = a.enter .stowing := by
  unfold Axis.answerSource
  rcases h with (h | h | h) | h <;> simp [h]

theorem Axis.answerSource_moving_tracks {src : Source} (hs : src = .book ∨ src = .sweep ∨ src = .shed)
    (h : a.state = .holding ∨ a.state = .stowing) :
    a.answerSource src row seconds = a.enter .tracking := by
  unfold Axis.answerSource
  rcases hs with rfl | rfl | rfl <;> rcases h with h | h <;> simp [h]

theorem Axis.answerSource_moving_brakes {src : Source} (hs : src = .book ∨ src = .sweep ∨ src = .shed)
    (h : a.state = .stowed) : a.answerSource src row seconds = a.brake := by
  unfold Axis.answerSource
  rcases hs with rfl | rfl | rfl <;> simp [h]

/-- An axis that no source moves: it is retired, braked, releasing or faulted (R75). -/
theorem Axis.answerSource_resting {src : Source} (h : a.state = .retired ∨ a.state = .braked ∨
    a.state = .releasing ∨ a.state = .faulted) : a.answerSource src row seconds = a := by
  unfold Axis.answerSource
  rcases h with h | h | h | h <;> cases src <;> simp [h]

theorem Axis.answerSource_stow_stands (h : a.state = .awaitingPower ∨ a.state = .stowing ∨
    a.state = .stowed) : a.answerSource .stow row seconds = a := by
  unfold Axis.answerSource
  rcases h with h | h | h <;> simp [h]

theorem Axis.answerSource_moving_stands {src : Source} (hs : src = .book ∨ src = .sweep ∨ src = .shed)
    (h : a.state = .awaitingPower ∨ a.state = .slewing ∨ a.state = .catchingUp ∨ a.state = .tracking) :
    a.answerSource src row seconds = a := by
  unfold Axis.answerSource
  rcases hs with rfl | rfl | rfl <;> rcases h with h | h | h | h <;> simp [h]

/-- Settles O24: a change leaves decisions due, and every step makes those that it leaves due. -/
theorem sourceFollowsTheTable : Obligations.SourceFollowsTheTable := by
  refine ⟨fun s st => ?_, fun x row => ⟨rfl, rfl, fun src hs hd => ?_⟩,
    fun k s st => State.decideSource_same, fun k s st => ?_, fun a source row seconds => ?_,
    fun s t l h => (step_keepsSource h).source l⟩
  · intro x z c1 c2 c3 c4 c5 c6
    have h1 : (x.retired || x.motionBlocked) = true ↔ c1 := by
      rw [Bool.or_eq_true, Station.motionBlocked_iff]
    have h2 : z.stows = true ↔ c2 := z.stows_iff
    have h3 : x.serviceHeld = true ↔ c3 := x.serviceHeld_iff
    have h4 : s.sweepHeld st = true ↔ c4 := by
      simp only [State.sweepHeld_iff, TableState.runs_iff, c4, x]
    have h5 : (x.bookIn .running).isSome = true ↔ c5 := x.bookIn_running
    have table : s.sourceOf st = if x.retired || x.motionBlocked then (.none, 1)
      else if z.stows then (.stow, 2) else if x.serviceHeld then (.none, 3)
      else if s.sweepHeld st then (.sweep, 4) else if (x.bookIn .running).isSome then (.book, 5)
      else if x.shedOrder then (.shed, 6) else (.none, 7) := rfl
    simp only [h1, h2, h3, h4, h5] at table
    rw [table]
    clear table h1 h2 h3 h4 h5
    refine ⟨fun y1 => if_pos y1, fun n1 y2 => ?_, fun n1 n2 y3 => ?_, fun n1 n2 n3 y4 => ?_,
      fun n1 n2 n3 n4 y5 => ?_, fun n1 n2 n3 n4 n5 y6 => ?_, fun n1 n2 n3 n4 n5 n6 => ?_⟩
    · rw [if_neg n1, if_pos y2]
    · rw [if_neg n1, if_neg n2, if_pos y3]
    · rw [if_neg n1, if_neg n2, if_neg n3, if_pos y4]
    · rw [if_neg n1, if_neg n2, if_neg n3, if_neg n4, if_pos y5]
    · rw [if_neg n1, if_neg n2, if_neg n3, if_neg n4, if_neg n5, if_pos y6]
    · rw [if_neg n1, if_neg n2, if_neg n3, if_neg n4, if_neg n5, if_neg n6]
  · simp only [Station.retarget, if_neg hs, if_neg hd]
  · intro d x
    refine ⟨State.decideSource_retired, fun r n => ?_, rfl, fun l r => ?_, State.judgeShed_cases k s st⟩
    · have blocked : (d.1 = .none ∧ d.2 = 1) ↔ d.2 = 1 :=
        and_iff_right_of_imp State.sourceOf_row_one
      rw [State.decideSource_changed r n]
      congr 1
      funext x
      unfold Station.answerSource
      dsimp only [d] at blocked ⊢
      rw [if_congr blocked rfl rfl]
      rfl
    · exact State.decideSource_agrees l (((Kept.decideSource (E := fun _ => False) (Q := True)
        Kept.settle st s).station st).retired.trans r)
  · intro b clear brakes st runs
    refine ⟨fun hs hr => ⟨fun h => ?_, fun h => ?_⟩, fun hs h => ?_, fun hs => ⟨fun h => ?_, fun h => ?_⟩,
      fun h => ?_⟩
    · subst hs
      exact Axis.answerSource_none_brakes hr h
    · subst hs
      exact Axis.answerSource_none_holds hr h
    · subst hs
      exact Axis.answerSource_stow_stows h
    · exact Axis.answerSource_moving_tracks hs h
    · exact Axis.answerSource_moving_brakes hs h
    · rcases h with h | h | h | h | ⟨hs, hr⟩ | ⟨hs, h⟩ | ⟨hs, h⟩ | ⟨hs, h⟩
      · exact Axis.answerSource_resting (.inl h)
      · exact Axis.answerSource_resting (.inr (.inl h))
      · exact Axis.answerSource_resting (.inr (.inr (.inl h)))
      · exact Axis.answerSource_resting (.inr (.inr (.inr h)))
      · subst hs hr
        exact Axis.answerSource_none_blocked
      · subst hs
        exact Axis.answerSource_none_stands h
      · subst hs
        exact Axis.answerSource_stow_stands h
      · exact Axis.answerSource_moving_stands hs h

end Sys2Proof.Machine
end

section
/-! PROOFS. The lists of PB (R90, R91) and its taking of a drive claim (R92, R93). -/

namespace Sys2Proof.Machine

/-! ### The lists -/

variable {st : StationId} {c : Claimant} {cls : ClaimClass} {n : Nat} {l : List Waiting}

/-- In a list in serving order the entries of at most a rank stand before all others. -/
theorem Waiting.inOrder_split (h : Waiting.inOrder l) (n : Nat) :
    l.takeWhile (fun w => decide (w.cls.rank ≤ n)) = l.filter (fun w => decide (w.cls.rank ≤ n)) ∧
      l.dropWhile (fun w => decide (w.cls.rank ≤ n)) = l.filter (fun w => decide (n < w.cls.rank)) := by
  induction l with
  | nil => exact ⟨rfl, rfl⟩
  | cons w l ih =>
    obtain ⟨first, rest⟩ := List.pairwise_cons.1 h
    by_cases hw : w.cls.rank ≤ n
    · simp [hw, ih rest]
    · have later : ∀ v ∈ l, n < v.cls.rank := fun v hv => by have := first v hv; omega
      have none : l.filter (fun v => decide (v.cls.rank ≤ n)) = [] :=
        List.filter_eq_nil_iff.2 fun v hv => by simp [later v hv]
      have all : l.filter (fun v => decide (n < v.cls.rank)) = l :=
        List.filter_eq_self.2 fun v hv => by simp [later v hv]
      simp [hw, Nat.not_le.1 hw, none, all]

/-- A replaced entry stands at the back of its rank (R91). -/
theorem Waiting.replace_eq (h : Waiting.inOrder l) :
    Waiting.replace c cls n l = Waiting.behind c cls n l := by
  unfold Waiting.replace Waiting.behind Waiting.place
  obtain ⟨before, after⟩ := Waiting.inOrder_split
    (h.filter (fun w => w.claimant != c)) cls.rank
  dsimp only [Waiting.drop]
  rw [before, after]

/-- An entry converted and set to watts above 0 takes both in place (R92, R93). -/
theorem Grants.set_convert (hn : 0 < n) (g : List Grant) :
    Grants.set c n (Grants.convert c cls g) =
      g.map (fun g => if g.claimant = c then { g with cls := cls, watts := n } else g) := by
  rw [Grants.set, if_neg (by omega), Grants.convert, List.map_map]
  refine List.map_congr_left fun g _ => ?_
  by_cases h : g.claimant = c <;> simp [h]

/-! ### A drive claim taken -/

variable {claim : DriveClaim} {r : PowerRun}

theorem PowerRun.touch_eq (r : PowerRun) (c : Claimant) :
    r.touch c = { r with touched := Claimant.once r.touched c } := rfl

/-- A claim withdrawn. -/
theorem PowerRun.takeDrive_withdrawn (h : claim.wanted = 0) : r.takeDrive st claim = { r with
    power := { r.power with
      grants := Grants.drop (.station st) r.power.grants,
      waiting := Waiting.drop (.station st) r.power.waiting,
      claims := r.power.claims.set st DriveClaim.none },
    touched := if r.power.granted (.station st) = 0 then r.touched
      else Claimant.once r.touched (.station st) } := by
  unfold PowerRun.takeDrive
  dsimp only
  rw [if_pos h]
  split <;> rfl

/-- A claim no higher than the grant. -/
theorem PowerRun.takeDrive_lowered (h : 0 < claim.wanted)
    (hg : claim.wanted ≤ r.power.granted (.station st)) : r.takeDrive st claim = { r with
    power := { r.power with
      grants := r.power.grants.map (fun g => if g.claimant = .station st then
        { g with cls := claim.cls, watts := claim.wanted } else g),
      waiting := Waiting.drop (.station st) r.power.waiting,
      claims := r.power.claims.set st claim },
    touched := if claim.wanted = r.power.granted (.station st) then r.touched
      else Claimant.once r.touched (.station st) } := by
  unfold PowerRun.takeDrive
  dsimp only
  rw [if_neg (by omega), if_pos hg, Grants.set_convert h]
  split <;> rfl

/-- The waiting list as a claim above the grant leaves it: an entry that stands in the claim's class with no
smaller addition keeps its place, and else the claim waits at the back of its rank (R92). -/
def Waiting.raised (c : Claimant) (cls : ClaimClass) (addition : Nat) (l : List Waiting) : List Waiting :=
  match Waiting.find c l with
  | none => Waiting.replace c cls addition l
  | some w =>
    if w.cls = cls ∧ addition ≤ w.addition then
      l.map (fun v => if v.claimant = c then { v with addition := addition } else v)
    else Waiting.replace c cls addition l

theorem Waiting.raised_in_place {w : Waiting} (h : l.find? (fun v => v.claimant == c) = some w)
    (hc : w.cls = cls) (ha : n ≤ w.addition) : Waiting.raised c cls n l =
      l.map (fun v => if v.claimant = c then { v with addition := n } else v) := by
  unfold Waiting.raised Waiting.find
  rw [h]
  exact if_pos ⟨hc, ha⟩

theorem Waiting.raised_behind (o : Waiting.inOrder l)
    (h : ∀ w, ¬ (l.find? (fun v => v.claimant == c) = some w ∧ w.cls = cls ∧ n ≤ w.addition)) :
    Waiting.raised c cls n l = Waiting.behind c cls n l := by
  unfold Waiting.raised Waiting.find
  split
  · exact Waiting.replace_eq o
  · next w hw => exact (if_neg fun e => h w ⟨hw, e⟩).trans (Waiting.replace_eq o)

/-- A claim above the grant. -/
theorem PowerRun.takeDrive_raised (h : r.power.granted (.station st) < claim.wanted) :
    r.takeDrive st claim = { r with power := { r.power with
      grants := Grants.convert (.station st) claim.cls r.power.grants,
      waiting := Waiting.raised (.station st) claim.cls
        (claim.wanted - r.power.granted (.station st)) r.power.waiting,
      claims := r.power.claims.set st claim } } := by
  unfold PowerRun.takeDrive
  dsimp only
  rw [if_neg (by omega), if_neg (by omega)]
  rfl

end Sys2Proof.Machine
end

section
/-! PROOFS. What the axes of a station need, the claim that follows, and TE's answers to PB (R71, R74, R77,
R78). -/

namespace Sys2Proof.Machine

variable {k : Settle} {s : State} {st : StationId}

/-! ### Needs (R77) -/

section Needs

variable {a : Axis}

theorem Axis.needNow_slew (h : a.state = .awaitingPower ∨ a.state = .slewing ∨ a.state = .catchingUp) :
    a.needNow = .slew := by
  obtain h | h | h := h <;> simp [Axis.needNow, h]

theorem Axis.needNow_track (h : a.state = .tracking ∨ a.state = .holding) : a.needNow = .track := by
  obtain h | h := h <;> simp [Axis.needNow, h]

theorem Axis.needNow_none (h : a.state = .retired ∨ a.state = .braked ∨ a.state = .stowed ∨
    a.state = .faulted) : a.needNow = .none := by
  obtain h | h | h | h := h <;> simp [Axis.needNow, h]

theorem Axis.needNow_stowing (h : a.state = .stowing) :
    a.needNow = if a.onSource = some true then .track else .slew := by
  simp [Axis.needNow, h]

/-- A verdict since the entry into RELEASING is a release count above 0 (R72). -/
theorem Axis.judged_iff_count (a : Axis) : a.judged = true ↔ 0 < a.releaseCount.getD 0 := by
  unfold Axis.judged
  cases a.releaseCount <;> simp

theorem Axis.needNow_releasing (h : a.state = .releasing) : a.needNow =
    if a.onSource = some true ∧ 0 < a.releaseCount.getD 0 then .track else .slew := by
  simp [Axis.needNow, h, a.judged_iff_count, and_comm]

end Needs

/-! ### The claim (R78) -/

/-- A figure summed over the axes that need power. -/
theorem Station.sumOver_needs (x : Station) (watts : AxisConfig → Nat) :
    x.sumOver (fun a => decide (a.need ≠ .none)) watts =
      (if x.az.need = .none then 0 else watts x.cfg.az) +
        (if x.el.need = .none then 0 else watts x.cfg.el) := by
  simp [Station.sumOver]

/-- The claim that a level wanted makes, by R77 and R78. -/
theorem Station.reform_claim (x : Station) : x.reform.claim =
    { cls := if x.target.source = .stow then .stow else .move
      level := Level.ofNeeds x.az.needNow x.el.needNow
      wanted :=
        if x.az.needNow = .slew ∨ x.el.needNow = .slew then
          (if x.az.needNow = .none then 0 else x.cfg.az.slewWatts) +
            (if x.el.needNow = .none then 0 else x.cfg.el.slewWatts)
        else if x.az.needNow = .track ∨ x.el.needNow = .track then
          (if x.az.needNow = .none then 0 else x.cfg.az.trackWatts) +
            (if x.el.needNow = .none then 0 else x.cfg.el.trackWatts)
        else 0
      track := (if x.az.needNow = .none then 0 else x.cfg.az.trackWatts) +
        (if x.el.needNow = .none then 0 else x.cfg.el.trackWatts)
      granted := x.claim.granted
      grantedLevel := x.levelFor x.claim.granted } := by
  simp only [Station.reform, Station.sumOver_needs]
  congr 1
  unfold Level.ofNeeds
  split_ifs <;> rfl

/-- The claims that PB tells apart (R78). -/
theorem ClaimRecord.same_iff (a b : ClaimRecord) : a.same b = true ↔
    a.cls = b.cls ∧ a.level = b.level ∧ a.wanted = b.wanted ∧ a.track = b.track := by
  simp [ClaimRecord.same, and_assoc]

/-! ### A change of a station's axes -/

theorem Station.newlyAwaiting_iff (x y : Station) : x.newlyAwaiting y = true ↔
    ∃ ax, (y.axis ax).state = .awaitingPower ∧ (x.axis ax).state ≠ .awaitingPower := by
  rw [AxisId.exists_iff (P := fun ax => (y.axis ax).state = .awaitingPower ∧
    (x.axis ax).state ≠ .awaitingPower)]
  simp [Station.newlyAwaiting, Station.axis]

theorem State.changeAxes_eq (k : Settle) (s : State) (st : StationId) (f : Station → Station) :
    s.changeAxes k st f =
      if (s.station st).newlyAwaiting (f (s.station st)) then
        k (((s.modStation st f).formClaim k st).leave (.awaiting st))
      else (s.modStation st f).formClaim k st := by
  unfold State.changeAxes
  dsimp only
  rw [State.station_modStation, if_pos rfl]

/-- What follows from a change of axes is settled. -/
theorem Kept.after_changeAxes {E : TableId → Prop} {Q : Prop} (hk : ∀ s, Kept E Q s (k s))
    (s : State) (st : StationId) (f : Station → Station) :
    Kept E Q (s.modStation st f) (s.changeAxes k st f) := by
  rw [State.changeAxes_eq]
  have formed := Kept.formClaim hk st (s.modStation st f)
  split
  · exact (formed.trans (.leave _)).trans (hk _)
  · exact formed

/-! ### The judgement of R71 -/

section Release

variable {ax : AxisId} {r : Report}

theorem State.releaseAxis_not (h : ((s.station st).axis ax).state ≠ .awaitingPower) :
    s.releaseAxis k st ax = s := by
  unfold State.releaseAxis
  dsimp only
  split
  · exact absurd ‹_› h
  · rfl

theorem State.releaseAxis_eq (h : ((s.station st).axis ax).state = .awaitingPower)
    (hr : (s.station st).link.report = some r) : s.releaseAxis k st ax =
      if ((s.station st).cfg.axis ax).lmin ≤ r.encoder ax ∧
          r.encoder ax ≤ ((s.station st).cfg.axis ax).lmax then
        s.modAxis st ax (fun a => a.toReleasing (r.encoder ax))
      else s.faultAxis k st ax .outside := by
  unfold State.releaseAxis
  dsimp only
  rw [h, hr]

end Release

/-! ### The answers to a grant (R74) -/

/-- A CATCHING_UP axis moves on at a rise to SLEW, and no other axis does. -/
theorem Axis.answerLevel_rise (a : Axis) (level : Level) : a.answerLevel true level =
    if a.state = .catchingUp ∧ level = .slew then a.enter .slewing else a := by
  unfold Axis.answerLevel
  cases h : a.state <;> cases level <;> rfl

/-- A SLEWING axis moves on at a fall to TRACK, and no other axis does. -/
theorem Axis.answerLevel_fall (a : Axis) (level : Level) : a.answerLevel false level =
    if a.state = .slewing ∧ level = .track then a.enter .catchingUp else a := by
  unfold Axis.answerLevel
  cases h : a.state <;> cases level <;> rfl

section DriveGrant

variable {watts : Nat}

/-- A station's claim record with the watts that PB reports and the level that they grant. -/
def State.granted (s : State) (st : StationId) (watts : Nat) : State :=
  s.modStation st (Station.takeGrant watts)

theorem State.station_granted (s : State) (st : StationId) (watts : Nat) :
    (s.granted st watts).station st = (s.station st).takeGrant watts := by
  rw [State.granted, State.station_modStation, if_pos rfl]

theorem State.driveGrant_rise (h : (s.station st).claim.granted < watts) :
    s.driveGrant k st watts = (((s.granted st watts).modStation st (Station.answerLevel true)).judgeAwaiting
      k st).formClaim k st :=
  if_pos h

/-- A fall of a grant of which the station still wants more is a revocation (R103). -/
theorem State.driveGrant_revoked (h : watts < (s.station st).claim.granted)
    (hw : watts < (s.station st).claim.wanted) : s.driveGrant k st watts =
      if watts = 0 ∧ ((s.station st).az.state.powered || (s.station st).el.state.powered) = true then
        ((s.granted st watts).changeAxes k st (fun x =>
          { x with az := x.az.revoke, el := x.el.revoke }.examineBoth)).axesChanged k st
      else ((s.granted st watts).modStation st (Station.answerLevel false)).formClaim k st := by
  unfold State.driveGrant
  dsimp only
  rw [← State.granted, State.station_granted, if_neg (by omega), if_pos ⟨h, hw⟩]
  rfl

theorem State.driveGrant_stands (h : watts ≤ (s.station st).claim.granted)
    (hw : watts = (s.station st).claim.granted ∨ (s.station st).claim.wanted ≤ watts) :
    s.driveGrant k st watts = s.granted st watts := by
  unfold State.driveGrant
  dsimp only
  rw [← State.granted, State.station_granted, if_neg (by omega)]
  refine if_neg ?_
  rintro ⟨lt, wants⟩
  have wants : watts < (s.station st).claim.wanted := wants
  omega

end DriveGrant

/-- Settles O25: the needs by the states of R77, each answer and each taking by its cases. -/
theorem claimFollowsTheNeeds : Obligations.ClaimFollowsTheNeeds := by
  refine ⟨fun a => ⟨Axis.needNow_slew, Axis.needNow_track, Axis.needNow_stowing, Axis.needNow_releasing,
    Axis.needNow_none⟩, fun x => ?_, fun k s st => ?_, fun k s st f => ?_, fun k s st => ?_,
    fun k s st watts => ?_, fun st claim r order => ?_⟩
  · intro na ne slew track powered
    have claim := x.reform_claim
    rw [← show { x.reform with claim := x.reform.claim } = x.reform from rfl, claim]
    rfl
  · exact if_congr (ClaimRecord.same_iff _ _) rfl rfl
  · intro t awaits
    have waits := Station.newlyAwaiting_iff (s.station st) (f (s.station st))
    rw [State.changeAxes_eq]
    exact ⟨fun h => if_pos (waits.2 h), fun h => if_neg (mt waits.1 h)⟩
  · intro x
    refine ⟨fun h => if_pos h, fun h => if_neg (Nat.not_le.2 h), fun ax => ?_⟩
    refine ⟨fun r h hr => ?_, State.releaseAxis_not⟩
    have judged := State.releaseAxis_eq (k := k) h hr
    refine ⟨fun lo hi => judged.trans (if_pos ⟨lo, hi⟩), fun out => judged.trans (if_neg ?_)⟩
    rintro ⟨lo, hi⟩
    exact out.elim (fun lt => absurd lo (Int.not_le.2 lt)) (fun lt => absurd hi (Int.not_le.2 lt))
  · intro x powered level t u enters moves rises falls brakes examine moving
    have answers {b : Bool} {f : Axis → Axis} (h : ∀ a, a.answerLevel b level = f a) :
        (s.granted st watts).modStation st (Station.answerLevel b) = moves f := by
      refine State.modStation_ext ?_
      rw [State.station_granted]
      exact congrArg₂ (fun a b => { x.takeGrant watts with az := a, el := b }) (h x.az) (h x.el)
    have rising := answers (f := rises) fun a => a.answerLevel_rise level
    have falling := answers (f := falls) fun a => a.answerLevel_fall level
    refine ⟨fun h => ?_, fun h hw => ⟨fun zero hm => ?_, fun n => ?_⟩, State.driveGrant_stands⟩
    · rw [← rising]
      exact State.driveGrant_rise h
    · refine (State.driveGrant_revoked h hw).trans (if_pos ⟨zero, ?_⟩)
      rwa [Bool.or_eq_true]
    · rw [← falling]
      refine (State.driveGrant_revoked h hw).trans (if_neg ?_)
      rintro ⟨zero, hm⟩
      rw [Bool.or_eq_true] at hm
      exact n.elim (fun n => n zero) (fun n => n hm)
  · intro c p held addition gone takes
    refine ⟨fun h => ?_, fun h hg => ?_, fun hg => ?_⟩
    · exact ⟨_, PowerRun.takeDrive_withdrawn h, fun n => if_neg n, fun n => if_pos (not_not.1 n)⟩
    · exact ⟨_, PowerRun.takeDrive_lowered h hg, fun n => if_neg n, fun n => if_pos (not_not.1 n)⟩
    · intro raised kept
      have taken {l : List Waiting} (e : Waiting.raised c claim.cls addition p.waiting = l) :
          raised l := ⟨_, e ▸ PowerRun.takeDrive_raised hg, False.elim, fun _ => rfl⟩
      exact ⟨fun w ⟨hw, hc, ha⟩ => taken (Waiting.raised_in_place hw hc ha),
        fun n => taken (Waiting.raised_behind order n)⟩

end Sys2Proof.Machine
end

section
/-! PROOFS. The examination of a BRAKED axis (R70), the run-out of HOLDING (R76) and RECOVER_AXIS (R83). -/

namespace Sys2Proof.Machine

variable {k : Settle} {s : State} {st : StationId} {ax : AxisId}

/-! ### The examination (R70) -/

theorem Link.amplifier_iff (l : Link) (ax : AxisId) :
    l.amplifier ax = true ↔ l.up = true ∧ ∃ r, l.report = some r ∧ r.ready ax = true := by
  unfold Link.amplifier
  cases l.report <;> simp

section Examine

variable {a : Axis} {cfg : AxisConfig} {t : Target} {l : Link} {p : Int × Int}

theorem Axis.examine_stands (h : a.state ≠ .braked ∨ t.source = .none ∨ l.amplifier ax = false) :
    a.examine ax cfg t l = a :=
  if_pos h

theorem Axis.examine_awaits (h : a.state = .braked) (hl : l.amplifier ax = true)
    (hs : t.source = .book ∨ t.source = .sweep ∨ t.source = .shed) :
    a.examine ax cfg t l = a.toAwaiting := by
  unfold Axis.examine
  obtain hs | hs | hs := hs <;> simp [h, hl, hs]

theorem Axis.examine_stow (h : a.state = .braked) (hl : l.amplifier ax = true)
    (hs : t.source = .stow) (hp : t.stow = some p) : a.examine ax cfg t l =
      if a.stowMet cfg (AxisId.of ax p) then a.toStowed else a.toAwaiting := by
  unfold Axis.examine
  simp [h, hl, hs, hp]

/-- Above its own lower limit an axis is demanded the target, brought to the nearer limit (R57). -/
theorem limitDemand_own {cfg : AxisConfig} (h : cfg.lmin ≤ cfg.lmax) (d : Int) :
    (limitDemand cfg cfg.lmin d).demand = max cfg.lmin (min cfg.lmax d) := by
  unfold limitDemand
  split_ifs <;> dsimp only <;> omega

theorem Axis.stowMet_iff (h : cfg.lmin ≤ cfg.lmax) (d : Int) : a.stowMet cfg d = true ↔
    (cfg.lmin ≤ a.c ∧ a.c ≤ cfg.lmax) ∧
      (max cfg.lmin (min cfg.lmax d) - a.c).natAbs ≤ cfg.window := by
  simp only [Axis.stowMet, withinWindow, limitDemand_own h, Bool.and_eq_true, decide_eq_true_eq]

end Examine

/-! ### An axis braked and examined (R76, R83) -/

/-- The two steps on a station: the axis braked, then examined. -/
def Station.rebrake (ax : AxisId) (x : Station) : Station := (x.modAxis ax Axis.brake).examine ax

/-- The two steps change one axis, as the station's own records tell. -/
theorem Station.rebrake_eq (ax : AxisId) (x : Station) : Station.rebrake ax x =
    x.modAxis ax (fun a => a.brake.examine ax (x.cfg.axis ax) x.target x.link) := by
  cases ax <;> rfl

/-- What the examination does to the braked axis is settled with all that follows from it. -/
theorem Kept.rebrake (ax : AxisId) (st : StationId) (s : State) :
    Settled (s.modAxis st ax Axis.brake) (s.changeAxes Machine.settle st (Station.rebrake ax)) := by
  have examined : Settled (s.modAxis st ax Axis.brake)
      ((s.modAxis st ax Axis.brake).modStation st (fun x => x.examine ax)) :=
    .modStation (.examine _ ax) fun _ _ _ => .examine _ ax
  rw [State.modAxis, State.modStation_twice] at examined
  exact examined.trans (.after_changeAxes Kept.settle s st _)

/-- The axis holds, and its hold-idle timer stands at 0 (R76). -/
abbrev Axis.heldOut (a : Axis) : Prop := a.state = .holding ∧ a.holdIdle = some 0

theorem exec_holdIdleExpiry_eq : exec (.holdIdleExpiry st ax) s = event s (fun s =>
    if ((s.station st).axis ax).heldOut then
      (s.changeAxes settle st (Station.rebrake ax)).axesChanged settle st
    else s) := rfl

/-! ### RECOVER_AXIS (R83) -/

theorem Code.axis_eq {x : Nat} (h : x = if ax = .az then 0 else 1) : Code.axis x = some ax := by
  subst h
  cases ax <;> rfl

theorem Station.refusesRecovery_iff (x : Station) (ax : AxisId) : x.refusesRecovery ax = true ↔
    (x.axis ax).state ≠ .faulted ∨ x.link.up = false ∨ x.link.report = none ∨
      ∃ r, x.link.report = some r ∧ (r.ready ax = false ∨ r.limitSwitch ax = true) := by
  unfold Station.refusesRecovery Link.amplifier
  cases x.link.report <;> simp [or_assoc]

theorem State.takeRecoverAxis_eq {page : PageId} {target : BitVec 16} {axis : BitVec 8}
    (ht : target.toNat = st.val) (hr : (s.station st).retired = false)
    (hx : axis.toNat = if ax = .az then 0 else 1) : s.takeRecoverAxis k page target axis =
      if (s.station st).refusesRecovery ax then s.answer page .notNow []
      else ((s.changeAxes k st (Station.rebrake ax)).ableToMove k st).answer page .done [] := by
  unfold State.takeRecoverAxis
  rw [State.onStation_eq ht hr, State.named_some (Code.axis_eq hx)]
  rfl

/-- Settles O26: the examination by the source, the two commands by whether they act. -/
theorem brakedAxesAreExamined : Obligations.BrakedAxesAreExamined := by
  refine ⟨fun a ax cfg t l => ⟨fun h => ?_, fun r h up report ready => ?_⟩, fun s st ax => ?_⟩
  · refine Axis.examine_stands (h.imp id (Or.imp id fun dead => ?_))
    rw [← Bool.not_eq_true, Link.amplifier_iff]
    rintro ⟨up, r, report, ready⟩
    obtain down | none | ⟨r', report', unready⟩ := dead
    · simp [up] at down
    · simp [report] at none
    · obtain rfl : r = r' := by simpa [report] using report'
      simp [ready] at unready
  · have live : l.amplifier ax = true := (l.amplifier_iff ax).2 ⟨up, r, report, ready⟩
    refine ⟨fun hs => ?_, fun p hs hp limits => ?_⟩
    · rw [Axis.examine_awaits h live hs]
      exact ⟨rfl, rfl, rfl⟩
    · intro target d met
      have isMet : a.stowMet cfg (AxisId.of ax p) = true ↔ met := by
        rw [Axis.stowMet_iff limits, AxisId.of_eq]
      rw [Axis.examine_stow h live hs hp]
      refine ⟨fun m => ?_, fun m => ?_⟩
      · rw [if_pos (isMet.2 m)]
        exact ⟨rfl, rfl, rfl⟩
      · rw [if_neg (mt isMet.1 m)]
        exact ⟨rfl, rfl, rfl⟩
  · intro x a braked examined changed
    have settled : Settled braked _ := Kept.rebrake ax st s
    have same : s.changeAxes settle st (Station.rebrake ax) = changed :=
      congrArg (fun f => s.changeAxes settle st f)
        (funext (Station.rebrake_eq ax) : Station.rebrake ax = examined)
    refine ⟨fun h ht => ⟨_, ?_, settled.trans (.axesChanged Kept.settle st _),
      congrArg (fun u => u.axesChanged settle st) same⟩, fun n => ?_,
      fun page target axis free ht hr hx => ?_⟩
    · exact exec_holdIdleExpiry_eq.trans (event_guarded (c := fun s => _) ⟨h, ht⟩)
    · refine exec_holdIdleExpiry_eq.trans (event_unguarded fun out : a.heldOut => ?_)
      exact n.elim (fun n => n out.1) (fun n => n out.2)
    · intro refused
      have take := State.takeRecoverAxis_eq (k := settle) (page := page) ht hr hx
      have refuses : x.refusesRecovery ax = true ↔ refused := x.refusesRecovery_iff ax
      refine ⟨fun h => request_answer free (take.trans (if_pos (refuses.2 h))), fun h => ?_⟩
      refine ⟨_, ?_, settled.trans (.ableToMove Kept.settle st _),
        congrArg (fun u => u.ableToMove settle st) same⟩
      refine (request_eq free _).trans ?_
      rw [take, if_neg (mt refuses.1 h)]

end Sys2Proof.Machine
end

section
/-! PROOFS. The tracking monitor (R80), the release count (R72) and the entry into FAULTED (R79), at an expiry and
as commands. -/

namespace Sys2Proof.Machine

variable {k : Settle} {s : State} {st : StationId} {ax : AxisId}

/-! ### The tracking monitor on one axis (R80) -/

section Monitor

variable {a : Axis} {limit : Nat} {e : Int}

theorem Axis.monitor_within (he : a.error = some e) (h : e.natAbs ≤ limit) :
    a.monitor limit = ({ a with errorRun := 0 }, false) := by
  unfold Axis.monitor
  rw [he]
  exact if_pos h

theorem Axis.monitor_beyond (he : a.error = some e) (h : limit < e.natAbs) : a.monitor limit =
    if a.errorRun < 9 then ({ a with errorRun := a.errorRun + 1 }, false) else (a, true) := by
  unfold Axis.monitor
  rw [he]
  exact (if_neg (Nat.not_le.2 h)).trans (if_congr Nat.succ_lt_succ_iff rfl rfl)

/-- The monitor faults at the tenth expiry in a row beyond the limit. -/
theorem Axis.monitor_faults_iff (a : Axis) (limit : Nat) : (a.monitor limit).2 = true ↔
    9 ≤ a.errorRun ∧ ∃ e, a.error = some e ∧ limit < e.natAbs := by
  cases he : a.error with
  | none => simp [Axis.monitor, he]
  | some e =>
    by_cases h : e.natAbs ≤ limit
    · simp [Axis.monitor_within he h, h]
    · rw [Axis.monitor_beyond he (Nat.not_le.1 h)]
      split <;> simp_all

end Monitor

/-! ### One axis at an expiry (R65, R66, R72) -/

theorem Axis.countUp_eq (a : Axis) : a.countUp = { a with
    releaseCount := if a.state = .releasing then a.releaseCount.map (fun n => n + 1)
      else a.releaseCount } := by
  unfold Axis.countUp
  split <;> rfl

/-- What an expiry leaves of an axis's state, its error run and its release count. -/
theorem Station.computeAxis_counts (x : Station) (z : Zone) (book : Option BookTarget) (t : Nat)
    (ax : AxisId) :
    let a := x.axis ax
    let b := (x.computeAxis z book t ax).axis ax
    b.state = a.state ∧ b.errorRun = a.errorRun ∧ b.releaseCount =
      if a.state = .releasing then a.releaseCount.map (fun n => n + 1) else a.releaseCount := by
  intro a b
  have out : b = _ := x.axis_computeAxis z book t ax
  rw [out, Axis.countUp_eq]
  split
  · exact ⟨rfl, rfl, rfl⟩
  · next idle =>
    have still : (x.axis ax).state ≠ .releasing := fun h => idle (by rw [h]; rfl)
    exact ⟨rfl, rfl, (if_neg still).symm⟩

/-! ### The monitor at an expiry -/

theorem State.modAxis_ext {f g : Axis → Axis}
    (h : f ((s.station st).axis ax) = g ((s.station st).axis ax)) :
    s.modAxis st ax f = s.modAxis st ax g :=
  State.modStation_ext (Station.modAxis_ext h)

theorem State.monitorAxis_still (h : ((s.station st).axis ax).state.moving = false) :
    s.monitorAxis k st ax = s :=
  if_neg (by rw [h]; decide)

theorem State.monitorAxis_moving (h : ((s.station st).axis ax).state.moving = true) :
    let m := ((s.station st).axis ax).monitor ((s.station st).cfg.axis ax).errorLimit
    s.monitorAxis k st ax =
      if m.2 then s.faultAxis k st ax .tracking else s.modAxis st ax (fun _ => m.1) :=
  if_pos h

/-! ### The release count at an expiry (R72) -/

/-- The axis with its release count held at its greatest value. -/
def Axis.heldCount (a : Axis) : Axis :=
  { a with releaseCount := a.releaseCount.map (fun n => min n 49) }

theorem State.countRelease_not (h : ¬ (((s.station st).axis ax).state = .releasing ∧
    ∃ n, ((s.station st).axis ax).releaseCount = some n ∧ 0 < n)) : s.countRelease k st ax = s := by
  rw [← Axis.judged_iff] at h
  exact if_neg h

section Judged

variable (h : ((s.station st).axis ax).state = .releasing ∧
  ∃ n, ((s.station st).axis ax).releaseCount = some n ∧ 0 < n)

include h

/-- A release seen before is acted on, by the source at the moment of its report (R75). -/
theorem State.countRelease_seen (hs : ((s.station st).axis ax).releaseSeen = some true) :
    s.countRelease k st ax = s.modAxis st ax (fun _ => ((s.station st).axis ax).heldCount.release
      (((s.station st).axis ax).releaseSource.getD (s.station st).target.source)
      (s.station st).claim.grantedLevel (s.station st).cfg.holdIdle) := by
  rw [← Axis.judged_iff] at h
  exact ((if_pos h).trans (if_pos hs)).trans (State.modAxis_ext rfl)

theorem State.countRelease_unseen (hs : ((s.station st).axis ax).releaseSeen ≠ some true) :
    s.countRelease k st ax = if ((s.station st).axis ax).releaseCount.getD 0 < 50 then s
      else s.faultAxis k st ax .brake := by
  rw [← Axis.judged_iff] at h
  exact (if_pos h).trans (if_neg hs)

end Judged

/-! ### The two faults as commands -/

/-- A fault latches class AXIS, whatever follows from it. -/
theorem State.latched_afterFault (hk : ∀ s, Settled s (k s)) (st : StationId) (s : State) :
    (s.afterFault k st).exchange.summary.getLsbD 3 = true := by
  unfold State.afterFault
  dsimp only
  have kept := (Kept.abandon hk st .fault ((s.formClaim k st).bump (.axisFaults st))).trans
    (.joinExposed hk st .fault _)
  exact kept.latched (SummaryClass.bit_or .axis _ 3 rfl)

/-- The monitor faults the moving axis at its next judgement (R80). -/
abbrev Axis.trips (a : Axis) (limit : Nat) : Prop :=
  a.state.moving = true ∧ (a.monitor limit).2 = true

theorem exec_trackingFault_eq : exec (.trackingFault st ax) s = event s (fun s =>
    if ((s.station st).axis ax).trips ((s.station st).cfg.axis ax).errorLimit then
      s.faultAxis settle st ax .tracking
    else s) := rfl

/-- The next expiry of the axis is the 50th without its release reported (R72). -/
abbrev Axis.late (a : Axis) : Prop :=
  a.state = .releasing ∧ a.releaseSeen ≠ some true ∧ 49 ≤ a.releaseCount.getD 0

theorem exec_brakeTimeout_eq : exec (.brakeTimeout st ax) s = event s (fun s =>
    if ((s.station st).axis ax).late then s.faultAxis settle st ax .brake else s) := by
  change execBrakeTimeout st ax s = _
  unfold execBrakeTimeout
  refine congrArg (event s) (funext fun s => if_congr ?_ rfl rfl)
  exact and_congr Iff.rfl (and_congr Iff.rfl Nat.succ_le_succ_iff)

/-- Settles O27: the monitor and the release count by their cases, the two commands by whether they act. -/
theorem axisMonitorsFault : Obligations.AxisMonitorsFault := by
  refine ⟨fun a limit e he => ⟨Axis.monitor_within he, fun h hr => ?_, fun h hr => ?_⟩,
    fun x z book t ax => ?_, fun k s st ax => ?_, fun s st ax => ?_⟩
  · rw [Axis.monitor_beyond he h, if_pos hr]
  · exact (a.monitor_faults_iff limit).2 ⟨hr, e, he, h⟩
  · obtain ⟨state, run, count⟩ := x.computeAxis_counts z book t ax
    exact ⟨state, run, fun h => count.trans (if_pos h), fun h => count.trans (if_neg h)⟩
  · intro x a m judged
    refine ⟨State.monitorAxis_still, fun h => ⟨fun trips => ?_, fun runs => ?_⟩,
      State.countRelease_not, fun h seen => ?_, fun h unseen => ⟨fun lt => ?_, fun ge => ?_⟩,
      fun r => rfl⟩
    · exact (State.monitorAxis_moving h).trans (if_pos trips)
    · exact (State.monitorAxis_moving h).trans (if_neg (Bool.eq_false_iff.1 runs))
    · intro goes enters src
      have out {b : Axis} (e : a.heldCount.release src x.claim.grantedLevel x.cfg.holdIdle = b) :
          goes b := e ▸ State.countRelease_seen h seen
      refine ⟨fun e => out ?_, fun e => out ?_, fun es en => ⟨fun on => out ?_,
        fun off => ⟨fun l => out ?_, fun l => out ?_, fun l => out ?_⟩⟩⟩
      · rw [e]; rfl
      · rw [e]; rfl
      · rw [Axis.release_on (a := a.heldCount) es en on]; rfl
      all_goals
        obtain ⟨slew, track, none⟩ :=
          Axis.release_off (a := a.heldCount) (seconds := x.cfg.holdIdle) es en off
      · rw [l]; exact slew
      · rw [l]; exact track
      · rw [l]; exact none
    · exact (State.countRelease_unseen h unseen).trans (if_pos lt)
    · exact (State.countRelease_unseen h unseen).trans (if_neg (Nat.not_lt.2 ge))
  · intro a faulted trips late after
    have faults (r : AxisFault) : Settled (faulted r) (s.faultAxis settle st ax r) ∧
        s.faultAxis settle st ax r = after r ∧
        (s.faultAxis settle st ax r).exchange.summary.getLsbD 3 = true :=
      ⟨Kept.faultAxis Kept.settle st ax r s, rfl, State.latched_afterFault Kept.settle st _⟩
    have runsOut : a.trips ((s.station st).cfg.axis ax).errorLimit ↔ trips :=
      and_congr Iff.rfl (a.monitor_faults_iff _)
    refine ⟨fun h => ⟨_, ?_, faults .tracking⟩, fun n => ?_, fun h => ⟨_, ?_, faults .brake⟩, fun n => ?_⟩
    · exact exec_trackingFault_eq.trans (event_guarded (c := fun s => _) (runsOut.2 h))
    · exact exec_trackingFault_eq.trans (event_unguarded (mt runsOut.1 n))
    · exact exec_brakeTimeout_eq.trans (event_guarded (c := fun s => _) h)
    · exact exec_brakeTimeout_eq.trans (event_unguarded n)

end Sys2Proof.Machine
end

section
/-! PROOFS. PB's law through the operations of an event (R90, R104). A change outside PB leaves all that the
law speaks of, what the settling of an event does to it is taken from `Kept`, and every other operation is
followed through its branches, in the order in which the model defines them. -/

namespace Sys2Proof.Machine

/-- PB's law, as the operations carry it from state to state. -/
def State.Budgeted (s : State) : Prop := Law.power s

namespace State.Budgeted

variable {s t : State} {st : StationId} {area : Area} {ax : AxisId} {z : ZoneId} {x : TableId}

/-! ### Changes outside PB, branches, lists and settling -/

theorem same (h : s.Budgeted) (hp : t.power = s.power) (hw : t.work = s.work) : t.Budgeted := by
  unfold Budgeted Law.power at *
  rw [hp, hw]
  exact h

theorem modStation {f : Station → Station} (h : s.Budgeted) : (s.modStation st f).Budgeted := h

theorem modZone {f : Zone → Zone} (h : s.Budgeted) : (s.modZone z f).Budgeted := h

theorem modTable {f : SweepTable → SweepTable} (h : s.Budgeted) : (s.modTable x f).Budgeted := h

theorem modTime {f : TimeUnit → TimeUnit} (h : s.Budgeted) : (s.modTime f).Budgeted := h

theorem modSensing {f : Sensing → Sensing} (h : s.Budgeted) : (s.modSensing f).Budgeted := h

theorem bump {y : Tally} (h : s.Budgeted) : (s.bump y).Budgeted := h

theorem answer {page : PageId} {r : Result} {d : List Byte} (h : s.Budgeted) :
    (s.answer page r d).Budgeted := h

/-- Through what settling keeps. -/
theorem kept {E : TableId → Prop} {Q : Prop} (h : s.Budgeted) (k : Kept E Q s t) : t.Budgeted :=
  k.power h

theorem branch {c : Prop} [Decidable c] (h : s.Budgeted) (k : t.Budgeted) :
    (if c then s else t).Budgeted := by
  split
  · exact h
  · exact k

/-- Through a step that is taken only under a condition. -/
theorem when {c : Prop} [Decidable c] (h : s.Budgeted) (k : s.Budgeted → t.Budgeted) :
    (if c then t else s).Budgeted := branch (k h) h

theorem eachOf {α : Type} {f : α → State → State} (hf : ∀ a {s}, Budgeted s → Budgeted (f a s))
    {l : List α} (h : s.Budgeted) : (eachOf l f s).Budgeted := by
  induction l generalizing s with
  | nil => exact h
  | cons a l ih => exact ih (hf a h)

theorem settle_leave {w : Work} (h : s.Budgeted) : (settle (s.leave w)).Budgeted :=
  h.kept ((Kept.leave (E := fun _ => False) (Q := True) w).trans (Kept.settle _))

theorem modExchange {f : Exchange → Exchange} (h : s.Budgeted) : (s.modExchange f).Budgeted := h

theorem answerZone {page : PageId} {r : Result} (h : s.Budgeted) :
    (s.answerZone page r z).Budgeted := h.answer

theorem answerHeater {page : PageId} {r : Result} (h : s.Budgeted) :
    (s.answerHeater page r st area).Budgeted := h.answer

/-! ### Targets, claims and axes -/

theorem formClaim (h : s.Budgeted) : (s.formClaim settle st).Budgeted :=
  h.kept (Kept.formClaim (E := fun _ => False) (Q := True) Kept.settle st s)

theorem changeAxes {f : Station → Station} (h : s.Budgeted) :
    (s.changeAxes settle st f).Budgeted :=
  h.modStation.formClaim.when settle_leave

theorem decideSource (h : s.Budgeted) : (s.decideSource settle st).Budgeted :=
  h.kept (Kept.decideSource (E := fun _ => False) (Q := True) Kept.settle st s)

theorem judgeShed (h : s.Budgeted) : (s.judgeShed settle st).Budgeted :=
  h.kept (Kept.judgeShed (E := fun _ => False) (Q := True) Kept.settle st s)

theorem inputChanged (h : s.Budgeted) : (s.inputChanged settle st).Budgeted :=
  h.decideSource.judgeShed

theorem axesChanged (h : s.Budgeted) : (s.axesChanged settle st).Budgeted :=
  h.kept (Kept.axesChanged Kept.settle st s)

theorem ableToMove (h : s.Budgeted) : (s.ableToMove settle st).Budgeted :=
  h.kept (Kept.ableToMove Kept.settle st s)

theorem joinExposed {r : ExposeReason} (h : s.Budgeted) : (s.joinExposed settle st r).Budgeted :=
  h.kept (Kept.joinExposed Kept.settle st r s)

theorem afterFault (h : s.Budgeted) : (s.afterFault settle st).Budgeted :=
  h.kept (Kept.afterFault Kept.settle st s)

theorem faultAxis {r : AxisFault} (h : s.Budgeted) : (s.faultAxis settle st ax r).Budgeted :=
  h.modStation.afterFault

/-! ### Heater zones -/

theorem changeHeater {f : Heater → Heater} (h : s.Budgeted) :
    (s.changeHeater settle st area f).Budgeted :=
  h.modStation.kept (Settled.changeHeater Kept.settle s st area f rfl)

theorem judgeClaim (h : s.Budgeted) : (s.judgeClaim settle st area).Budgeted :=
  h.when changeHeater

theorem judgeProbe (h : s.Budgeted) : (s.judgeProbe settle st area).Budgeted :=
  h.when changeHeater

theorem judgeHeat (h : s.Budgeted) : (s.judgeHeat settle st area).Budgeted :=
  h.judgeProbe.judgeClaim

theorem judgeHeatBoth (h : s.Budgeted) : (s.judgeHeatBoth settle st).Budgeted :=
  h.judgeHeat.judgeHeat

theorem changeCall {f : Heater → Heater} (h : s.Budgeted) :
    (s.changeCall settle st area f).Budgeted :=
  branch h.modStation (branch h.modStation.judgeHeat h.modStation.changeHeater)

theorem faultHeater {r : HeatFault} {v : Nat} (h : s.Budgeted) :
    (s.faultHeater settle st area r v).Budgeted :=
  h.changeHeater.modStation.bump

theorem dropHeat (h : s.Budgeted) : (s.dropHeat settle st).Budgeted :=
  h.changeHeater.changeHeater

theorem reportCurrent {v : Nat} (h : s.Budgeted) :
    (s.reportCurrent settle st area v).Budgeted := by
  unfold State.reportCurrent
  dsimp only
  split
  · exact branch h.modStation.faultHeater h
  · exact branch h.modStation.faultHeater h
  all_goals exact h

theorem probeResult {ohms : Nat} (h : s.Budgeted) :
    (s.probeResult settle st area ohms).Budgeted := by
  unfold State.probeResult
  dsimp only
  refine branch ?_ h
  split
  · exact h.modStation.changeHeater.judgeClaim
  all_goals exact h.modStation.faultHeater

theorem judgeAuto (h : s.Budgeted) : (s.judgeAuto settle st area).Budgeted :=
  h.when changeCall

theorem heatPassEnd (h : s.Budgeted) : (s.heatPassEnd settle st).Budgeted :=
  h.judgeAuto.judgeAuto.judgeShed

/-! ### Books -/

theorem startDueBook (h : s.Budgeted) : (s.startDueBook st).Budgeted := by
  unfold State.startDueBook
  dsimp only
  split
  · exact h
  · split
    · exact h
    · exact branch h h

theorem readArmed {l : Letter} {a : Armed} {cursor : Nat × Nat} (h : s.Budgeted) :
    (s.readArmed st l a cursor).1.Budgeted := by
  unfold State.readArmed
  dsimp only
  split
  · exact h
  · split
    · split <;> exact h
    · split
      · exact h
      · split <;> exact h

theorem readBook (h : s.Budgeted) : (s.readBook st).1.Budgeted := by
  unfold State.readBook
  dsimp only
  split
  · exact h
  · split
    · exact h.readArmed
    · exact h.readArmed
    · exact h

theorem endValidation (h : s.Budgeted) : (s.endValidation st).Budgeted := h

theorem modBook {l : Letter} {f : Book → Book} (h : s.Budgeted) : (s.modBook st l f).Budgeted := h

theorem bookEvent {k : BookEventKind} {l : Letter} (h : s.Budgeted) :
    (s.bookEvent st k l).Budgeted := h

theorem supersede {l : Letter} (h : s.Budgeted) : (s.supersede st l).Budgeted :=
  branch h.modBook.bookEvent h

theorem acceptBook {l : Letter} {a : Armed} {page : PageId} (h : s.Budgeted) :
    (s.acceptBook st l a page).Budgeted :=
  branch h.endValidation.answer
    (branch h.endValidation.answer h.supersede.modBook.endValidation.answer)

theorem validateGroup {v : Validation} {page : PageId} (h : s.Budgeted) :
    (s.validateGroup st v page).Budgeted := by
  unfold State.validateGroup
  dsimp only
  split
  · exact h
  · split
    · exact h
    · exact branch h h.acceptBook

theorem validate (h : s.Budgeted) : s.validate.Budgeted := by
  unfold State.validate
  split
  · split
    · exact h.when validateGroup
    · exact h
  all_goals exact h

/-! ### Sweeps -/

/-- Settling, as `Kept` asks it of the operations on a table whose entries are being issued. -/
theorem settles (s : State) : Kept (fun _ => True) False s (settle s) := (Kept.settle s).weaken

theorem judgeEnd {n : Nat} (h : s.Budgeted) : (s.judgeEnd settle n x).Budgeted :=
  h.kept (Kept.judgeEnd Kept.settle n x s)

theorem cancelTable {late : Bool} (h : s.Budgeted) : (s.cancelTable settle x late).Budgeted := by
  have closed : (s.closeTable settle x .cancelled .cancelled).Budgeted :=
    h.kept (.closeTable settles trivial (by decide) .cancelled s)
  unfold State.cancelTable
  dsimp only
  split
  · next c => exact judgeEnd (closed.kept (.beginTable settles trivial true c.2.2.1))
  · exact closed

theorem abandon {r : SweepReason} (h : s.Budgeted) : (s.abandon settle st r).Budgeted :=
  h.kept (Kept.abandon Kept.settle st r s)

theorem clearHold (h : s.Budgeted) : (s.clearHold settle st).Budgeted :=
  h.kept (.clearHold settles .of_forget st)

theorem judgeRecord (h : s.Budgeted) : (s.judgeRecord settle x st).Budgeted :=
  branch h (branch h.modStation.modTable.clearHold (branch h h))

theorem judgeTable (h : s.Budgeted) : (s.judgeTable settle x).Budgeted :=
  branch ((h.eachOf fun _ => judgeRecord).kept (.judgeIssue settles trivial _)).judgeEnd h

theorem arriveStart (h : s.Budgeted) : (s.arriveStart settle x).Budgeted :=
  h.kept (.arriveStart x s)

theorem arriveAtTime (h : s.Budgeted) : (s.arriveAtTime settle x).Budgeted := by
  unfold State.arriveAtTime
  split
  · exact h
  · exact h.when arriveStart

theorem strobe (h : s.Budgeted) : (s.strobe settle x).Budgeted :=
  branch h.modTable.arriveStart h

/-! ### Wind zones -/

theorem judgeMembers (h : s.Budgeted) : (s.judgeMembers settle z).Budgeted :=
  h.eachOf fun _ => judgeShed

theorem moveZone {to_ : ZoneState} {f : Zone → Zone} (h : s.Budgeted) :
    (s.moveZone settle z to_ f).Budgeted :=
  kept (s := (s.modZone z _).zoneEvent z _) h
    (Kept.moveZone (E := fun _ => False) (Q := True) Kept.settle z to_ f s)

theorem stowedTest (h : s.Budgeted) : (s.stowedTest settle z).Budgeted :=
  h.when moveZone

theorem enterStowing (h : s.Budgeted) : (s.enterStowing settle z).Budgeted :=
  h.modZone.kept (Kept.enterStowing Kept.settle z s)

theorem moveByWeather (h : s.Budgeted) : (s.moveByWeather settle z).Budgeted :=
  branch h.moveZone (h.when moveZone)

theorem evaluate {passEnd : Bool} (h : s.Budgeted) :
    (s.evaluate settle passEnd z).Budgeted := by
  unfold State.evaluate
  dsimp only
  split
  case h_5 | h_8 | h_9 => exact h
  case h_6 | h_7 => exact h.modZone.moveByWeather
  case h_10 | h_11 => exact h.modZone.moveZone
  case h_12 => exact branch h h
  all_goals exact h.modZone.enterStowing

theorem windPassEnd (h : s.Budgeted) : (s.windPassEnd settle).Budgeted :=
  (h.eachOf fun _ _ => modZone).eachOf fun _ _ => evaluate

theorem deadlineOut (h : s.Budgeted) : (s.deadlineOut settle z).Budgeted := by
  have exposed : (Machine.eachOf ((s.modZone z (fun x => { x with deadline := none })).zone z).members
      (fun st => State.expose st .deadline)
        (s.modZone z (fun x => { x with deadline := none }))).Budgeted :=
    h.modZone.eachOf fun _ _ h => h.when modZone
  exact stowedTest (branch exposed exposed.modZone.bump)

theorem holdOut (h : s.Budgeted) : (s.holdOut settle z).Budgeted :=
  (h.modZone.eachOf fun _ => decideSource).modZone.bump.judgeMembers

theorem moveMember {old : ZoneId} (h : s.Budgeted) : (s.moveMember settle st old).Budgeted := by
  by_cases e : old = (s.station st).cfg.zone
  · rw [State.moveMember_same e]
    exact h
  · exact h.modZone.modZone.kept (State.moveMember_kept rfl e)

/-! ### Links -/

theorem loseLink (h : s.Budgeted) : (s.loseLink settle st).Budgeted := by
  rw [State.loseLink_eq]
  have faulted : (s.linkFaulted st).Budgeted := h
  exact ((faulted.when afterFault).when afterFault).dropHeat

theorem closeWindow (h : s.Budgeted) : (s.closeWindow settle st).Budgeted :=
  h.when (branch h.modStation ·.loseLink)

theorem linkExpiry (h : s.Budgeted) : (s.linkExpiry settle).Budgeted :=
  (h.eachOf fun _ => closeWindow).eachOf fun _ => modStation

theorem reportAxis {r : Report} (h : s.Budgeted) : (s.reportAxis settle st r ax).Budgeted := by
  unfold State.reportAxis
  dsimp only
  split
  · exact h.modStation.faultAxis
  · exact h

theorem afterAxes {before : Station} (h : s.Budgeted) :
    (s.afterAxes settle st before).Budgeted :=
  (h.formClaim.when settle_leave).axesChanged

theorem takeReport {r : Report} (h : s.Budgeted) : (s.takeReport settle st r).Budgeted := by
  unfold State.takeReport
  dsimp only
  generalize hu : (if (s.station st).link.up = true then _ else _) = u
  have linked : u.Budgeted := hu ▸ branch h.modStation h.modStation.judgeHeatBoth
  have judged := linked.reportAxis (st := st) (r := r) (ax := .az)
    |>.reportAxis (st := st) (r := r) (ax := .el)
    |>.afterAxes (st := st) (before := u.station st)
    |>.reportCurrent (st := st) (area := .reflector) (v := r.reflectorCurrent)
    |>.reportCurrent (st := st) (area := .feed) (v := r.feedCurrent)
  split
  · exact judged
  · exact judged.probeResult

/-! ### Lockouts -/

theorem placeTag {t : Tag} (h : s.Budgeted) : (s.placeTag settle st t).Budgeted := by
  unfold State.placeTag
  dsimp only
  exact ((((h.modStation.when (·.modStation.formClaim)).when dropHeat).abandon.when
    joinExposed).decideSource).modStation.bump

theorem placePending (h : s.Budgeted) : (s.placePending settle st).Budgeted :=
  h.when (·.modStation.placeTag)

theorem removeTag {n : Nat} {p : Party} (h : s.Budgeted) :
    (s.removeTag settle st n p).Budgeted := by
  unfold State.removeTag
  dsimp only
  exact (h.modStation.decideSource.ableToMove.when judgeHeatBoth).placePending.modStation.bump

theorem stopStation (h : s.Budgeted) : (s.stopStation settle st).Budgeted :=
  branch h (branch h h.placeTag)

theorem clearStation (h : s.Budgeted) : (s.clearStation settle st).Budgeted :=
  h.modStation.when removeTag

theorem panelAnswer {code : Nat → Bool} {act : StationId → State → State} {f : Frame}
    (h : s.Budgeted) (ha : ∀ st {s}, Budgeted s → (act st s).Budgeted) :
    (s.panelAnswer code act f).Budgeted :=
  branch (ha _ (s := s.panelHeard) h) h

theorem lock {f : Frame} (h : s.Budgeted) : (s.lock settle f st).Budgeted := by
  unfold State.lock
  dsimp only
  split
  · exact h
  · split
    · exact h
    · exact branch h (branch h h.placeTag.modStation)

theorem unlock {f : Frame} (h : s.Budgeted) : (s.unlock settle f st).Budgeted :=
  branch h (branch h.removeTag.modStation h)

/-! ### Sensing and array time -/

theorem passWork (h : s.Budgeted) : s.passWork.Budgeted :=
  eachOf (f := fun (e : SensingEvent) s => s.bump e.kind.tally) (fun _ _ => bump)
    (s := _) h

theorem takeValue {n : Nat} {v : Int} (h : s.Budgeted) : (s.takeValue n v).Budgeted := by
  unfold State.takeValue
  dsimp only
  split
  · exact h
  · exact branch (branch h h) h

theorem loadList (h : s.Budgeted) : s.loadList.Budgeted := by
  unfold State.loadList
  split
  · dsimp only
    split <;> exact h
  · exact h

theorem passBoundary (h : s.Budgeted) : (s.passBoundary settle).Budgeted := by
  unfold State.passBoundary
  exact (h.passWork.windPassEnd.eachOf fun _ => heatPassEnd).loadList.modSensing

theorem pulseTime (h : s.Budgeted) : s.pulseTime.Budgeted := by
  unfold State.pulseTime State.applySet State.snap State.countStep
  dsimp only
  split
  · exact branch h h
  · exact h
  all_goals exact branch h h

/-! ### The drive-interval expiry -/

theorem monitorAxis (h : s.Budgeted) : (s.monitorAxis settle st ax).Budgeted :=
  h.when (branch ·.faultAxis h.modStation)

theorem countRelease (h : s.Budgeted) : (s.countRelease settle st ax).Budgeted :=
  h.when (branch h.modStation <| branch h ·.faultAxis)

theorem startAtExpiry (h : s.Budgeted) : (s.startAtExpiry st).Budgeted :=
  branch h (branch h.startDueBook h.startDueBook.modStation)

theorem readAtExpiry (h : s.Budgeted) : (s.readAtExpiry st).Budgeted := branch h h.readBook

theorem bookPhase (h : s.Budgeted) : s.bookPhase.read.Budgeted := by
  rw [State.bookPhase_read]
  exact (h.eachOf fun _ => startAtExpiry).eachOf fun _ => readAtExpiry

theorem driveStation {b : BookPhase} (h : s.Budgeted) :
    (s.driveStation settle b st).Budgeted := by
  unfold State.driveStation
  dsimp only
  refine branch h ?_
  exact (h.when inputChanged).modStation.monitorAxis.monitorAxis.countRelease.countRelease.modStation
    |>.afterAxes

theorem judgeTables (h : s.Budgeted) : (s.judgeTables settle).Budgeted := by
  have first : (if (s.table 0).state.runs then s.judgeTable settle 0 else s).Budgeted :=
    h.when judgeTable
  exact first.when judgeTable

theorem driveExpiry (h : s.Budgeted) : (s.driveExpiry settle).Budgeted := by
  unfold State.driveExpiry
  exact (h.modTime.bookPhase.eachOf fun _ => driveStation).judgeTables.arriveAtTime.arriveAtTime
    |>.linkExpiry.modTime

end State.Budgeted
end Sys2Proof.Machine
end

section
/-! PROOFS. O34: PB's law through the requests, the resets, every command and every step (R90, R104). -/

namespace Sys2Proof.Machine
namespace State.Budgeted

variable {s t : State} {st : StationId} {area : Area} {ax : AxisId} {z : ZoneId} {x : TableId}

/-! ### The request kinds -/

theorem onStation {page : PageId} {target : BitVec 16} {f : StationId → State → State}
    (h : s.Budgeted) (hf : ∀ st, (f st s).Budgeted) : (s.onStation page target f).Budgeted := by
  unfold State.onStation
  split
  · exact h
  · exact branch h (hf _)

theorem onHeater {page : PageId} {target : BitVec 16} {f : StationId → Area → State → State}
    (h : s.Budgeted) (hf : ∀ st area, (f st area s).Budgeted) :
    (s.onHeater page target f).Budgeted := by
  unfold State.onHeater
  split
  · exact h
  · exact branch h (hf _ _)

theorem onZone {page : PageId} {target : BitVec 16} {f : ZoneId → State → State}
    (h : s.Budgeted) (hf : ∀ z, (f z s).Budgeted) : (s.onZone page target f).Budgeted := by
  unfold State.onZone
  split
  · exact h
  · exact hf _

theorem onTable {page : PageId} {target : BitVec 16} {f : TableId → State → State}
    (h : s.Budgeted) (hf : ∀ x, (f x s).Budgeted) : (s.onTable page target f).Budgeted := by
  unfold State.onTable
  split
  · exact h
  · exact hf _

theorem named {α : Type} {page : PageId} {code : Option α} {f : α → State → State}
    (h : s.Budgeted) (hf : ∀ a, (f a s).Budgeted) : (s.named page code f).Budgeted := by
  unfold State.named
  split
  · exact h
  · exact hf _

section Takes

variable {page : PageId} {target : BitVec 16}

theorem setTimeNow {value : Nat} (h : s.Budgeted) : (s.setTimeNow value).Budgeted := branch h h

theorem takeSetTime {value : BitVec 48} {mode : BitVec 8} (h : s.Budgeted) :
    (s.takeSetTime page value mode).Budgeted :=
  h.named fun
    | .immediate => h.setTimeNow.answer
    | .atPulse => branch h.modTime.answer h.answer

theorem takeArmBook {letter : BitVec 8} {number : BitVec 16} (h : s.Budgeted) :
    (s.takeArmBook page target letter number).Budgeted :=
  h.onStation fun _ => h.named fun _ =>
    branch h.answer (branch h.answer h.modStation.modExchange)

theorem takeDisarmBook (h : s.Budgeted) : (s.takeDisarmBook page target).Budgeted := by
  refine h.onStation fun st => ?_
  split <;> exact h

theorem takeStopBook (h : s.Budgeted) : (s.takeStopBook settle page target).Budgeted := by
  refine h.onStation fun st => ?_
  split
  · exact h
  · exact h.modStation.inputChanged.answer

theorem redecideSource (h : s.Budgeted) : (s.redecideSource settle st).Budgeted :=
  h.kept (Kept.redecideSource (E := fun _ => False) (Q := True) Kept.settle st s)

theorem configure {cfg : StationConfig} (h : s.Budgeted) :
    (s.configure settle st cfg).Budgeted := by
  unfold State.configure
  have placed := h.modStation (st := st) (f := fun x => { x with cfg := cfg })
  exact (placed.moveMember (st := st) (old := (s.station st).cfg.zone)).redecideSource.formClaim
    |>.axesChanged

theorem takeConfigureStation {raw : RawStationConfig} (h : s.Budgeted) :
    (s.takeConfigureStation settle page target raw).Budgeted :=
  h.onStation fun _ =>
    branch h.answer (branch h.answer (branch h.answer (branch h.answer h.configure.answer)))

theorem recover (h : s.Budgeted) : (s.recover settle st ax).Budgeted := h.changeAxes.ableToMove

theorem takeRecoverAxis {axis : BitVec 8} (h : s.Budgeted) :
    (s.takeRecoverAxis settle page target axis).Budgeted :=
  h.onStation fun _ => h.named fun _ => branch h.answer h.recover.answer

/-- A change of the budgets or of the alarm: either the budget in force stands, or PB has it to act on. -/
theorem rebudget {f : Power → Power} (hf : ∀ p, (f p).grants = p.grants) (h : s.Budgeted) :
    (s.rebudget settle f).Budgeted := by
  have single : Law.oneGrant (f s.power) := by
    unfold Law.oneGrant
    rw [hf]
    exact h.1
  unfold State.rebudget
  dsimp only
  split
  · next e =>
    have total : (f s.power).total = s.power.total := congrArg Grants.total (hf _)
    have inForce : (f s.power).inForce = s.power.inForce := e
    refine ⟨single, ?_⟩
    change (f s.power).total ≤ (f s.power).inForce ∨ _
    rw [total, inForce]
    exact h.2
  · have waits : ((s.modPower f).leave .budget).Budgeted := ⟨single, .inr (by simp)⟩
    exact waits.kept (Kept.settle _)

theorem takeSetBudget {normal emergency : BitVec 32} (h : s.Budgeted) :
    (s.takeSetBudget settle page normal emergency).Budgeted := by
  have changed (n m : Nat) :
      (s.rebudget settle (fun p => { p with normal := n, emergency := m })).Budgeted :=
    h.rebudget fun _ => rfl
  exact (changed _ _).answer

theorem takeLaunchSweep {source : BitVec 8} {start : BitVec 48} {timeout : BitVec 32}
    (h : s.Budgeted) : (s.takeLaunchSweep page target source start timeout).Budgeted := by
  refine h.onTable fun x => h.named fun src => branch h.answer (branch h.answer ?_)
  split
  · exact h.answer
  · exact h.modTable.answer

theorem takeCancelSweep (h : s.Budgeted) : (s.takeCancelSweep settle page target).Budgeted :=
  h.onTable fun _ => branch h.cancelTable.answer h.answer

theorem configureZone {cfg : ZoneConfig} (h : s.Budgeted) :
    (s.configureZone settle z cfg).Budgeted := by
  have evaluated : (((s.modZone z (fun x => { x with cfg := cfg })).judgeWeather z).evaluate settle
    false z).Budgeted := h.modZone.modZone.evaluate
  unfold State.configureZone
  dsimp only
  split
  · exact branch evaluated evaluated.moveZone.moveByWeather
  · exact branch evaluated.moveZone evaluated
  · exact branch evaluated.moveZone evaluated
  all_goals exact evaluated

theorem takeConfigureZone {raw : RawZoneConfig} (h : s.Budgeted) :
    (s.takeConfigureZone settle page target raw).Budgeted :=
  h.onZone fun _ => branch h.answer (branch h.configureZone.answerZone h.answer)

theorem orderZone {order : Bool} (h : s.Budgeted) :
    (s.orderZone settle z order).Budgeted := h.modZone.evaluate

theorem takeStowZone (h : s.Budgeted) : (s.takeStowZone settle page target).Budgeted :=
  h.onZone fun _ => h.orderZone.answerZone

theorem takeReleaseZone (h : s.Budgeted) : (s.takeReleaseZone settle page target).Budgeted :=
  h.onZone fun _ => h.orderZone.answerZone

theorem setMode {mode : HeatMode} (h : s.Budgeted) :
    (s.setMode settle st area mode).Budgeted := by
  unfold State.setMode
  dsimp only
  refine branch h ?_
  split
  · exact h.changeHeater
  · exact h.changeHeater.judgeProbe
  · exact h.changeCall

theorem takeSetHeatMode {mode : BitVec 8} (h : s.Budgeted) :
    (s.takeSetHeatMode settle page target mode).Budgeted :=
  h.onHeater fun _ _ => h.named fun _ => h.setMode.answerHeater

theorem manualDemand {demand : Bool} (h : s.Budgeted) :
    (s.manualDemand settle page demand st area).Budgeted := branch h.changeCall.answerHeater h.answer

theorem takeHeatOn (h : s.Budgeted) : (s.takeHeatOn settle page target).Budgeted :=
  h.onHeater fun _ _ => h.manualDemand

theorem takeHeatOff (h : s.Budgeted) : (s.takeHeatOff settle page target).Budgeted :=
  h.onHeater fun _ _ => h.manualDemand

theorem takeProbeHeater (h : s.Budgeted) : (s.takeProbeHeater settle page target).Budgeted :=
  h.onHeater fun _ _ => branch h.changeHeater.answerHeater h.answer

theorem takePlaceTag {kind scope : BitVec 8} {id : BitVec 16} (h : s.Budgeted) :
    (s.takePlaceTag settle page target kind scope id).Budgeted :=
  h.onStation fun _ => h.named fun _ => h.named fun _ =>
    branch h.answer (branch h.answer (branch h.answer h.placeTag.answer))

theorem takeClearReturn (h : s.Budgeted) : (s.takeClearReturn settle page target).Budgeted :=
  branch (h.eachOf fun _ => removeTag).answer
    (h.onStation fun _ => branch h.removeTag.answer h.answer)

theorem takeClearSite (h : s.Budgeted) : (s.takeClearSite settle page target).Budgeted :=
  branch (branch h.answer (h.eachOf fun _ => clearStation).answer)
    (h.onStation fun _ => branch h.answer (branch h.clearStation.answer h.answer))

theorem writeFuse {n : Nat} {p : Party} (h : s.Budgeted) : (s.writeFuse st n p).Budgeted :=
  h.modStation.modStation.bump

theorem takeRetireStation (h : s.Budgeted) : (s.takeRetireStation page target).Budgeted :=
  h.onStation fun _ => branch h.answer h.writeFuse.answer

theorem runPage (h : s.Budgeted) : (s.runPage settle page).Budgeted := by
  unfold State.runPage
  dsimp only
  split
  · exact h.takeSetTime
  · exact h.takeArmBook
  · exact h.takeDisarmBook
  · exact h.takeStopBook
  · exact h.takeConfigureStation
  · exact h.takeRecoverAxis
  · exact h.takeSetBudget
  · exact h.takeLaunchSweep
  · exact h.takeCancelSweep
  · exact h
  · exact h
  · exact h.takeConfigureZone
  · exact h.takeStowZone
  · exact h.takeReleaseZone
  · exact h.takeSetHeatMode
  · exact h.takeHeatOn
  · exact h.takeHeatOff
  · exact h.takeProbeHeater
  · exact h.takePlaceTag
  · exact h.takeClearReturn
  · exact h.takeClearSite
  · exact h.takeRetireStation
  · exact h

theorem take {rest : List PageId} (h : s.Budgeted) : (s.take settle page rest).Budgeted :=
  branch (runPage (s := (s.modExchange _).store _ _) h) h

end Takes

/-! ### The posting queue and the resets -/

theorem hostStore {l : List (BitVec 18 × Byte)} (h : s.Budgeted) : (s.hostStore l).Budgeted :=
  same h (congrArg Blocks.power (State.blocks_hostStore l s))
    (congrArg Blocks.work (State.blocks_hostStore l s))

theorem abandonRequest (h : s.Budgeted) : s.abandonRequest.Budgeted := by
  unfold State.abandonRequest
  dsimp only
  split <;> exact h

theorem resetTable (h : s.Budgeted) : (s.resetTable settle x).Budgeted := h.when cancelTable

theorem exchangeReset (h : s.Budgeted) : (s.exchangeReset settle).Budgeted :=
  h.abandonRequest.modExchange.resetTable.resetTable

theorem post {v : BitVec 32} (h : s.Budgeted) : (s.post v).Budgeted := branch h.bump h.modExchange

theorem publish (k : t.Budgeted) : (s.publish t).Budgeted := k

/-- After a full reset PB holds no grant (R105). -/
theorem afterReset (pending : List Instr) (mem : Mem) (fuses : StationId → Bool × Bool)
    (siteStow siteStop feederAlarm : Bool) (n : Nat) :
    (State.afterReset pending mem fuses siteStow siteStop feederAlarm n).Budgeted :=
  ⟨List.nodup_nil, .inl (Nat.zero_le _)⟩

/-! ### Run-outs, panels and commands -/

theorem endStart (h : s.Budgeted) : (s.endStart settle st area).Budgeted :=
  branch h.faultHeater h.changeHeater

theorem pulseTable (h : s.Budgeted) : (s.pulseTable settle x).Budgeted := by
  unfold State.pulseTable
  split
  · exact h
  · exact branch h.arriveStart h

theorem judgePanel (h : s.Budgeted) : (s.judgePanel st).Budgeted :=
  branch h (branch h.modStation h.modStation.bump)

theorem of_event {f : State → State} (e : event s f = .next t)
    (hf : (f s).Budgeted) : t.Budgeted :=
  event_next e ▸ hf.publish

/-- An event that acts only under its condition. -/
theorem of_guarded {c : State → Prop} [∀ s, Decidable (c s)] {f : State → State} (h : s.Budgeted)
    (e : event s (fun s => if c s then f s else s) = .next t) (hf : (f s).Budgeted) : t.Budgeted :=
  of_event e (h.when fun _ => hf)

theorem of_request {f : State → State} (h : s.Budgeted) (e : request s f = .next t)
    (hf : (f s).Budgeted) : t.Budgeted :=
  of_event e (branch h hf)

/-- A stage of the list in force, acted on where it is there. -/
theorem onStage {n : Nat} {f : Stage → State} (h : s.Budgeted) (hf : ∀ g, (f g).Budgeted) :
    (match s.stage n with
      | none => s
      | some g => f g).Budgeted := by
  split
  · exact h
  · exact hf _

end State.Budgeted

open State.Budgeted in
/-- Every command keeps PB's law. -/
theorem exec_budgeted {i : Instr} {s t : State} (h : s.Budgeted) (e : exec i s = .next t) :
    t.Budgeted := by
  unfold exec at e
  cases i with
  | requestTake =>
    refine of_event e (h.when fun _ => ?_)
    split
    · exact h
    · exact h.take
  | fullReset => cases e; exact afterReset ..
  | postWrite => exact of_event e h.hostStore.post
  | exchangeReset => exact of_event e h.modExchange.exchangeReset
  | summaryRead | maskWrite | intEnable => exact of_event e h
  | registerWriteIgnored => exact of_event e h.hostStore
  | setTime => exact h.of_request e h.takeSetTime
  | armBook => exact h.of_request e h.takeArmBook
  | disarmBook => exact h.of_request e h.takeDisarmBook
  | stopBook => exact h.of_request e h.takeStopBook
  | configureStation => exact h.of_request e h.takeConfigureStation
  | recoverAxis => exact h.of_request e h.takeRecoverAxis
  | setBudget => exact h.of_request e h.takeSetBudget
  | launchSweep => exact h.of_request e h.takeLaunchSweep
  | cancelSweep => exact h.of_request e h.takeCancelSweep
  | configureSensing | recalibrate => exact h.of_request e h
  | configureZone => exact h.of_request e h.takeConfigureZone
  | stowZone => exact h.of_request e h.takeStowZone
  | releaseZone => exact h.of_request e h.takeReleaseZone
  | setHeatMode => exact h.of_request e h.takeSetHeatMode
  | heatOn => exact h.of_request e h.takeHeatOn
  | heatOff => exact h.of_request e h.takeHeatOff
  | probeHeater => exact h.of_request e h.takeProbeHeater
  | placeTag => exact h.of_request e h.takePlaceTag
  | clearReturn => exact h.of_request e h.takeClearReturn
  | clearSite => exact h.of_request e h.takeClearSite
  | retireStation => exact h.of_request e h.takeRetireStation
  | validationCompletion => exact of_event e h.validate
  | sitePulse => exact h.of_guarded e h.modTime.pulseTime.pulseTable.pulseTable
  | pulseWatchExpiry => exact h.of_guarded e h.modTime.bump
  | sweepStrobe => exact of_event e h.strobe.strobe
  | siteStowChange =>
    exact of_event e (branch h
      (State.Budgeted.eachOf (s := { s with lines := _ }) (fun _ => evaluate) h))
  | siteStopChange =>
    exact of_event e (branch h (when (s := { s with lines := _ }) h
      (State.Budgeted.eachOf fun _ => stopStation)))
  | feederAlarmChange => exact of_event e (h.rebudget fun _ => rfl)
  | driveIntervalExpiry => exact h.of_guarded e h.driveExpiry
  | linkLoss => exact h.of_guarded e h.loseLink
  | reportFrame => exact h.of_guarded e h.takeReport
  | brakeTimeout | trackingFault => exact h.of_guarded e h.faultAxis
  | holdIdleExpiry => exact h.of_guarded e h.changeAxes.axesChanged
  | strobeTimeout => exact h.of_guarded e h.modTable.bump
  | settleTimeout =>
    refine of_event e ?_
    dsimp only
    split
    · exact h
    · exact h.when (·.modStation.modTable.judgeEnd)
  | passBoundary => exact h.of_guarded e h.passBoundary
  | quietRateEntry => exact h.of_guarded e h.modSensing
  | stageMisses | baselineStep | forcedRecalibration =>
    exact of_event e (h.onStage fun _ => branch h h)
  | sampleReply => exact h.of_guarded e h.takeValue
  | blindTimerExpiry => exact h.of_guarded e h.modZone.evaluate
  | stowDeadlineExpiry => exact h.of_guarded e h.deadlineOut
  | returnHoldExpiry => exact h.of_guarded e h.holdOut
  | probeWindowExpiry | overloadExpiry | openElementExpiry => exact h.of_guarded e h.faultHeater
  | energizeWindowExpiry => exact h.of_guarded e h.endStart
  | cooldownExpiry => exact h.of_guarded e h.changeHeater.judgeProbe
  | meltOffExpiry => exact h.of_guarded e h.changeCall
  | onRunExpiry => exact h.of_guarded e h.modStation.judgeShed
  | panelPoll => exact h.of_guarded e h
  | panelSlotEnd => exact h.of_guarded e (judgePanel h)
  | panelLost => exact h.of_guarded e h.modStation.bump
  | panelNone => exact of_event e (h.panelAnswer fun _ _ h => h)
  | panelLock => exact of_event e (h.panelAnswer fun _ => lock)
  | panelRelease => exact of_event e (h.panelAnswer fun _ => unlock)
  | retireConfirm => exact of_event e (h.panelAnswer fun _ _ h => branch h.modStation h)
  | unlistedPanelAnswer => exact of_event e (h.panelAnswer fun _ => modStation)

/-- Settles O34: a command keeps the law by what its event does and settles, and an idle millisecond touches
neither the grants nor the list of work. -/
theorem everyStepKeepsThePowerLaw : Obligations.EveryStepKeepsThePowerLaw := by
  intro s t h e
  obtain ⟨c, rest, -, e⟩ | ⟨-, -, e⟩ | ⟨-, -, rfl⟩ := step_cases e
  · exact exec_budgeted (s := { s with pending := rest }) h e
  · exact exec_budgeted h e
  · exact State.Budgeted.same h rfl rfl

end Sys2Proof.Machine
end

section
/-! PROOFS. O50: the run-outs that fault a heater zone (R94, R172, R174 to R176). -/

namespace Sys2Proof.Machine

/-! ### The fault of a zone -/

/-- A fault of a heater zone, field by field (R176). -/
theorem Heater.toFault_eq (h : Heater) (r : HeatFault) (now : Nat) : h.toFault r now = { h with
    state := if h.faultCount + 1 = 3 then .latched else .cooldown,
    cooldown := if h.faultCount + 1 = 3 then none else some 60000,
    cls := none, probeNamed := false, faultCount := h.faultCount + 1,
    lastFault := some (r, now), probeWindow := none, energize := none,
    overload := none, openElement := none, meltOff := none, onRun := none,
    onRunOut := false } := by
  unfold Heater.toFault
  dsimp only
  split <;> rfl

theorem Heater.toFault_not_probing (h : Heater) (r : HeatFault) (now : Nat) :
    (h.toFault r now).state ≠ .probing := by
  rw [Heater.toFault_eq]
  dsimp only
  split <;> decide

/-- A zone's fault with what PB and the shed order make of it: its probe request is gone (R176). -/
theorem Settled.fault (s : State) (st : StationId) (area : Area) (r : HeatFault) (now : Nat) :
    Settled (s.modStation st (fun x =>
        { x.modHeater area (fun h => h.toFault r now) with probeQueue := x.probeQueue.erase area }))
      (s.changeHeater settle st area (fun h => h.toFault r now)) :=
  Settled.changeHeater Kept.settle s st area _
    (if_neg (Heater.toFault_not_probing ((s.station st).heater area) r now)).symm

/-! ### The end of the start window -/

/-- A current outside 50 to 125 % of the rated current of every class the zone may hold (R174). -/
theorem Heater.startFails_iff (h : Heater) : (h.below 50 || h.above 125) = true ↔
    ∀ k, h.cls = some k → ¬ (k.rated ≤ 2 * h.current ∧ 4 * h.current ≤ 5 * k.rated) := by
  cases e : h.cls with
  | none => simp [Heater.below, e]
  | some kind =>
    rw [Bool.or_eq_true, Heater.below_iff e, Heater.above_iff e]
    constructor
    · rintro outside _ ⟨⟩
      omega
    · intro outside
      have := outside kind rfl
      omega

/-- An energize window that ends outside the band faults the zone. -/
theorem State.endStart_faults {s : State} {st : StationId} {area : Area} (k : Settle)
    (h : (((s.station st).heater area).below 50 || ((s.station st).heater area).above 125) = true) :
    s.endStart k st area =
      s.faultHeater k st area .startFault ((s.station st).heater area).current := if_pos h

/-- Settles O50: each of the four run-outs is an event that faults the zone where its timer stands at 0, and no
event where it does not. -/
theorem heaterRunOutsFault : Obligations.HeaterRunOutsFault := by
  intro s st area h good faults faulted noted row
  have toFault (r : HeatFault) : (fun h : Heater => h.toFault r s.time.time) = faults r :=
    funext fun h => h.toFault_eq r s.time.time
  have fault (k : Settle) (r : HeatFault) (value : Nat) : s.faultHeater k st area r value =
      noted r value (s.changeHeater k st area (faults r)) := by
    rw [← toFault]
    rfl
  have settled (r : HeatFault) : Settled (faulted r) (s.changeHeater settle st area (faults r)) := by
    have e := Settled.fault s st area r s.time.time
    rwa [toFault] at e
  have answers {i : Instr} {due : Prop} {r : HeatFault} {value : Nat} (e : due → exec i s =
      .next (s.publish (s.faultHeater settle st area r value))) : row i due r value :=
    fun d => ⟨_, settled r, rfl, fault settle r value ▸ e d⟩
  refine ⟨fault, answers fun d => ?_, fun n => ?_, answers ?_, fun n => ?_, answers fun d => ?_,
    fun n => ?_, answers fun d => ?_, fun n => ?_⟩
  · exact event_guarded (c := fun s => _) d
  · exact event_unguarded (c := fun s => _) n
  · rintro ⟨energizing, out, outside⟩
    rw [← State.endStart_faults settle (h.startFails_iff.2 outside)]
    exact event_guarded (c := fun s => _) ⟨energizing, out⟩
  · exact event_unguarded (c := fun s => _) n
  · exact event_guarded (c := fun s => _) d
  · exact event_unguarded (c := fun s => _) n
  · exact event_guarded (c := fun s => _) d
  · exact event_unguarded (c := fun s => _) n

end Sys2Proof.Machine
end

section
/-! PROOFS. O47: a change of a heater zone with the claim it makes or withdraws, and the changes of its heat
call (R94, R164, R165, R169, R170, R173). -/

namespace Sys2Proof.Machine

/-! ### The heat claim in PB (R94) -/

theorem PowerRun.takeHeat_eq {r : PowerRun} (o : Waiting.inOrder r.power.waiting) (st : StationId)
    (area : Area) (watts : Nat) : r.takeHeat st area watts = { r with power := { r.power with
      waiting := Waiting.behind (.heater st area) .heat (watts - r.power.granted (.heater st area))
        r.power.waiting } } := by
  unfold PowerRun.takeHeat
  dsimp only
  rw [Waiting.replace_eq o]

theorem PowerRun.dropHeat_eq (r : PowerRun) (st : StationId) (area : Area) :
    r.dropHeat st area = { r with
      power := { r.power with
        grants := r.power.grants.filter (fun g => g.claimant != .heater st area),
        waiting := r.power.waiting.filter (fun w => w.claimant != .heater st area) },
      touched := if r.power.granted (.heater st area) = 0 then r.touched
        else Claimant.once r.touched (.heater st area) } := by
  unfold PowerRun.dropHeat
  dsimp only
  split <;> rfl

/-! ### A change of a zone's record -/

theorem HeatState.claims_iff (x : HeatState) : x.claims = true ↔
    x = .waitingPower ∨ x = .energizing ∨ x = .on ∨ x = .shed := by
  cases x <;> decide

/-- A zone's record changed, and the probe requests put as given. -/
def State.putHeater (s : State) (st : StationId) (area : Area) (f : Heater → Heater) (q : List Area) :
    State :=
  s.modStation st (fun x => { x.modHeater area f with probeQueue := q })

/-- The probe requests after a change of a zone from one record to another (R27, R170). -/
def Heater.requests (h g : Heater) (area : Area) (q : List Area) : List Area :=
  if g.state = .probing then (if h.state = .probing then q else q.erase area ++ [area])
  else q.erase area

/-- What PB settles when a zone changes from one record to another (R94). -/
def State.settleClaim (k : Settle) (st : StationId) (area : Area) (h g : Heater) (s : State) : State :=
  if h.state.claims && !g.state.claims then k (s.leave (.heatWithdraw st area))
  else match g.cls with
    | some cls =>
      if !h.state.claims && g.state.claims then k (s.leave (.heat st area cls.watts)) else s
    | none => s

section Change

variable {k : Settle} {s : State} {st : StationId} {area : Area} {f g : Heater → Heater}
  {q : List Area}

theorem State.putHeater_station : (s.putHeater st area f q).station st =
    { (s.station st).modHeater area f with probeQueue := q } :=
  (State.station_modStation ..).trans (if_pos rfl)

theorem State.putHeater_heater :
    ((s.putHeater st area f q).station st).heater area = f ((s.station st).heater area) := by
  rw [State.putHeater_station, Station.heater_put]

theorem State.putHeater_mayHeat :
    ((s.putHeater st area f q).station st).mayHeat = (s.station st).mayHeat := by
  rw [State.putHeater_station, Station.mayHeat_put]

theorem State.putHeater_twice {q' : List Area} : (s.putHeater st area f q).putHeater st area g q' =
    s.putHeater st area (fun h => g (f h)) q' := by
  unfold State.putHeater
  rw [State.modStation_twice]
  exact State.modStation_ext (by cases area <;> rfl)

theorem State.modHeater_eq_put :
    s.modHeater st area f = s.putHeater st area f (s.station st).probeQueue :=
  State.modStation_ext (by cases area <;> rfl)

theorem State.putHeater_ext (h : f ((s.station st).heater area) = g ((s.station st).heater area)) :
    s.putHeater st area f q = s.putHeater st area g q := by
  refine State.modStation_ext ?_
  cases area
  · exact congrArg (fun h => { s.station st with reflector := h, probeQueue := q }) h
  · exact congrArg (fun h => { s.station st with feed := h, probeQueue := q }) h

/-- A change of a zone's record: the probe requests, PB, and for a REFLECTOR zone the shed order (R181). -/
theorem State.changeHeater_eq : s.changeHeater k st area f =
    let h := (s.station st).heater area
    let t := (s.putHeater st area f (h.requests (f h) area (s.station st).probeQueue)).settleClaim k st
      area h (f h)
    if area = .reflector ∧ h.state ≠ (f h).state then t.judgeShed k st else t := by
  have changed : ((s.modHeater st area f).station st).heater area = f ((s.station st).heater area) := by
    rw [State.modHeater_eq_put, State.putHeater_heater]
  unfold State.changeHeater
  dsimp only
  rw [changed]
  have queued : ((s.modHeater st area f).modStation st fun x => { x with
      probeQueue := ((s.station st).heater area).requests (f ((s.station st).heater area)) area
        x.probeQueue }) = s.putHeater st area f (((s.station st).heater area).requests
          (f ((s.station st).heater area)) area (s.station st).probeQueue) := by
    unfold State.modHeater State.putHeater
    rw [State.modStation_twice]
    exact State.modStation_ext (by cases area <;> rfl)
  unfold Heater.requests at queued
  rw [queued]
  rfl

theorem State.changeHeater_put (s : State) (st : StationId) (area : Area) (f g : Heater → Heater)
    (q : List Area) :
    Settled (s.putHeater st area (fun h => g (f h)) ((f ((s.station st).heater area)).requests
        (g (f ((s.station st).heater area))) area q))
      ((s.putHeater st area f q).changeHeater settle st area g) := by
  have h := Settled.changeHeater Kept.settle (s.putHeater st area f q) st area g rfl
  rw [State.putHeater_heater, State.putHeater_station] at h
  rw [← State.putHeater_twice (q := q)]
  exact h

/-! ### The claim that follows -/

theorem State.settleClaim_withdrawn {a b : Heater} (ha : a.state.claims = true)
    (hb : b.state.claims = false) : s.settleClaim k st area a b = k (s.leave (.heatWithdraw st area)) := by
  unfold State.settleClaim
  rw [ha, hb]
  rfl

theorem State.settleClaim_made {a b : Heater} {cls : HeatClass} (ha : a.state.claims = false)
    (hb : b.state.claims = true) (hc : b.cls = some cls) :
    s.settleClaim k st area a b = k (s.leave (.heat st area cls.watts)) := by
  unfold State.settleClaim
  rw [ha, hb, hc]
  rfl

theorem State.settleClaim_same {a b : Heater} (h : a.state.claims = b.state.claims) :
    s.settleClaim k st area a b = s := by
  unfold State.settleClaim
  rw [h]
  cases b.state.claims <;> cases b.cls <;> rfl

/-- A change of a record that leaves the zone's state. -/
theorem State.changeHeater_sameState
    (h : (f ((s.station st).heater area)).state = ((s.station st).heater area).state) :
    s.changeHeater k st area f = s.putHeater st area f
      (((s.station st).heater area).requests (f ((s.station st).heater area)) area
        (s.station st).probeQueue) := by
  rw [State.changeHeater_eq]
  dsimp only
  rw [if_neg fun e => e.2 h.symm, State.settleClaim_same (by rw [h])]

/-! ### The judgements of a zone that may heat (R170, R173) -/

theorem State.judgeProbe_probes (hi : ((s.station st).heater area).state = .idle)
    (hc : ((s.station st).heater area).call = true) (hm : (s.station st).mayHeat = true) :
    s.judgeProbe k st area = s.changeHeater k st area (fun h =>
      { h with state := .probing, probeNamed := false }) := if_pos ⟨hi, hc, hm⟩

theorem State.judgeProbe_not (h : ((s.station st).heater area).state ≠ .idle ∨
      ¬ (((s.station st).heater area).call = true ∧ (s.station st).mayHeat = true)) :
    s.judgeProbe k st area = s :=
  if_neg fun e => h.elim (fun n => n e.1) fun n => n e.2

theorem State.judgeClaim_claims (hr : ((s.station st).heater area).state = .ready)
    (hc : ((s.station st).heater area).call = true) (hm : (s.station st).mayHeat = true) :
    s.judgeClaim k st area = s.changeHeater k st area (fun h => { h with state := .waitingPower }) :=
  if_pos ⟨hr, hc, hm⟩

theorem State.judgeClaim_not (h : ((s.station st).heater area).state ≠ .ready ∨
      ¬ (((s.station st).heater area).call = true ∧ (s.station st).mayHeat = true)) :
    s.judgeClaim k st area = s :=
  if_neg fun e => h.elim (fun n => n e.1) fun n => n e.2

/-! ### The heat call (R165) -/

theorem Heater.call_iff (h : Heater) : h.call = true ↔ (h.mode = .manual ∧ h.manual = true) ∨
    (h.mode = .auto ∧ (h.auto = true ∨ h.meltOff ≠ none)) := by
  unfold Heater.call
  cases h.mode <;> simp [Option.isSome_iff_ne_none]

section Call

variable (same : (f ((s.station st).heater area)).state = ((s.station st).heater area).state)

include same in
/-- A call that rises in an IDLE zone: the zone enters PROBING, where what is settled with it leaves it, so
it is no zone that claims. -/
theorem State.judgeHeat_idle (hi : ((s.station st).heater area).state = .idle)
    (hc : (f ((s.station st).heater area)).call = true) (hm : (s.station st).mayHeat = true) :
    Settled (s.putHeater st area (fun h => { f h with state := .probing, probeNamed := false })
        ((s.station st).probeQueue.erase area ++ [area]))
      ((s.modHeater st area f).judgeHeat settle st area) := by
  have probed := State.changeHeater_put s st area f
    (fun h => { h with state := .probing, probeNamed := false }) (s.station st).probeQueue
  have idle : (f ((s.station st).heater area)).state ≠ .probing := by rw [same, hi]; decide
  rw [Heater.requests, if_pos rfl, if_neg idle] at probed
  rw [State.modHeater_eq_put, State.judgeHeat, State.judgeProbe_probes
    (by rw [State.putHeater_heater, same, hi]) (by rw [State.putHeater_heater, hc])
    (by rw [State.putHeater_mayHeat, hm])]
  have kept := ((probed.station st).heater area).idle (by rw [State.putHeater_heater]; rfl)
  rw [State.putHeater_heater] at kept
  rwa [State.judgeClaim_not (.inl (by rw [kept.1]; nofun))]

include same in
/-- A call that rises in a READY zone: the zone claims. -/
theorem State.judgeHeat_ready (hr : ((s.station st).heater area).state = .ready)
    (hc : (f ((s.station st).heater area)).call = true) (hm : (s.station st).mayHeat = true) :
    Settled (s.putHeater st area (fun h => { f h with state := .waitingPower })
        ((s.station st).probeQueue.erase area))
      ((s.modHeater st area f).judgeHeat settle st area) := by
  have claimed := State.changeHeater_put s st area f
    (fun h => { h with state := .waitingPower }) (s.station st).probeQueue
  rw [Heater.requests, if_neg (by nofun)] at claimed
  rw [State.modHeater_eq_put, State.judgeHeat, State.judgeProbe_not
    (.inl (by rw [State.putHeater_heater, same, hr]; decide)), State.judgeClaim_claims
    (by rw [State.putHeater_heater, same, hr]) (by rw [State.putHeater_heater, hc])
    (by rw [State.putHeater_mayHeat, hm])]
  exact claimed

include same in
/-- A call that rises in a zone of another state, or in one that may not heat. -/
theorem State.judgeHeat_not (h : ((s.station st).heater area).state ≠ .idle ∧
      ((s.station st).heater area).state ≠ .ready ∨ ¬ (s.station st).mayHeat = true) :
    (s.modHeater st area f).judgeHeat k st area =
      s.putHeater st area f (s.station st).probeQueue := by
  rw [State.modHeater_eq_put, State.judgeHeat]
  have still {x : HeatState} (n : ((s.station st).heater area).state ≠ x ∨
      ¬ (s.station st).mayHeat = true) :
      (((s.putHeater st area f (s.station st).probeQueue).station st).heater area).state ≠ x ∨
        ¬ ((((s.putHeater st area f (s.station st).probeQueue).station st).heater area).call = true ∧
          ((s.putHeater st area f (s.station st).probeQueue).station st).mayHeat = true) := by
    rw [State.putHeater_heater, State.putHeater_mayHeat, same]
    exact n.imp_right fun n e => n e.2
  rw [State.judgeProbe_not (still (h.imp_left And.left)),
    State.judgeClaim_not (still (h.imp_left And.right))]

/-- A zone that claims goes to READY at the end of its call (R169). -/
theorem Heater.endCall_eq (h : Heater) : h.endCall = if h.state = .waitingPower ∨
    h.state = .energizing ∨ h.state = .on ∨ h.state = .shed then { h with
      state := .ready, energize := none, overload := none, openElement := none, onRun := none,
      onRunOut := false } else h := by
  unfold Heater.endCall
  cases h.state <;> rfl

include same in
theorem State.endCall_claims (h : ((s.station st).heater area).state.claims = true) :
    Settled (s.putHeater st area (fun h => { f h with
        state := .ready, energize := none, overload := none, openElement := none, onRun := none,
        onRunOut := false }) ((s.station st).probeQueue.erase area))
      ((s.modHeater st area f).changeHeater settle st area Heater.endCall) := by
  have ended := State.changeHeater_put s st area f Heater.endCall (s.station st).probeQueue
  have ready : (f ((s.station st).heater area)).endCall = { f ((s.station st).heater area) with
        state := .ready, energize := none, overload := none, openElement := none, onRun := none,
        onRunOut := false } := by
    rw [Heater.endCall_eq, if_pos (by rw [same]; exact (HeatState.claims_iff _).1 h)]
  rw [Heater.requests, ready, if_neg (by nofun)] at ended
  rw [State.modHeater_eq_put, ← State.putHeater_ext (f := fun h => (f h).endCall) ready]
  exact ended

include same in
theorem State.endCall_not (h : ((s.station st).heater area).state.claims = false) :
    (s.modHeater st area f).changeHeater k st area Heater.endCall = s.putHeater st area f
      (if ((s.station st).heater area).state = .probing then (s.station st).probeQueue
        else (s.station st).probeQueue.erase area) := by
  have stays : (f ((s.station st).heater area)).endCall = f ((s.station st).heater area) := by
    rw [Heater.endCall_eq, if_neg]
    rw [same, ← HeatState.claims_iff, h]
    decide
  rw [State.modHeater_eq_put, State.changeHeater_sameState (by rw [State.putHeater_heater, stays]),
    State.putHeater_heater, State.putHeater_twice, stays, State.putHeater_station, Heater.requests,
    same, State.putHeater_ext stays]
  split <;> rfl

end Call

end Change

/-- Settles O47: the claim in PB by `Waiting.replace_eq`, a change of a zone by `State.changeHeater_eq`, and a
change of its call by what rises or ends. -/
theorem heatCallChangesAreAnswered : Obligations.HeatCallChangesAreAnswered := by
  have mayHeat (x : Station) (c : Prop) : (c ∧ (∀ t ∈ x.tags, t.scope = .motion) ∧
      x.link.up = true ∧ x.retired = false) ↔ c ∧ x.mayHeat = true :=
    and_congr_right' x.mayHeat_iff.symm
  refine ⟨fun st area watts r o => ⟨r.takeHeat_eq o st area watts, r.dropHeat_eq st area⟩,
    ?_, ?_, Heater.call_iff, ?_⟩
  · intro k s st area f h g claims changed ends
    have claims_iff (h : Heater) : claims h ↔ h.state.claims = true := (HeatState.claims_iff _).symm
    have queued : s.putHeater st area f (h.requests g area (s.station st).probeQueue) = changed :=
      State.modStation_ext rfl
    have judged {t : State} (ht : changed.settleClaim k st area h g = t) : ends t := by
      have e := State.changeHeater_eq (k := k) (s := s) (st := st) (area := area) (f := f)
      dsimp only at e
      rw [queued, ht] at e
      refine ⟨fun r n => e.trans (if_pos ⟨r, n⟩), fun still => e.trans (if_neg ?_)⟩
      rintro ⟨r, n⟩
      exact still.elim (fun feed => nomatch r.symm.trans feed) n
    simp only [claims_iff, Bool.not_eq_true]
    exact ⟨fun a b => judged (State.settleClaim_withdrawn a b),
      fun cls a b c => judged (State.settleClaim_made a b c),
      fun e => judged (State.settleClaim_same (Bool.eq_iff_iff.2 e))⟩
  · intro k s st x may
    refine ⟨rfl, ?_⟩
    intro area h
    have may_iff : may area ↔ h.call = true ∧ x.mayHeat = true := mayHeat x _
    rw [may_iff]
    exact ⟨rfl, fun i m => State.judgeProbe_probes i m.1 m.2, State.judgeProbe_not,
      fun r m => State.judgeClaim_claims r m.1 m.2, State.judgeClaim_not⟩
  · intro s st area f same x h u put may claims ended
    have may_iff : may ↔ x.mayHeat = true := x.mayHeat_iff.symm
    have claims_iff : claims ↔ h.state.claims = true := (HeatState.claims_iff _).symm
    have called : (((s.modHeater st area f).station st).heater area).call = (f h).call := by
      rw [State.modHeater_eq_put, State.putHeater_heater]
    have changes : u = if h.call = (f h).call then s.modHeater st area f
        else if (f h).call = true then (s.modHeater st area f).judgeHeat settle st area
        else (s.modHeater st area f).changeHeater settle st area Heater.endCall := called ▸ rfl
    have ends : Heater.endCall = ended := funext Heater.endCall_eq
    rw [may_iff, claims_iff]
    refine ⟨fun e => ?_, fun low high => ?_, fun high low => ?_⟩
    · rw [changes, if_pos e.symm, State.modHeater_eq_put]
      rfl
    · rw [low, high, if_neg nofun, if_pos rfl] at changes
      rw [changes]
      exact ⟨rfl, fun i m => State.judgeHeat_idle (same _) i high m,
        fun r m => State.judgeHeat_ready (same _) r high m, State.judgeHeat_not (same _)⟩
    · rw [low, high, if_neg nofun, if_neg nofun] at changes
      rw [← ends, changes]
      exact ⟨rfl, State.endCall_claims (same _),
        fun n => State.endCall_not (same _) (Bool.not_eq_true _ ▸ n)⟩

end Sys2Proof.Machine
end

section
/-! PROOFS. O33: a granting round turn by turn, and where it ends (R90, R91, R95, R96). -/

namespace Sys2Proof.Machine

/-! ### The lists of PB in a round -/

section Lists

variable {c : Claimant} {cls : ClaimClass} {n : Nat} {l : List Waiting}

/-- An entry put at the back of its rank keeps the serving order (R91). -/
theorem Waiting.inOrder_behind (h : Waiting.inOrder l) :
    Waiting.inOrder (Waiting.behind c cls n l) := by
  have others := h.filter (fun w => w.claimant != c)
  unfold Waiting.behind
  dsimp only
  split
  · exact others
  · refine List.pairwise_append.2 ⟨others.filter _, List.pairwise_cons.2
      ⟨fun w hw => ?_, others.filter _⟩, fun v hv w hw => ?_⟩
    · have later := (List.mem_filter.1 hw).2
      simp only [decide_eq_true_eq] at later
      exact later.le
    · have before := (List.mem_filter.1 hv).2
      simp only [decide_eq_true_eq] at before
      rcases List.mem_cons.1 hw with rfl | hw
      · exact before
      · have later := (List.mem_filter.1 hw).2
        simp only [decide_eq_true_eq] at later
        omega

/-- At most one entry more waits. -/
theorem Waiting.length_behind : (Waiting.behind c cls n l).length ≤ l.length + 1 := by
  have others : (l.filter (fun w => w.claimant != c)).length ≤ l.length := List.length_filter_le _ _
  unfold Waiting.behind
  dsimp only
  split
  · omega
  · have parts (m : List Waiting) : (m.filter (fun w => decide (w.cls.rank ≤ cls.rank))).length +
        (m.filter (fun w => decide (cls.rank < w.cls.rank))).length = m.length := by
      simpa [← List.countP_eq_length_filter, Nat.not_le] using
        (List.length_eq_countP_add_countP (fun w : Waiting => decide (w.cls.rank ≤ cls.rank))
          (l := m)).symm
    have := parts (l.filter (fun w => w.claimant != c))
    rw [List.length_append, List.length_cons]
    omega

theorem ClaimClass.rank_eq_one {x : ClaimClass} : x.rank ≤ 1 ↔ x = .stow := by
  cases x <;> decide

/-- A list in serving order whose head is no STOW claim holds none. -/
theorem Waiting.noStow_of_head {w : Waiting} (h : Waiting.inOrder (w :: l)) (hw : w.cls ≠ .stow) :
    ∀ v ∈ l, v.cls ≠ .stow := by
  intro v hv stow
  have first := (List.pairwise_cons.1 h).1 v hv
  rw [stow] at first
  exact hw (ClaimClass.rank_eq_one.1 first)

theorem Grants.raise_held {w : Waiting} {g : List Grant} (h : ∃ x ∈ g, x.claimant = w.claimant) :
    Grants.raise w g = g.map (fun g => if g.claimant = w.claimant then
      { g with watts := g.watts + w.addition } else g) :=
  if_pos (List.any_eq_true.2 (h.imp fun _ e => ⟨e.1, beq_iff_eq.2 e.2⟩))

theorem Grants.raise_new {w : Waiting} {g : List Grant} (h : ¬ ∃ x ∈ g, x.claimant = w.claimant) :
    Grants.raise w g = g ++ [{ claimant := w.claimant, cls := w.cls, watts := w.addition }] :=
  if_neg fun e => h ((List.any_eq_true.1 e).imp fun _ e => ⟨e.1, beq_iff_eq.1 e.2⟩)

/-- A raise takes no watts and leaves every class. -/
theorem Grants.mem_raise (w : Waiting) {g : List Grant} {x : Grant} (h : x ∈ g) :
    ∃ y ∈ Grants.raise w g, y.claimant = x.claimant ∧ y.cls = x.cls ∧ x.watts ≤ y.watts := by
  by_cases held : ∃ x ∈ g, x.claimant = w.claimant
  · rw [Grants.raise_held held]
    refine ⟨_, List.mem_map_of_mem h, ?_⟩
    split
    · exact ⟨rfl, rfl, Nat.le_add_right ..⟩
    · exact ⟨rfl, rfl, Nat.le_refl _⟩
  · rw [Grants.raise_new held]
    exact ⟨x, List.mem_append_left _ h, rfl, rfl, Nat.le_refl _⟩

/-- The number of heat grants. -/
def Grants.heats (l : List Grant) : Nat := l.countP (fun g => g.cls == .heat)

/-- A STOW or MOVE head adds no heat grant. -/
theorem Grants.heats_raise {w : Waiting} (h : w.cls ≠ .heat) (g : List Grant) :
    Grants.heats (Grants.raise w g) = Grants.heats g := by
  unfold Grants.heats
  by_cases held : ∃ x ∈ g, x.claimant = w.claimant
  · rw [Grants.raise_held held, List.countP_map]
    refine List.countP_congr fun x _ => ?_
    dsimp only [Function.comp]
    split <;> exact Iff.rfl
  · rw [Grants.raise_new held, List.countP_append]
    simp [h]

/-- A heat grant that is taken leaves fewer. -/
theorem Grants.heats_drop {g : Grant} {l : List Grant} (h : g ∈ l) (hc : g.cls = .heat) :
    Grants.heats (Grants.drop g.claimant l) < Grants.heats l := by
  unfold Grants.heats Grants.drop
  rw [List.countP_eq_countP_filter_add l _ (fun x => x.claimant != g.claimant)]
  exact Nat.lt_add_of_pos_right
    (List.countP_pos_iff.2 ⟨g, List.mem_filter.2 ⟨h, by simp⟩, beq_iff_eq.2 hc⟩)

theorem Grants.newestHeat_eq {older newer : List Grant} {g : Grant} (hg : g.cls = .heat)
    (hn : ∀ h ∈ newer, h.cls ≠ .heat) : Grants.newestHeat (older ++ g :: newer) = some g := by
  unfold Grants.newestHeat
  refine List.find?_eq_some_iff_append.2 ⟨beq_iff_eq.2 hg, newer.reverse, older.reverse, by simp, ?_⟩
  intro x hx
  simpa using hn x (List.mem_reverse.1 hx)

theorem Grants.newestHeat_none {l : List Grant} :
    Grants.newestHeat l = none ↔ ∀ g ∈ l, g.cls ≠ .heat := by
  simp [Grants.newestHeat]

theorem Grants.newestHeat_some {l : List Grant} {g : Grant} (h : Grants.newestHeat l = some g) :
    g ∈ l ∧ g.cls = .heat :=
  ⟨List.mem_reverse.1 (List.mem_of_find?_eq_some h), by simpa using List.find?_some h⟩

end Lists

/-! ### The turns of a round (R95, R96) -/

section Turns

variable {now n : Nat} {r : PowerRun} {w : Waiting} {rest : List Waiting} {g : Grant}

/-- A heat grant shed, with the claim behind those of its rank. -/
theorem PowerRun.shed_eq (o : Waiting.inOrder r.power.waiting) (kind : PowerKind) (g : Grant) :
    r.shed now kind g = {
      power := { r.power with
        grants := r.power.grants.filter (fun h => h.claimant != g.claimant),
        waiting := Waiting.behind g.claimant .heat g.watts r.power.waiting,
        last := some { kind := kind, claimant := g.claimant, watts := g.watts, time := now } },
      tallies := r.tallies ++ [.sheds], touched := Claimant.once r.touched g.claimant } := by
  rw [← Waiting.replace_eq o]
  rfl

theorem PowerRun.round_empty (h : r.power.waiting = []) : PowerRun.round now n r = r := by
  cases n with
  | zero => rfl
  | succ n => rw [PowerRun.round, h]

theorem PowerRun.round_fits (h : r.power.waiting = w :: rest)
    (fits : r.power.total + w.addition ≤ r.power.inForce) :
    PowerRun.round now (n + 1) r = PowerRun.round now n (r.grant w rest) := by
  rw [PowerRun.round, h]
  exact if_pos fits

theorem PowerRun.round_sheds (h : r.power.waiting = w :: rest)
    (tooMuch : ¬ r.power.total + w.addition ≤ r.power.inForce) (stow : w.cls = .stow)
    (hg : Grants.newestHeat r.power.grants = some g) :
    PowerRun.round now (n + 1) r = PowerRun.round now n (r.shed now .shedForStow g) := by
  rw [PowerRun.round, h]
  dsimp only
  rw [if_neg tooMuch, if_pos stow, hg]

theorem PowerRun.round_stops (h : r.power.waiting = w :: rest)
    (tooMuch : ¬ r.power.total + w.addition ≤ r.power.inForce)
    (stuck : w.cls ≠ .stow ∨ Grants.newestHeat r.power.grants = none) :
    PowerRun.round now n r = r := by
  cases n with
  | zero => rfl
  | succ n =>
    rw [PowerRun.round, h]
    dsimp only
    rw [if_neg tooMuch]
    split
    · next stow => rw [stuck.resolve_left (not_not_intro stow)]
    · rfl

/-- A round has nothing more to do: no claim waits, or its head does not fit and nothing can be shed for
it. -/
def PowerRun.Stuck (r : PowerRun) : Prop :=
  r.power.waiting = [] ∨ ∃ w rest, r.power.waiting = w :: rest ∧
    r.power.inForce < r.power.total + w.addition ∧
    (w.cls = .stow → ∀ g ∈ r.power.grants, g.cls ≠ .heat)

/-- A round is stuck, or has a turn: a head granted, or a heat grant shed for a STOW head. -/
theorem PowerRun.turn_cases (now : Nat) (r : PowerRun) : r.Stuck ∧ (∀ n, PowerRun.round now n r = r) ∨
    (∃ w rest, r.power.waiting = w :: rest ∧ r.power.total + w.addition ≤ r.power.inForce ∧
      ∀ n, PowerRun.round now (n + 1) r = PowerRun.round now n (r.grant w rest)) ∨
    ∃ w rest g, r.power.waiting = w :: rest ∧ w.cls = .stow ∧ g ∈ r.power.grants ∧ g.cls = .heat ∧
      ∀ n, PowerRun.round now (n + 1) r = PowerRun.round now n (r.shed now .shedForStow g) := by
  cases hw : r.power.waiting with
  | nil => exact .inl ⟨.inl hw, fun _ => PowerRun.round_empty hw⟩
  | cons w rest =>
    by_cases fits : r.power.total + w.addition ≤ r.power.inForce
    · exact .inr (.inl ⟨w, rest, rfl, fits, fun _ => PowerRun.round_fits hw fits⟩)
    by_cases stow : w.cls = .stow
    · cases hg : Grants.newestHeat r.power.grants with
      | none =>
        exact .inl ⟨.inr ⟨w, rest, hw, Nat.not_le.1 fits, fun _ => Grants.newestHeat_none.1 hg⟩,
          fun _ => PowerRun.round_stops hw fits (.inr hg)⟩
      | some g =>
        obtain ⟨mem, heat⟩ := Grants.newestHeat_some hg
        exact .inr (.inr ⟨w, rest, g, rfl, stow, mem, heat,
          fun _ => PowerRun.round_sheds hw fits stow hg⟩)
    · exact .inl ⟨.inr ⟨w, rest, hw, Nat.not_le.1 fits, fun s => absurd s stow⟩,
        fun _ => PowerRun.round_stops hw fits (.inl stow)⟩

/-- The turns that a round can still take: one for each claim that waits, and two for each heat grant while a
STOW claim waits, since a heat grant shed waits again. -/
def PowerRun.ahead (r : PowerRun) : Nat :=
  r.power.waiting.length +
    if ∃ w ∈ r.power.waiting, w.cls = .stow then 2 * Grants.heats r.power.grants else 0

theorem PowerRun.ahead_lt_turns (r : PowerRun) : r.ahead < r.power.turns := by
  have heats : Grants.heats r.power.grants ≤ r.power.grants.length := List.countP_le_length
  unfold PowerRun.ahead Power.turns
  split <;> omega

theorem PowerRun.ahead_stow (h : r.power.waiting = w :: rest) (stow : w.cls = .stow) :
    r.ahead = r.power.waiting.length + 2 * Grants.heats r.power.grants :=
  congrArg _ (if_pos ⟨w, by rw [h]; exact List.mem_cons_self .., stow⟩)

theorem PowerRun.ahead_grant (o : Waiting.inOrder r.power.waiting) (h : r.power.waiting = w :: rest) :
    (r.grant w rest).ahead < r.ahead := by
  have length : r.power.waiting.length = rest.length + 1 := congrArg List.length h
  change rest.length + (if ∃ v ∈ rest, v.cls = .stow then
    2 * Grants.heats (Grants.raise w r.power.grants) else 0) < r.ahead
  by_cases stow : w.cls = .stow
  · rw [Grants.heats_raise (by rw [stow]; decide), PowerRun.ahead_stow h stow]
    split <;> omega
  · rw [if_neg fun ⟨v, hv, e⟩ => Waiting.noStow_of_head (h ▸ o) stow v hv e]
    unfold PowerRun.ahead
    omega

theorem PowerRun.ahead_shed (o : Waiting.inOrder r.power.waiting) (h : r.power.waiting = w :: rest)
    (stow : w.cls = .stow) (hg : g ∈ r.power.grants) (heat : g.cls = .heat) :
    (r.shed now .shedForStow g).ahead < r.ahead := by
  have fewer := Grants.heats_drop hg heat
  have length := Waiting.length_behind (c := g.claimant) (cls := .heat) (n := g.watts)
    (l := r.power.waiting)
  rw [PowerRun.ahead_stow h stow, PowerRun.shed_eq o]
  unfold PowerRun.ahead
  unfold Grants.drop at fewer
  dsimp only
  split <;> omega

end Turns

/-! ### The whole round -/

/-- What every turn of a round over PB's record `p` keeps. -/
structure PowerRun.Rounding (p : Power) (r : PowerRun) : Prop where
  order : Waiting.inOrder r.power.waiting
  single : Law.oneGrant r.power
  drives : ∀ g ∈ p.grants, g.cls ≠ .heat → ∃ h ∈ r.power.grants,
    h.claimant = g.claimant ∧ h.cls = g.cls ∧ g.watts ≤ h.watts
  tallies : ∀ t ∈ r.tallies, t = .sheds

namespace PowerRun.Rounding

variable {p : Power} {r : PowerRun}

theorem grant (k : Rounding p r) {w : Waiting} {rest : List Waiting}
    (h : r.power.waiting = w :: rest) : Rounding p (r.grant w rest) where
  order := (List.pairwise_cons.1 (h ▸ k.order)).2
  single := Grants.nodup_raise k.single
  drives g hg n := by
    obtain ⟨x, hx, claimant, cls, watts⟩ := k.drives g hg n
    obtain ⟨y, hy, claimant', cls', watts'⟩ := Grants.mem_raise w hx
    exact ⟨y, hy, claimant'.trans claimant, cls'.trans cls, watts.trans watts'⟩
  tallies := k.tallies

/-- A claimant holds one entry, so with a heat grant no other grant is taken. -/
theorem shed (k : Rounding p r) {g : Grant} (hg : g ∈ r.power.grants) (heat : g.cls = .heat)
    (now : Nat) : Rounding p (r.shed now .shedForStow g) := by
  rw [PowerRun.shed_eq k.order]
  refine ⟨Waiting.inOrder_behind k.order, Grants.nodup_drop k.single, fun x hx n => ?_, fun t ht => ?_⟩
  · obtain ⟨y, hy, claimant, cls, watts⟩ := k.drives x hx n
    refine ⟨y, List.mem_filter.2 ⟨hy, bne_iff_ne.2 fun e => n ?_⟩, claimant, cls, watts⟩
    rw [← cls, List.inj_on_of_nodup_map k.single hy hg e, heat]
  · exact (List.mem_append.1 ht).elim (k.tallies t) List.mem_singleton.1

/-- A round with enough turns ends stuck. -/
theorem round (k : Rounding p r) (now n : Nat) (h : r.ahead < n) :
    Rounding p (PowerRun.round now n r) ∧ (PowerRun.round now n r).Stuck := by
  induction n generalizing r with
  | zero => exact absurd h (Nat.not_lt_zero _)
  | succ n ih =>
    obtain ⟨stuck, stays⟩ | ⟨w, rest, hw, -, turn⟩ | ⟨w, rest, g, hw, stow, hg, heat, turn⟩ :=
      PowerRun.turn_cases now r
    · rw [stays]
      exact ⟨k, stuck⟩
    · rw [turn]
      exact ih (k.grant hw) (by have := PowerRun.ahead_grant k.order hw; omega)
    · rw [turn]
      exact ih (k.shed hg heat now)
        (by have := PowerRun.ahead_shed (now := now) k.order hw stow hg heat; omega)

end PowerRun.Rounding

/-- Settles O33: each turn by its equation, and the end by what every turn keeps, while the turns ahead
fall. -/
theorem grantingRoundEndsStuck : Obligations.GrantingRoundEndsStuck := by
  refine ⟨?_, ?_⟩
  · intro now n r o p
    refine ⟨PowerRun.round_empty, ?_⟩
    intro w rest hw fits holds served
    refine ⟨fun f h => ?_, fun f h => ?_, fun older g newer f stow hp heat none => ?_,
      fun f stuck => ?_⟩
    · change _ = PowerRun.round now n _
      rw [← Grants.raise_held h]
      exact PowerRun.round_fits hw f
    · change _ = PowerRun.round now n _
      rw [← Grants.raise_new h]
      exact PowerRun.round_fits hw f
    · rw [← PowerRun.shed_eq o]
      exact PowerRun.round_sheds hw f stow (hp ▸ Grants.newestHeat_eq heat none)
    · exact PowerRun.round_stops hw f (stuck.imp_right Grants.newestHeat_none.2)
  · intro now p single order r
    have start : PowerRun.Rounding p { power := p, tallies := [], touched := [] } :=
      ⟨order, single, fun g hg _ => ⟨g, hg, rfl, rfl, Nat.le_refl _⟩, nofun⟩
    obtain ⟨ends, stuck⟩ := start.round now p.turns (PowerRun.ahead_lt_turns _)
    have kept := PowerRun.Kept.round now p.turns { power := p, tallies := [], touched := [] }
    exact ⟨stuck, ends.order, ends.single, kept.within single, ends.drives, ends.tallies,
      kept.normal, kept.emergency, kept.alarm⟩

end Sys2Proof.Machine
end

section
/-! PROOFS. The revocation of grants (R97 to R99): what each taking does, and which grants the four steps
take. Each step takes the newest grants of its kind, and it leaves some only where the total fits. -/

namespace Sys2Proof.Machine

/-! ### One grant taken -/

section Takings

variable {now : Nat} {r : PowerRun} {g : Grant}

theorem PowerRun.revokeWhole_eq (o : Waiting.inOrder r.power.waiting) (kind : PowerKind) (g : Grant) :
    r.revokeWhole now kind g = {
      power := { r.power with
        grants := r.power.grants.filter (fun h => h.claimant != g.claimant),
        waiting := Waiting.behind g.claimant g.cls (r.power.claim g.claimant).wanted r.power.waiting,
        last := some { kind := kind, claimant := g.claimant, watts := g.watts, time := now } },
      tallies := r.tallies ++ [.revocations], touched := Claimant.once r.touched g.claimant } := by
  rw [← Waiting.replace_eq o]
  rfl

theorem PowerRun.revokeSlew_eq (o : Waiting.inOrder r.power.waiting) (g : Grant) :
    r.revokeSlew now g = {
      power := { r.power with
        grants := Grants.set g.claimant (r.power.claim g.claimant).track r.power.grants,
        waiting := Waiting.behind g.claimant .move
          ((r.power.claim g.claimant).wanted - (r.power.claim g.claimant).track) r.power.waiting,
        last := some { kind := .slewPart, claimant := g.claimant,
                       watts := g.watts - (r.power.claim g.claimant).track, time := now } },
      tallies := r.tallies ++ [.revocations], touched := Claimant.once r.touched g.claimant } := by
  rw [← Waiting.replace_eq o]
  rfl

end Takings

/-! ### The grants that a step takes -/

/-- Grants taken one after another. -/
def PowerRun.takeAll (act : Grant → PowerRun → PowerRun) (l : List Grant) (r : PowerRun) : PowerRun :=
  l.foldl (fun r g => act g r) r

/-- A step takes the grants it may take from the first on, and it leaves some only where the total fits. -/
theorem PowerRun.revokeStep_takes (act : Grant → PowerRun → PowerRun) (l : List Grant) (r : PowerRun) :
    ∃ taken left, l = taken ++ left ∧ r.revokeStep act l = r.takeAll act taken ∧
      (left = [] ∨ (r.takeAll act taken).power.total ≤ (r.takeAll act taken).power.inForce) := by
  induction l generalizing r with
  | nil => exact ⟨[], [], rfl, rfl, .inl rfl⟩
  | cons g l ih =>
    by_cases fits : r.power.total ≤ r.power.inForce
    · exact ⟨[], g :: l, rfl, PowerRun.revokeStep_within _ _ fits, .inr fits⟩
    · obtain ⟨taken, left, e, step, ends⟩ := ih (act g r)
      exact ⟨g :: taken, left, congrArg _ e, (if_neg fits).trans step, ends⟩

/-- What stands of a list of grants beside those of some claimants. -/
def Grants.without (taken : List Claimant) (l : List Grant) : List Grant :=
  l.filter (fun g => decide (g.claimant ∉ taken))

/-- Grants taken whole. -/
theorem PowerRun.takeAll_grants {act : Grant → PowerRun → PowerRun}
    (ha : ∀ g r, (act g r).power.grants = Grants.drop g.claimant r.power.grants)
    (l : List Grant) (r : PowerRun) : (r.takeAll act l).power.grants =
      Grants.without (l.map Grant.claimant) r.power.grants := by
  induction l generalizing r with
  | nil => simp [PowerRun.takeAll, Grants.without]
  | cons g l ih =>
    rw [show r.takeAll act (g :: l) = (act g r).takeAll act l from rfl, ih, ha]
    unfold Grants.without Grants.drop
    rw [List.filter_filter]
    refine List.filter_congr fun x _ => ?_
    rw [Bool.eq_iff_iff]
    simp [and_comm]

/-- A grant lowered to the TRACK watts of its claim, with none left of it where they are 0 (R98). -/
def Power.slewed (p : Power) (g : Grant) : Option Grant :=
  if (p.claim g.claimant).track = 0 then none
  else some { g with watts := (p.claim g.claimant).track }

/-- The SLEW parts of some claimants' grants taken. -/
def Power.slewTaken (p : Power) (taken : List Claimant) (l : List Grant) : List Grant :=
  l.filterMap (fun g => if g.claimant ∈ taken then p.slewed g else some g)

theorem Power.slewed_some {p : Power} {g h : Grant} (e : p.slewed g = some h) :
    h.claimant = g.claimant ∧ h.cls = g.cls ∧ h.watts = (p.claim g.claimant).track := by
  unfold Power.slewed at e
  split at e
  · exact nomatch e
  · obtain rfl := Option.some.inj e
    exact ⟨rfl, rfl, rfl⟩

/-- A grant lowered already is not lowered further. -/
theorem Power.slewed_again {p : Power} {g h : Grant} (e : p.slewed g = some h) :
    p.slewed h = some h := by
  unfold Power.slewed at e
  split at e
  · exact nomatch e
  · next pos =>
    obtain rfl := Option.some.inj e
    exact if_neg pos

theorem Grants.set_eq_slewed (p : Power) (c : Claimant) (l : List Grant) :
    Grants.set c (p.claim c).track l =
      l.filterMap (fun g => if g.claimant = c then p.slewed g else some g) := by
  unfold Grants.set Power.slewed
  split
  · next zero =>
    rw [Grants.drop, ← List.filterMap_eq_filter]
    refine List.filterMap_congr fun g _ => ?_
    by_cases e : g.claimant = c <;> simp [e, zero, Option.guard]
  · next pos =>
    rw [← List.filterMap_eq_map']
    refine List.filterMap_congr fun g _ => ?_
    by_cases e : g.claimant = c <;> simp [e, pos]

/-- SLEW parts taken. -/
theorem PowerRun.takeAll_slews (now : Nat) (l : List Grant) (r : PowerRun) :
    (r.takeAll (PowerRun.revokeSlew now) l).power.grants =
      r.power.slewTaken (l.map Grant.claimant) r.power.grants := by
  induction l generalizing r with
  | nil => simp [PowerRun.takeAll, Power.slewTaken]
  | cons g l ih =>
    rw [show r.takeAll (PowerRun.revokeSlew now) (g :: l) =
      (r.revokeSlew now g).takeAll (PowerRun.revokeSlew now) l from rfl, ih]
    change r.power.slewTaken _ (Grants.set g.claimant (r.power.claim g.claimant).track _) = _
    rw [Grants.set_eq_slewed]
    unfold Power.slewTaken
    rw [List.filterMap_filterMap]
    refine List.filterMap_congr fun x _ => ?_
    by_cases e : x.claimant = g.claimant
    · rw [if_pos e, if_pos (by simp [e])]
      cases s : r.power.slewed x with
      | none => rfl
      | some y =>
        rw [Option.bind_some]
        split
        · exact Power.slewed_again s
        · rfl
    · rw [if_neg e]
      simp [e]

/-! ### A step over PB's grants -/

/-- A step over its grants, newest first, takes those at the back. -/
theorem PowerRun.revokeStep_newest (act : Grant → PowerRun → PowerRun) (f : Grant → Bool)
    (r : PowerRun) : ∃ stay took, r.power.grants.filter f = stay ++ took ∧
      r.revokeStep act (r.newest f) = r.takeAll act took.reverse ∧
      (stay = [] ∨ (r.revokeStep act (r.newest f)).power.total ≤
        (r.revokeStep act (r.newest f)).power.inForce) := by
  obtain ⟨taken, left, e, step, ends⟩ := PowerRun.revokeStep_takes act (r.newest f) r
  refine ⟨left.reverse, taken.reverse, ?_, ?_, ?_⟩
  · rw [← List.reverse_append, ← e, PowerRun.newest, List.filter_reverse, List.reverse_reverse]
  · rw [List.reverse_reverse, step]
  · rw [List.reverse_eq_nil_iff, step]
    exact ends

theorem PowerRun.takeAll_claims {act : Grant → PowerRun → PowerRun}
    (ha : ∀ g r, (act g r).power.claims = r.power.claims) (l : List Grant) (r : PowerRun) :
    (r.takeAll act l).power.claims = r.power.claims := by
  induction l generalizing r with
  | nil => rfl
  | cons g l ih => exact (ih _).trans (ha g r)

theorem Power.claim_congr {p q : Power} (h : q.claims = p.claims) : q.claim = p.claim := by
  funext c
  cases c with
  | station st => exact congrArg (·[st]) h
  | heater => rfl

/-- With one entry for each claimant, an entry whose claimant holds a taken one is that entry. -/
theorem Grants.mem_taken_iff {l stay took : List Grant} {f : Grant → Bool}
    (single : (l.map Grant.claimant).Nodup) (e : l.filter f = stay ++ took) {g : Grant} (hg : g ∈ l) :
    g.claimant ∈ took.reverse.map Grant.claimant ↔ g ∈ took := by
  rw [List.map_reverse, List.mem_reverse]
  refine ⟨fun h => ?_, List.mem_map_of_mem⟩
  obtain ⟨x, hx, claimant⟩ := List.mem_map.1 h
  have inList : x ∈ l := (List.mem_filter.1 (e ▸ List.mem_append_right stay hx)).1
  rwa [← List.inj_on_of_nodup_map single inList hg claimant]

/-- Of two entries in a list without repetition, the later stands in its back part where the earlier does. -/
theorem Grants.mem_back {a b : Grant} {l m : List Grant} (h : [a, b].Sublist (l ++ m))
    (n : (l ++ m).Nodup) (ha : a ∈ m) : b ∈ m := by
  obtain ⟨x, y, e, front, back⟩ := List.sublist_append_iff.1 h
  match x, e with
  | [], e =>
    obtain rfl : [a, b] = y := e
    exact back.subset (List.mem_cons_of_mem _ (List.mem_singleton_self b))
  | c :: x, e =>
    obtain ⟨rfl, -⟩ := List.cons.inj e
    exact absurd ha (List.disjoint_of_nodup_append n (front.subset (List.mem_cons_self ..)))

/-- The claimants of a class, in the order of their grants. -/
def Grants.claimants (cls : ClaimClass) (l : List Grant) : List Claimant :=
  (l.filter (fun g => g.cls == cls)).map Grant.claimant

/-- What a step leaves that takes grants of one class whole. -/
structure PowerRun.TakesWhole (cls : ClaimClass) (r r' : PowerRun) : Prop where
  claims : r'.power.claims = r.power.claims
  sublist : r'.power.grants.Sublist r.power.grants
  ends : r'.power.total ≤ r'.power.inForce ∨ ∀ g ∈ r'.power.grants, g.cls ≠ cls
  others : ∀ l : List Grant, l.Sublist r.power.grants → (∀ g ∈ l, g.cls ≠ cls) →
    l.Sublist r'.power.grants
  older : Grants.claimants cls r'.power.grants <+: Grants.claimants cls r.power.grants
  apart : ∀ c, c ≠ cls → Grants.claimants c r'.power.grants = Grants.claimants c r.power.grants

theorem PowerRun.TakesWhole.mem {cls : ClaimClass} {r r' : PowerRun} (h : TakesWhole cls r r')
    {g : Grant} (hg : g ∈ r.power.grants) (hc : g.cls ≠ cls) : g ∈ r'.power.grants :=
  List.singleton_sublist.1 (h.others [g] (List.singleton_sublist.2 hg) (by simpa using hc))

theorem PowerRun.TakesWhole.step {act : Grant → PowerRun → PowerRun}
    (grants : ∀ g r, (act g r).power.grants = Grants.drop g.claimant r.power.grants)
    (claims : ∀ g r, (act g r).power.claims = r.power.claims) {r : PowerRun}
    (single : Law.oneGrant r.power) (cls : ClaimClass) :
    TakesWhole cls r (r.revokeStep act (r.newest (fun g => g.cls == cls))) := by
  obtain ⟨sublist, ends⟩ := PowerRun.revokeStep_removes (fun g => g.cls = cls) grants
    (r.newest (fun g => g.cls == cls)) r
    (fun g hg hc => r.newest_claimants _ hg (beq_iff_eq.2 hc))
  obtain ⟨stay, took, parts, step, -⟩ := r.revokeStep_newest act (fun g => g.cls == cls)
  rw [step] at sublist ends ⊢
  have left := PowerRun.takeAll_grants grants took.reverse r
  have taken {g : Grant} (hg : g ∈ r.power.grants) :
      g.claimant ∈ took.reverse.map Grant.claimant ↔ g ∈ took := Grants.mem_taken_iff single parts hg
  have mem_parts {g : Grant} : g ∈ stay ++ took ↔ g ∈ r.power.grants ∧ g.cls = cls := by
    rw [← parts, List.mem_filter, beq_iff_eq]
  have ofClass {g : Grant} (hg : g ∈ took) : g.cls = cls :=
    (mem_parts.1 (List.mem_append_right stay hg)).2
  refine ⟨PowerRun.takeAll_claims claims _ r, sublist, ends, fun l hl hc => ?_, ?_, fun c hc => ?_⟩
  · have kept : l.filter (fun g => decide (g.claimant ∉ took.reverse.map Grant.claimant)) = l :=
      List.filter_eq_self.2 fun g hg => decide_eq_true fun t =>
        hc g hg (ofClass ((taken (hl.subset hg)).1 t))
    rw [left, ← kept]
    exact hl.filter _
  · have nodup : (stay ++ took).Nodup := parts ▸ single.of_map.filter _
    have stays : (r.takeAll act took.reverse).power.grants.filter (fun g => g.cls == cls) = stay := by
      rw [left, Grants.without, List.filter_comm, parts, List.filter_append]
      have front : stay.filter (fun g => decide (g.claimant ∉ took.reverse.map Grant.claimant)) =
          stay := List.filter_eq_self.2 fun g hg => decide_eq_true fun t =>
        List.disjoint_of_nodup_append nodup hg
          ((taken (mem_parts.1 (List.mem_append_left took hg)).1).1 t)
      have back : took.filter (fun g => decide (g.claimant ∉ took.reverse.map Grant.claimant)) =
          [] := List.filter_eq_nil_iff.2 fun g hg => by
        simpa using ⟨g, hg, rfl⟩
      rw [front, back, List.append_nil]
    unfold Grants.claimants
    rw [stays, parts, List.map_append]
    exact List.prefix_append ..
  · unfold Grants.claimants
    rw [left, Grants.without, List.filter_comm]
    refine congrArg _ (List.filter_eq_self.2 fun g hg => decide_eq_true fun t => hc ?_)
    obtain ⟨mem, ofC⟩ := List.mem_filter.1 hg
    exact (beq_iff_eq.1 ofC).symm.trans (ofClass ((taken mem).1 t))

/-! ### The SLEW parts (R98) -/

/-- A MOVE grant above the TRACK watts of its claim. -/
def Power.slews (p : Power) (g : Grant) : Prop :=
  g.cls = .move ∧ (p.claim g.claimant).track < g.watts

/-- A change of grants that keeps every claimant and class, or takes none of the class. -/
theorem Grants.claimants_filterMap {f : Grant → Option Grant} {cls : ClaimClass} {l : List Grant}
    (h : ∀ g ∈ l, (∃ x, f g = some x ∧ x.claimant = g.claimant ∧ x.cls = g.cls) ∨
      f g = none ∧ g.cls ≠ cls) : Grants.claimants cls (l.filterMap f) = Grants.claimants cls l := by
  induction l with
  | nil => rfl
  | cons g l ih =>
    have rest := ih fun x hx => h x (List.mem_cons_of_mem _ hx)
    unfold Grants.claimants at rest ⊢
    obtain ⟨x, some, claimant, class'⟩ | ⟨none, other⟩ := h g (List.mem_cons_self ..)
    · rw [List.filterMap_cons_some some]
      by_cases c : g.cls = cls <;> simp [c, class', claimant, rest]
    · rw [List.filterMap_cons_none none]
      simp [other, rest]

/-- What the step of the SLEW parts leaves. -/
structure PowerRun.TakesSlews (r r' : PowerRun) : Prop where
  claims : r'.power.claims = r.power.claims
  ends : r'.power.total ≤ r'.power.inForce ∨
    ∀ g ∈ r.power.grants, r.power.slews g → g ∉ r'.power.grants
  others : ∀ g ∈ r.power.grants, ¬ r.power.slews g → g ∈ r'.power.grants
  classes : ∀ g ∈ r'.power.grants, ∃ h ∈ r.power.grants, h.cls = g.cls
  apart : ∀ c, c ≠ .move ∨ (∀ g ∈ r.power.grants, (r.power.claim g.claimant).track ≠ 0) →
    Grants.claimants c r'.power.grants = Grants.claimants c r.power.grants
  older : ∀ g h, [g, h].Sublist r.power.grants → r.power.slews g → r.power.slews h →
    h ∈ r'.power.grants → g ∈ r'.power.grants

theorem PowerRun.TakesSlews.step {r : PowerRun} (single : Law.oneGrant r.power) (now : Nat) :
    TakesSlews r (r.revokeStep (PowerRun.revokeSlew now) (r.newest
      (fun g => g.cls == .move && decide ((r.power.claim g.claimant).track < g.watts)))) := by
  have slews_iff (g : Grant) : (g.cls == .move &&
      decide ((r.power.claim g.claimant).track < g.watts)) = true ↔ r.power.slews g := by
    simp [Power.slews]
  obtain ⟨-, -, -, -, classes, -⟩ := PowerRun.revokeSlews_base now (r.newest
    (fun g => g.cls == .move && decide ((r.power.claim g.claimant).track < g.watts))) r
  obtain ⟨stay, took, parts, step, ends⟩ := r.revokeStep_newest (PowerRun.revokeSlew now)
    (fun g => g.cls == .move && decide ((r.power.claim g.claimant).track < g.watts))
  rw [step] at classes ends ⊢
  have left := PowerRun.takeAll_slews now took.reverse r
  have taken {g : Grant} (hg : g ∈ r.power.grants) :
      g.claimant ∈ took.reverse.map Grant.claimant ↔ g ∈ took := Grants.mem_taken_iff single parts hg
  have mem_parts {g : Grant} : g ∈ stay ++ took ↔ g ∈ r.power.grants ∧ r.power.slews g := by
    rw [← parts, List.mem_filter, slews_iff]
  have stays {g : Grant} (hg : g ∈ r.power.grants) (n : g ∉ took) :
      g ∈ (r.takeAll (PowerRun.revokeSlew now) took.reverse).power.grants := by
    rw [left]
    exact List.mem_filterMap.2 ⟨g, hg, if_neg fun t => n ((taken hg).1 t)⟩
  have goes {g : Grant} (hg : g ∈ took) :
      g ∉ (r.takeAll (PowerRun.revokeSlew now) took.reverse).power.grants := by
    intro stands
    obtain ⟨mem, -, above⟩ := mem_parts.1 (List.mem_append_right stay hg)
    rw [left] at stands
    obtain ⟨x, hx, e⟩ := List.mem_filterMap.1 stands
    have claimant : x.claimant = g.claimant := by
      split at e
      · exact (Power.slewed_some e).1.symm
      · rw [Option.some.inj e]
    obtain rfl := List.inj_on_of_nodup_map single hx mem claimant
    rw [if_pos ((taken hx).2 hg)] at e
    exact absurd (Power.slewed_some e).2.2 above.ne'
  refine ⟨PowerRun.takeAll_claims (act := PowerRun.revokeSlew now) (fun _ _ => rfl) _ r, ends.symm.imp_right fun none g hg s => ?_,
    fun g hg n => stays hg fun t => n (mem_parts.1 (List.mem_append_right stay t)).2, classes,
    fun c hc => ?_, fun g h order sg sh stands => ?_⟩
  · exact goes (by simpa [none] using mem_parts.2 ⟨hg, s⟩)
  · rw [left]
    refine Grants.claimants_filterMap fun g hg => ?_
    split
    · next t =>
      obtain ⟨-, move, -⟩ := mem_parts.1 (List.mem_append_right stay ((taken hg).1 t))
      cases e : r.power.slewed g with
      | none =>
        refine .inr ⟨rfl, hc.elim (fun n => move ▸ n.symm) fun tracks => ?_⟩
        unfold Power.slewed at e
        rw [if_neg (tracks g hg)] at e
        exact nomatch e
      | some x => exact .inl ⟨x, rfl, (Power.slewed_some e).1, (Power.slewed_some e).2.1⟩
    · exact .inl ⟨g, rfl, rfl, rfl⟩
  · have inOrder : [g, h].Sublist (stay ++ took) := by
      rw [← parts]
      simpa [(slews_iff g).2 sg, (slews_iff h).2 sh] using order.filter
        (fun g => g.cls == .move && decide ((r.power.claim g.claimant).track < g.watts))
    have nodup : (stay ++ took).Nodup := parts ▸ single.of_map.filter _
    refine stays (order.subset (by simp)) fun hg => goes ?_ stands
    exact Grants.mem_back inOrder nodup hg

end Sys2Proof.Machine
end

section
/-! PROOFS. O32: the four steps of a revocation (R97 to R99), one whole change of PB, its delivery and its
settling (R87, R100), and the two commands that change the budget in force (R86 to R88). -/

namespace Sys2Proof.Machine

/-! ### The four steps -/

/-- The total fits the budget in force. -/
abbrev PowerRun.Fits (r : PowerRun) : Prop := r.power.total ≤ r.power.inForce

/-- A revocation with the runs between its steps; a step at which the total fits is the last that takes a
grant. -/
structure PowerRun.Revokes (r heats slews moves q : PowerRun) : Prop where
  heatStep : TakesWhole .heat r heats
  slewStep : TakesSlews heats slews
  moveStep : TakesWhole .move slews moves
  stowStep : TakesWhole .stow moves q
  afterHeats : heats.Fits → q = heats
  afterSlews : slews.Fits → q = slews
  afterMoves : moves.Fits → q = moves

theorem PowerRun.revoke_steps {r : PowerRun} (single : Law.oneGrant r.power) (now : Nat) :
    ∃ heats slews moves, Revokes r heats slews moves (r.revoke now) := by
  have s1 : TakesWhole .heat r _ := .step (act := PowerRun.shed now .shedForBudget)
    (fun _ _ => rfl) (fun _ _ => rfl) single .heat
  have k1 := (PowerRun.Kept.revokeStep (fun g r => .shed now .shedForBudget g r)
    (r.newest (fun g => g.cls == .heat)) r).single single
  have e : r.revoke now = PowerRun.revokeStep (PowerRun.revokeWhole now .wholeStow) _
    (PowerRun.revokeStep (PowerRun.revokeWhole now .wholeMove) _
      (PowerRun.revokeStep (PowerRun.revokeSlew now) _
        (PowerRun.revokeStep (PowerRun.shed now .shedForBudget)
          (r.newest (fun g => g.cls == .heat)) r))) := rfl
  generalize PowerRun.revokeStep (PowerRun.shed now .shedForBudget)
    (r.newest (fun g => g.cls == .heat)) r = heats at s1 k1 e
  have s2 := TakesSlews.step k1 now
  have k2 := (PowerRun.Kept.revokeMoves now heats).single k1
  generalize h2 : PowerRun.revokeStep (PowerRun.revokeSlew now) _ heats = slews at s2 k2 e
  have s3 : TakesWhole .move slews _ := .step (act := PowerRun.revokeWhole now .wholeMove)
    (fun _ _ => rfl) (fun _ _ => rfl) k2 .move
  have k3 := (PowerRun.Kept.revokeStep (fun g r => .revokeWhole now .wholeMove g r)
    (slews.newest (fun g => g.cls == .move)) slews).single k2
  generalize h3 : PowerRun.revokeStep (PowerRun.revokeWhole now .wholeMove) _ slews = moves at s3 k3 e
  have s4 : TakesWhole .stow moves _ := .step (act := PowerRun.revokeWhole now .wholeStow)
    (fun _ _ => rfl) (fun _ _ => rfl) k3 .stow
  have after3 : moves.Fits → r.revoke now = moves :=
    fun f => e.trans (PowerRun.revokeStep_within _ _ f)
  have after2 : slews.Fits → r.revoke now = slews := fun f => by
    have same : moves = slews := h3 ▸ PowerRun.revokeStep_within _ _ f
    exact (after3 (same ▸ f)).trans same
  have after1 : heats.Fits → r.revoke now = heats := fun f => by
    have same : slews = heats := h2 ▸ PowerRun.revokeStep_within _ _ f
    exact (after2 (same ▸ f)).trans same
  exact ⟨heats, slews, moves, s1, s2, s3, e ▸ s4, after1, after2, after3⟩

/-- A revocation takes nothing where the total fits. -/
theorem PowerRun.revoke_within {r : PowerRun} (f : r.Fits) (now : Nat) : r.revoke now = r := by
  unfold PowerRun.revoke
  dsimp only
  rw [PowerRun.revokeStep_within (PowerRun.shed now .shedForBudget) _ f,
    PowerRun.revokeStep_within (PowerRun.revokeSlew now) _ f,
    PowerRun.revokeStep_within (PowerRun.revokeWhole now .wholeMove) _ f,
    PowerRun.revokeStep_within (PowerRun.revokeWhole now .wholeStow) _ f]

namespace PowerRun.Revokes

variable {r heats slews moves q : PowerRun} (h : Revokes r heats slews moves q)
include h

theorem slews_iff (g : Grant) : heats.power.slews g ↔ r.power.slews g := by
  unfold Power.slews
  rw [Power.claim_congr h.heatStep.claims]

/-- While a heat grant stands, no other grant is taken (R97). -/
theorem heatsFirst (stands : ∃ g ∈ q.power.grants, g.cls = .heat) :
    ∀ g ∈ r.power.grants, g.cls ≠ .heat → g ∈ q.power.grants := by
  intro g hg hc
  obtain f | none := h.heatStep.ends
  · exact h.afterHeats f ▸ h.heatStep.mem hg hc
  · obtain ⟨x, hx, heat⟩ := stands
    obtain ⟨y, hy, e⟩ := h.slewStep.classes x (h.moveStep.sublist.subset (h.stowStep.sublist.subset hx))
    exact absurd (e.trans heat) (none y hy)

/-- Where a SLEW part stands, no later step took a grant (R98). -/
theorem fits_of_slew {g : Grant} (hg : g ∈ r.power.grants) (s : r.power.slews g)
    (stands : g ∈ q.power.grants) : heats.Fits ∨ slews.Fits := by
  refine or_iff_not_imp_right.2 fun n => absurd ?_ (h.slewStep.ends.resolve_left n g
    (h.heatStep.mem hg (by rw [s.1]; decide)) ((h.slews_iff g).2 s))
  exact h.moveStep.sublist.subset (h.stowStep.sublist.subset stands)

theorem slewsFirst (stands : ∃ g ∈ r.power.grants, r.power.slews g ∧ g ∈ q.power.grants) :
    ∀ g ∈ r.power.grants, g.cls = .stow ∨ g.cls = .move ∧ ¬ r.power.slews g →
      g ∈ q.power.grants := by
  intro g hg other
  obtain ⟨x, hx, s, sq⟩ := stands
  have kept : g ∈ heats.power.grants :=
    h.heatStep.mem hg (other.elim (fun e => e ▸ nofun) fun e => e.1 ▸ nofun)
  obtain f | f := h.fits_of_slew hx s sq
  · exact h.afterHeats f ▸ kept
  · refine h.afterSlews f ▸ h.slewStep.others g kept fun s => ?_
    have s := (h.slews_iff g).1 s
    exact other.elim (fun e => nomatch e.symm.trans s.1) fun e => e.2 s

/-- While a MOVE grant stands, no STOW grant is taken (R99). -/
theorem movesFirst (stands : ∃ g ∈ q.power.grants, g.cls = .move) :
    ∀ g ∈ r.power.grants, g.cls = .stow → g ∈ q.power.grants := by
  intro g hg stow
  have kept : g ∈ heats.power.grants := h.heatStep.mem hg (stow ▸ nofun)
  have kept2 : g ∈ slews.power.grants :=
    h.slewStep.others g kept fun s => nomatch stow.symm.trans s.1
  obtain f | none := h.moveStep.ends
  · exact h.afterMoves f ▸ h.moveStep.mem kept2 (stow ▸ nofun)
  · obtain ⟨x, hx, move⟩ := stands
    exact absurd move (none x (h.stowStep.sublist.subset hx))

/-- Of each class the newest grants are taken. -/
theorem newestFirst (cls : ClaimClass)
    (tracks : cls ≠ .move ∨ ∀ g ∈ r.power.grants, (r.power.claim g.claimant).track ≠ 0) :
    Grants.claimants cls q.power.grants <+: Grants.claimants cls r.power.grants := by
  have slewed := h.slewStep.apart cls (tracks.imp_right fun t g hg => by
    rw [Power.claim_congr h.heatStep.claims]
    exact t g (h.heatStep.sublist.subset hg))
  cases cls with
  | heat =>
    rw [h.stowStep.apart .heat nofun, h.moveStep.apart .heat nofun, slewed]
    exact h.heatStep.older
  | move =>
    rw [h.stowStep.apart .move nofun, ← h.heatStep.apart .move nofun, ← slewed]
    exact h.moveStep.older
  | stow =>
    rw [← h.heatStep.apart .stow nofun, ← slewed, ← h.moveStep.apart .stow nofun]
    exact h.stowStep.older

/-- Of the SLEW parts the newest are taken. -/
theorem newestSlews {g x : Grant} (order : [g, x].Sublist r.power.grants) (sg : r.power.slews g)
    (sx : r.power.slews x) (stands : x ∈ q.power.grants) : g ∈ q.power.grants := by
  have kept : [g, x].Sublist heats.power.grants :=
    h.heatStep.others _ order (by simp [sg.1, sx.1])
  obtain f | f := h.fits_of_slew (order.subset (by simp)) sx stands
  · exact h.afterHeats f ▸ kept.subset (List.mem_cons_self ..)
  · rw [h.afterSlews f] at stands ⊢
    exact h.slewStep.older g x kept ((h.slews_iff g).2 sg) ((h.slews_iff x).2 sx) stands

end PowerRun.Revokes

/-! ### One whole change (R87, R100) -/

/-- A change other than of a budget runs the round where it altered a list. -/
theorem Power.change_ends {now : Nat} {w : Work} {p : Power} (hw : w ≠ .budget) {a : PowerRun}
    (e : p.change now w = if (a.power.grants = p.grants ∧ a.power.waiting = p.waiting) ∧ w ≠ .budget
      then a else a.round now a.power.turns) :
    (a.power.grants = p.grants → a.power.waiting = p.waiting → p.change now w = a) ∧
      (a.power.grants ≠ p.grants ∨ a.power.waiting ≠ p.waiting →
        p.change now w = PowerRun.round now a.power.turns a) :=
  ⟨fun g l => e.trans (if_pos ⟨⟨g, l⟩, hw⟩),
    fun n => e.trans (if_neg fun c => n.elim (· c.1.1) (· c.1.2))⟩

/-- A change of budget runs the round after what it revokes. -/
theorem Power.change_budget (now : Nat) (p : Power) : p.change now .budget =
    let start : PowerRun := { power := p, tallies := [], touched := [] }
    let a := if p.inForce < p.total then start.revoke now else start
    a.round now a.power.turns :=
  if_neg fun c => c.2 rfl

/-! ### The work of an event (R100) -/

theorem State.drain_done {s : State} (h : s.work = []) (n : Nat) : State.drain n s = s := by
  cases n with
  | zero => rfl
  | succ n => rw [State.drain, h]

/-- The one piece of work that an event leaves is settled first. -/
theorem State.drain_leave {s : State} (h : s.work = []) (w : Work) (n : Nat) :
    State.drain (n + 1) (s.leave w) = State.drain n (State.deliver w s) := by
  have left : (s.leave w).work = [w] := by
    change s.work ++ [w] = _
    rw [h]
    rfl
  have same : { s.leave w with work := [] } = s := by
    rw [← h]
    rfl
  rw [State.drain, left]
  dsimp only
  rw [same]

theorem settle_leave {s : State} (h : s.work = []) (w : Work) :
    settle (s.leave w) = State.drain 4095 (State.deliver w s) := State.drain_leave h w 4095

theorem State.deliver_change {w : Work} (h : ∀ st, w ≠ .awaiting st) (s : State) :
    State.deliver w s = eachOf (s.power.change s.time.time w).touched (State.report Settle.later)
      ((s.power.change s.time.time w).tallies.foldl State.bump
        { s with power := (s.power.change s.time.time w).power }) := by
  cases w with
  | awaiting st => exact absurd rfl (h st)
  | drive => rfl
  | heat => rfl
  | heatWithdraw => rfl
  | budget => rfl

/-- A change of the budget in force that is settled brings the granted total within it (R87). -/
theorem State.settle_budget_within {s : State} (h : s.work = []) (single : Law.oneGrant s.power) :
    (settle (s.leave .budget)).power.total ≤ (settle (s.leave .budget)).power.inForce := by
  obtain ⟨change, fits⟩ := s.power.change_kept s.time.time .budget
  have bumped := (Kept.bumps (s.power.change s.time.time .budget).tallies
    { s with power := (s.power.change s.time.time .budget).power } (change.tallies (by simp)))
  have reported := bumped.trans (Kept.eachOf (s.power.change s.time.time .budget).touched
    (fun c s => .report Kept.later c s) _)
  rw [settle_leave h, State.deliver_change (w := .budget) nofun]
  exact ((reported.trans (Kept.drain 4095 _)).within (change.single single) (fits rfl single)).2

/-! ### A change of the budgets or of the alarm (R86 to R88) -/

/-- What follows where the budget in force changes. -/
theorem State.rebudget_acts {s : State} {f : Power → Power} (h : (f s.power).inForce ≠ s.power.inForce) :
    s.rebudget settle f = settle ((s.modPower f).leave .budget) := if_neg h

theorem State.rebudget_stands {s : State} {f : Power → Power}
    (h : (f s.power).inForce = s.power.inForce) : s.rebudget settle f = s.modPower f := if_pos h

theorem clampNat_zero (hi x : Nat) : clampNat 0 hi x = min hi x := by
  rw [clampNat_eq (Nat.zero_le _), Nat.zero_max]

theorem clampNat_zero_bne (hi x : Nat) : (clampNat 0 hi x != x) = true ↔ hi < x := by
  rw [← Bool.not_eq_false, clampNat_bne (Nat.zero_le _)]
  omega

/-- A change of PB counts nothing. -/
theorem Counts.modPower (f : Power → Power) (s : State) : Counts [] s (s.modPower f) :=
  .of_eq rfl rfl rfl

/-- SET_BUDGET (R88): both budgets brought to at most 400 kW, and what follows. -/
theorem State.takeSetBudget_eq (k : Settle) (page : PageId) (normal emergency : BitVec 32) (s : State) :
    s.takeSetBudget k page normal emergency =
      (s.rebudget k (fun p => { p with
        normal := min 400000 normal.toNat, emergency := min 400000 emergency.toNat })).answer page
        (if 400000 < normal.toNat ∨ 400000 < emergency.toNat then .doneClamped else .done) [] := by
  unfold State.takeSetBudget
  dsimp only
  rw [clampNat_zero, clampNat_zero, Result.ofClamped_eq]
  congr 1
  refine if_congr ?_ rfl rfl
  rw [Bool.or_eq_true, ← clampNat_zero_bne, ← clampNat_zero_bne, clampNat_zero, clampNat_zero]

/-- Settles O32: the takings by their equations, the order among them by the four steps, and a change of the
budget in force by the one piece of work that it leaves. -/
theorem budgetChangesAreSettled : Obligations.BudgetChangesAreSettled := by
  refine ⟨?_, ?_, ?_, ?_, ?_, fun p => rfl, ?_⟩
  · intro now g r o p claim without taken
    refine ⟨fun kind => PowerRun.shed_eq o kind g, fun track => ?_, fun track => ?_,
      fun kind => PowerRun.revokeWhole_eq o kind g⟩
    · rw [PowerRun.revokeSlew_eq o, Grants.set, if_neg track]
    · rw [PowerRun.revokeSlew_eq o, Grants.set, if_pos track,
        show (r.power.claim g.claimant).track = 0 from track]
      rfl
  · intro act g rest r
    exact ⟨rfl, fun f => if_pos f, fun n => if_neg (Nat.not_le.2 n)⟩
  · intro now r single p q slew of_
    obtain ⟨kept, fits⟩ := PowerRun.Kept.revoke now r
    obtain ⟨heats, slews, moves, h⟩ := PowerRun.revoke_steps single now
    exact ⟨fun f => PowerRun.revoke_within f now, fits, kept.inForce, h.heatsFirst, h.slewsFirst,
      h.movesFirst, h.newestFirst, fun g x order sg sx => h.newestSlews order sg sx⟩
  · intro now w p start r ends
    refine ⟨?_, ?_, ?_, ?_, ?_⟩
    · rintro st claim rfl
      exact Power.change_ends (w := .drive st claim) (a := start.takeDrive st claim) nofun rfl
    · rintro st area watts rfl
      exact Power.change_ends (w := .heat st area watts) (a := start.takeHeat st area watts) nofun rfl
    · rintro st area rfl
      exact Power.change_ends (w := .heatWithdraw st area) (a := start.dropHeat st area) nofun rfl
    · rintro rfl f
      refine (Power.change_budget now p).trans ?_
      dsimp only
      rw [if_neg (Nat.not_lt.2 f)]
    · rintro rfl n
      refine (Power.change_budget now p).trans ?_
      dsimp only
      rw [if_pos n]
  · intro w s
    refine ⟨fun st e => e ▸ rfl, fun n => State.deliver_change n s, fun empty => ⟨?_, fun done => ?_⟩⟩
    · exact State.drain_done empty _
    · exact (settle_leave empty w).trans (State.drain_done done _)
  · intro s acts
    have acted {p : Power} : acts p (settle ((s.modPower (fun _ => p)).leave .budget)) :=
      ⟨rfl, Kept.settle _, fun empty single =>
        State.settle_budget_within (s := s.modPower (fun _ => p)) empty single⟩
    refine ⟨?_, ?_⟩
    · intro level p
      have done : exec (.feederAlarmChange level) s =
          .next (s.publish (s.rebudget settle (fun _ => p))) := rfl
      refine ⟨fun same => ⟨s.publish (s.modPower (fun _ => p)), ?_, rfl, ?_⟩,
        fun other => ⟨settle ((s.modPower (fun _ => p)).leave .budget), ?_, acted⟩⟩
      · rw [done, State.rebudget_stands same]
      · exact (Counts.modPower (fun _ => p) s).publish
      · rw [done, State.rebudget_acts other]
    · intro page normal emergency free p r
      have done : exec (.setBudget page normal emergency) s =
          .next (s.publish ((s.rebudget settle (fun _ => p)).answer page r [])) :=
        (request_eq free _).trans (by rw [State.takeSetBudget_eq]; rfl)
      refine ⟨fun same => ⟨s.publish ((s.modPower (fun _ => p)).answer page r []), ?_, rfl, ?_⟩,
        fun other => ⟨settle ((s.modPower (fun _ => p)).leave .budget), ?_, acted⟩⟩
      · rw [done, State.rebudget_stands same]
      · exact (Answers.of_counts (Counts.modPower (fun _ => p) s) page r []).publish
      · rw [done, State.rebudget_acts other]

end Sys2Proof.Machine
end

section
/-! PROOFS. O35: the entries of a table ahead of its first marker, the checks of one entry and of a list, the
snapshot (R106, R107) and LAUNCH_SWEEP (R107, R108). -/

namespace Sys2Proof.Machine

/-! ### The entries ahead of the first marker (R106) -/

/-- The entries read from entry j on are those ahead of the first marker, or of the end of the table. -/
theorem Memory.entries_eq {m : Mem} {t : TableId} {n fuel j : Nat} (within : n ≤ fuel)
    (ahead : ∀ k < n, (Memory.entry m t (j + k)).offset ≠ Config.endMarker)
    (ends : n = fuel ∨ (Memory.entry m t (j + n)).offset = Config.endMarker) :
    Memory.entries m t fuel j = (List.range' j n).map (Memory.entry m t) := by
  induction n generalizing fuel j with
  | zero =>
    cases fuel with
    | zero => rfl
    | succ fuel => exact if_pos (ends.resolve_left nofun)
  | succ n ih =>
    obtain ⟨fuel, rfl⟩ : ∃ f, fuel = f + 1 := ⟨fuel - 1, by omega⟩
    have rest := ih (fuel := fuel) (j := j + 1) (by omega)
      (fun k hk => by rw [Nat.add_right_comm]; exact ahead (k + 1) (by omega))
      (ends.imp (by omega) fun e => by rw [Nat.add_right_comm]; exact e)
    exact (if_neg (ahead 0 (by omega))).trans (congrArg _ rest)

/-! ### The checks of one entry (R107) -/

theorem Code.action_none {c : Nat} : Code.action c = none ↔ c = 0 ∨ 5 < c := by
  unfold Code.action
  split
  all_goals simp
  grind

theorem Code.action_goto {c : Nat} : Code.action c = some .goto ↔ c = 3 := by
  unfold Code.action
  split <;> simp_all

namespace RawEntry

/-- The action of an entry has no name (R107). -/
def Unnamed (e : RawEntry) : Prop := e.action = 0 ∨ 5 < e.action

/-- A GOTO to an azimuth out of range (R107). -/
def AzOut (e : RawEntry) : Prop := e.action = 3 ∧ (e.az < -270000000 ∨ 270000000 < e.az)

/-- A GOTO to an elevation out of range (R107). -/
def ElOut (e : RawEntry) : Prop := e.action = 3 ∧ (e.el < 0 ∨ 92000000 < e.el)

/-- An entry in order with a named action and no target out of range (R107). -/
def Good (e : RawEntry) (before : Nat) : Prop :=
  ¬ e.offset < before ∧ ¬ e.Unnamed ∧ ¬ e.AzOut ∧ ¬ e.ElOut

/-- The reason of the first check that an entry fails (R107; notes/assumptions/56.md). -/
def Fails (e : RawEntry) (before : Nat) (r : TableReason) : Prop :=
  e.offset < before ∧ r = .order ∨ ¬ e.offset < before ∧ e.Unnamed ∧ r = .action ∨
    ¬ e.offset < before ∧ e.AzOut ∧ r = .azRange ∨
    ¬ e.offset < before ∧ ¬ e.AzOut ∧ e.ElOut ∧ r = .elRange

variable {e : RawEntry} {before : Nat} {a : Action} {r : TableReason}

theorem not_unnamed (h : Code.action e.action = some a) : ¬ e.Unnamed :=
  fun u => by simp [Code.action_none.2 u] at h

theorem check_order (h : e.offset < before) : e.check before = .error .order := if_pos h

theorem check_action (ho : ¬ e.offset < before) (h : e.Unnamed) :
    e.check before = .error .action := by
  unfold RawEntry.check
  rw [if_neg ho, Code.action_none.2 h]

/-- The entry as a snapshot holds it, its settle limit brought into range (R107). -/
def accepted (e : RawEntry) (a : Action) : SweepEntry :=
  { offset := e.offset, stations := e.stations, action := a, az := e.az, el := e.el,
    settle := e.settle, limit := max 1 (min 600 e.limit) }

/-- The checks of an entry in order whose action is named. -/
theorem check_named (ho : ¬ e.offset < before) (h : Code.action e.action = some a) :
    (e.AzOut → e.check before = .error .azRange) ∧
    (¬ e.AzOut → e.ElOut → e.check before = .error .elRange) ∧
    (¬ e.AzOut → ¬ e.ElOut → e.check before = .ok (e.accepted a)) := by
  have goto : a = .goto ↔ e.action = 3 := by
    rw [← Code.action_goto, h, Option.some.injEq]
  unfold RawEntry.check accepted
  rw [if_neg ho, h, ← clampNat_eq (by decide)]
  simp only [goto]
  exact ⟨fun az => if_pos az, fun az el => (if_neg az).trans (if_pos el),
    fun az el => (if_neg az).trans (if_neg el)⟩

/-- A check ends in the reason of its first failure, or accepts the entry. -/
theorem check_cases (e : RawEntry) (before : Nat) :
    (∃ r, e.check before = .error r ∧ ¬ e.Good before ∧ ∀ q, e.Fails before q ↔ q = r) ∨
    ∃ a, e.check before = .ok (e.accepted a) ∧ Code.action e.action = some a ∧ e.Good before ∧
      ∀ q, ¬ e.Fails before q := by
  by_cases ho : e.offset < before
  · exact .inl ⟨_, check_order ho, by simp [Good, ho], by simp [Fails, ho]⟩
  · cases ha : Code.action e.action with
    | none =>
      have unnamed : e.Unnamed := Code.action_none.1 ha
      have three : e.action ≠ 3 := by
        unfold Unnamed at unnamed
        omega
      have az : ¬ e.AzOut := fun h => three h.1
      have el : ¬ e.ElOut := fun h => three h.1
      exact .inl ⟨_, check_action ho unnamed, by simp [Good, unnamed],
        by simp [Fails, ho, unnamed, az, el]⟩
    | some a =>
      have named := not_unnamed ha
      obtain ⟨azOut, elOut, passes⟩ := check_named ho ha
      by_cases az : e.AzOut
      · exact .inl ⟨_, azOut az, by simp [Good, az], by simp [Fails, ho, named, az]⟩
      · by_cases el : e.ElOut
        · exact .inl ⟨_, elOut az el, by simp [Good, el], by simp [Fails, ho, named, az, el]⟩
        · exact .inr ⟨a, passes az el, rfl, ⟨ho, named, az, el⟩,
            by simp [Fails, Nat.not_lt.1 ho, named, az, el]⟩

theorem check_error_iff : e.check before = .error r ↔ e.Fails before r := by
  obtain ⟨q, hq, -, fails⟩ | ⟨a, ha, -, -, fails⟩ := check_cases e before
  · rw [hq, fails, Except.error.injEq, eq_comm]
  · rw [ha]
    exact iff_of_false nofun (fails r)

/-- An entry passes where it fails no check. -/
theorem check_passes_iff : (∃ x, e.check before = .ok x) ↔ e.Good before := by
  obtain ⟨q, hq, bad, -⟩ | ⟨a, ha, -, good, -⟩ := check_cases e before
  · rw [hq]
    exact iff_of_false nofun bad
  · exact iff_of_true ⟨_, ha⟩ good

/-- What a snapshot holds of an entry that it accepts (R107). -/
theorem accepted_of_check {x : SweepEntry} (h : e.check before = .ok x) :
    Code.action e.action = some x.action ∧ x = e.accepted x.action := by
  obtain ⟨q, hq, -, -⟩ | ⟨a, ha, named, -, -⟩ := check_cases e before
  · rw [hq] at h
    cases h
  · rw [ha] at h
    cases h
    exact ⟨named, rfl⟩

/-- A settle limit is marked where it was out of range and its entry is flagged. -/
theorem clamped_iff : e.clamped = true ↔ e.settle = true ∧ (e.limit < 1 ∨ 600 < e.limit) := by
  unfold RawEntry.clamped
  rw [Bool.and_eq_true, ← Bool.not_eq_false (clampNat 1 600 e.limit != e.limit),
    clampNat_bne (by decide)]
  refine and_congr_right' ?_
  omega

end RawEntry

/-! ### The checks of a list of entries (R107) -/

section Checked

variable {f : Nat → RawEntry}

/-- The offset that entry k of a table must not fall short of. -/
def offsetBefore (f : Nat → RawEntry) : Nat → Nat
  | 0 => 0
  | k + 1 => (f k).offset

theorem lt_offsetBefore {k : Nat} : (f k).offset < offsetBefore f k ↔
    ∃ i, k = i + 1 ∧ (f k).offset < (f i).offset := by
  cases k <;> simp [offsetBefore]

/-- Entry k passes its checks. -/
abbrev Passes (f : Nat → RawEntry) (k : Nat) : Prop := ∃ x, (f k).check (offsetBefore f k) = .ok x

theorem checkEntries_fails {e : RawEntry} {l : List RawEntry} {j before : Nat} {r : TableReason}
    (h : e.check before = .error r) : checkEntries (e :: l) j before = .error (j, r) := by
  rw [checkEntries, h]

theorem checkEntries_passes {e : RawEntry} {l : List RawEntry} {j before : Nat} {x : SweepEntry}
    (h : e.check before = .ok x) :
    (∀ g, checkEntries l (j + 1) e.offset = .error g → checkEntries (e :: l) j before = .error g) ∧
    ∀ k, checkEntries l (j + 1) e.offset = .ok k → checkEntries (e :: l) j before = .ok (x :: k) := by
  refine ⟨fun g hg => ?_, fun k hk => ?_⟩
  · rw [checkEntries, h, hg]
  · rw [checkEntries, h, hk]

/-- A list fails at its first entry that fails a check. -/
theorem checkEntries_error_iff {n j i : Nat} {r : TableReason} :
    checkEntries ((List.range' j n).map f) j (offsetBefore f j) = .error (i, r) ↔
      (j ≤ i ∧ i < j + n) ∧ (f i).check (offsetBefore f i) = .error r ∧
        ∀ k, j ≤ k → k < i → Passes f k := by
  induction n generalizing j with
  | zero =>
    refine iff_of_false nofun fun h => ?_
    omega
  | succ n ih =>
    rw [List.range'_succ, List.map_cons]
    cases hc : (f j).check (offsetBefore f j) with
    | error q =>
      rw [checkEntries_fails hc, Except.error.injEq, Prod.mk.injEq]
      constructor
      · rintro ⟨rfl, rfl⟩
        exact ⟨by omega, hc, fun k _ _ => by omega⟩
      · rintro ⟨⟨hj, -⟩, hi, before⟩
        obtain rfl | lt := Nat.eq_or_lt_of_le hj
        · simpa [hc] using hi
        · obtain ⟨x, hx⟩ := before j le_rfl lt
          simp [hc] at hx
    | ok x =>
      have rest : checkEntries (f j :: (List.range' (j + 1) n).map f) j (offsetBefore f j) =
            .error (i, r) ↔
          checkEntries ((List.range' (j + 1) n).map f) (j + 1) (offsetBefore f (j + 1)) =
            .error (i, r) := by
        obtain ⟨errs, oks⟩ := checkEntries_passes (l := (List.range' (j + 1) n).map f) (j := j) hc
        cases hl : checkEntries ((List.range' (j + 1) n).map f) (j + 1) (f j).offset with
        | error g => rw [errs g hl, offsetBefore, hl]
        | ok l =>
          rw [oks l hl, offsetBefore, hl]
          exact iff_of_false nofun nofun
      rw [rest, ih]
      constructor
      · rintro ⟨bounds, hi, before⟩
        refine ⟨by omega, hi, fun k hk lt => ?_⟩
        obtain rfl | gt := Nat.eq_or_lt_of_le hk
        · exact ⟨x, hc⟩
        · exact before k gt lt
      · rintro ⟨bounds, hi, before⟩
        have ne : i ≠ j := by
          rintro rfl
          simp [hc] at hi
        exact ⟨by omega, hi, fun k hk lt => before k (by omega) lt⟩

/-- A list whose entries all pass is held entry by entry. -/
theorem checkEntries_ok {n j : Nat} (h : ∀ k, j ≤ k → k < j + n → Passes f k) :
    ∃ l, checkEntries ((List.range' j n).map f) j (offsetBefore f j) = .ok l ∧ l.length = n ∧
      ∀ (k : Nat) (e : SweepEntry), l[k]? = some e →
        (f (j + k)).check (offsetBefore f (j + k)) = .ok e := by
  induction n generalizing j with
  | zero => exact ⟨[], rfl, rfl, by simp⟩
  | succ n ih =>
    obtain ⟨x, hx⟩ := h j le_rfl (by omega)
    obtain ⟨l, hl, length, held⟩ := ih (j := j + 1) fun k hk lt => h k (by omega) (by omega)
    refine ⟨x :: l, (checkEntries_passes hx).2 l hl, by simp [length], fun k e he => ?_⟩
    cases k with
    | zero => simp_all
    | succ k =>
      rw [show j + (k + 1) = j + 1 + k by omega]
      exact held k e he

end Checked

/-! ### The snapshot (R106, R107) -/

section Snapshot

variable {m : Mem} {t : TableId} {n : Nat}

/-- The table holds n entries ahead of its first marker (R106). -/
structure Memory.Holds (m : Mem) (t : TableId) (n : Nat) : Prop where
  within : n ≤ 32
  ahead : ∀ k < n, (Memory.entry m t k).offset ≠ 65535
  ends : n = 32 ∨ (Memory.entry m t n).offset = 65535

/-- The entries of which a table's snapshot is taken. -/
theorem Memory.Holds.entries (h : Memory.Holds m t n) :
    Memory.entries m t 32 0 = (List.range' 0 n).map (Memory.entry m t) := by
  obtain ⟨within, ahead, ends⟩ := h
  exact Memory.entries_eq within (by simpa [Config.endMarker] using ahead)
    (by simpa [Config.endMarker] using ends)

theorem Memory.Holds.snapshot_empty (h : Memory.Holds m t 0) :
    Memory.snapshot m t = .error (0, .empty) := by
  unfold Memory.snapshot
  rw [h.entries]
  rfl

/-- A snapshot of entries is what their checks leave of them. -/
theorem Memory.Holds.snapshot_checked (h : Memory.Holds m t n) (pos : 0 < n) :
    (∀ f, checkEntries ((List.range' 0 n).map (Memory.entry m t)) 0 0 = .error f →
      Memory.snapshot m t = .error f) ∧
    ∀ l, checkEntries ((List.range' 0 n).map (Memory.entry m t)) 0 0 = .ok l → Memory.snapshot m t =
      .ok (l, ((List.range' 0 n).map (Memory.entry m t)).any RawEntry.clamped) := by
  have some_ : (List.range' 0 n).map (Memory.entry m t) ≠ [] := by simp; omega
  unfold Memory.snapshot
  rw [h.entries]
  refine ⟨fun f hf => ?_, fun l hl => ?_⟩
  · dsimp only
    rw [if_neg some_, hf]
  · dsimp only
    rw [if_neg some_, hl]

theorem Memory.Holds.snapshot_error_iff (h : Memory.Holds m t n) {j : Nat} {r : TableReason} :
    Memory.snapshot m t = .error (j, r) ↔ n = 0 ∧ j = 0 ∧ r = .empty ∨
      j < n ∧ (Memory.entry m t j).check (offsetBefore (Memory.entry m t) j) = .error r ∧
        ∀ k < j, Passes (Memory.entry m t) k := by
  obtain rfl | pos := Nat.eq_zero_or_pos n
  · rw [h.snapshot_empty]
    simp [eq_comm]
  · have checked := checkEntries_error_iff (f := Memory.entry m t) (n := n) (j := 0) (i := j) (r := r)
    simp only [Nat.zero_le, true_and, Nat.zero_add, true_imp_iff,
      show offsetBefore (Memory.entry m t) 0 = 0 from rfl] at checked
    simp only [Nat.ne_of_gt pos, false_and, false_or, ← checked]
    obtain ⟨errs, oks⟩ := h.snapshot_checked pos
    cases hc : checkEntries ((List.range' 0 n).map (Memory.entry m t)) 0 0 with
    | error f => rw [errs f hc, Except.error.injEq, Except.error.injEq]
    | ok l =>
      rw [oks l hc]
      exact iff_of_false nofun nofun

theorem Memory.Holds.snapshot_ok (h : Memory.Holds m t n) (pos : 0 < n)
    (all : ∀ k < n, Passes (Memory.entry m t) k) :
    ∃ l, Memory.snapshot m t =
        .ok (l, ((List.range' 0 n).map (Memory.entry m t)).any RawEntry.clamped) ∧
      l.length = n ∧ ∀ (k : Nat) (e : SweepEntry), l[k]? = some e →
        (Memory.entry m t k).check (offsetBefore (Memory.entry m t) k) = .ok e := by
  obtain ⟨l, hl, length, held⟩ := checkEntries_ok (f := Memory.entry m t) (n := n) (j := 0)
    fun k _ lt => all k (by omega)
  exact ⟨l, (h.snapshot_checked pos).2 l hl, length, by simpa using held⟩

end Snapshot

/-! ### LAUNCH_SWEEP (R107, R108) -/

section Launch

theorem TableState.launchable_iff {x : TableState} :
    x.launchable = false ↔ x = .armed ∨ x = .running ∨ x = .settling := by
  cases x <;> simp [TableState.launchable]

variable {s : State} {page : PageId} {target : BitVec 16} {source : BitVec 8} {start : BitVec 48}
  {timeout : BitVec 32} {x : TableId} {src : StartSource}

/-- The answer of a launch says whether a number that it carried was clamped (R7). -/
theorem Result.ofClamped_launch (clamped : Bool) (n : Nat) :
    Result.ofClamped (clamped || clampNat 1 3600 n != n) =
      if clamped = true ∨ max 1 (min 3600 n) ≠ n then .doneClamped else .done := by
  rw [Result.ofClamped_eq, clampNat_eq (by decide)]
  refine if_congr ?_ rfl rfl
  rw [Bool.or_eq_true, bne_iff_ne]

section Named

variable (ht : target.toNat = x.val) (hs : Code.startSource source.toNat = some src)
include ht hs

theorem State.takeLaunchSweep_busy (busy : (s.table x).state.launchable = false) :
    s.takeLaunchSweep page target source start timeout = s.answer page .sweepBusy [] := by
  unfold State.takeLaunchSweep
  rw [State.onTable_eq ht, State.named_some hs, if_pos busy]

variable (free : (s.table x).state.launchable ≠ false)
include free

theorem State.takeLaunchSweep_untimed (h : src = .atTime ∧ s.time.state = .unset) :
    s.takeLaunchSweep page target source start timeout = s.answer page .timeUnset [] := by
  unfold State.takeLaunchSweep
  rw [State.onTable_eq ht, State.named_some hs, if_neg free, if_pos h]

variable (timed : ¬ (src = .atTime ∧ s.time.state = .unset))
include timed

theorem State.takeLaunchSweep_invalid {f : Nat × TableReason}
    (h : Memory.snapshot s.mem x = .error f) : s.takeLaunchSweep page target source start timeout =
      s.answer page .tableInvalid [BitVec.ofNat 8 f.1, BitVec.ofNat 8 (Code.ofTableReason f.2)] := by
  unfold State.takeLaunchSweep
  rw [State.onTable_eq ht, State.named_some hs, if_neg free, if_neg timed, h]
  rfl

/-- A launch that passes its checks replaces the table record and answers how many entries it holds (R108). -/
theorem State.takeLaunchSweep_arms {l : List SweepEntry} {clamped : Bool}
    (h : Memory.snapshot s.mem x = .ok (l, clamped)) :
    s.takeLaunchSweep page target source start timeout =
      (s.modTable x (fun _ => SweepTable.launched l src start.toNat
        (max 1 (min 3600 timeout.toNat)))).answer page
          (if clamped = true ∨ max 1 (min 3600 timeout.toNat) ≠ timeout.toNat then .doneClamped
            else .done) [BitVec.ofNat 8 l.length] := by
  unfold State.takeLaunchSweep
  rw [State.onTable_eq ht, State.named_some hs, if_neg free, if_neg timed, h]
  dsimp only
  rw [Result.ofClamped_launch, clampNat_eq (by decide)]
  rfl

end Named

end Launch

/-- Settles O35: the snapshot by the checks of its list of entries, and LAUNCH_SWEEP by the branches of its
take. -/
theorem launchSweepChecksAndArmsTheTable : Obligations.LaunchSweepChecksAndArmsTheTable := by
  refine ⟨?_, ?_⟩
  · intro m t n raw within ahead ends order unnamed az el good fails
    have holds : Memory.Holds m t n := ⟨within, ahead, ends⟩
    have passes (k : Nat) : Passes (Memory.entry m t) k ↔ good k := by
      rw [Passes, RawEntry.check_passes_iff, RawEntry.Good, lt_offsetBefore]
      rfl
    have failing (k : Nat) (r : TableReason) :
        (Memory.entry m t k).check (offsetBefore (Memory.entry m t) k) = .error r ↔ fails k r := by
      rw [RawEntry.check_error_iff, RawEntry.Fails, lt_offsetBefore]
      rfl
    refine ⟨fun j r => ?_, fun pos all => ?_⟩
    · rw [holds.snapshot_error_iff]
      simp only [passes, failing]
    · obtain ⟨l, hl, length, held⟩ := holds.snapshot_ok pos fun k hk => (passes k).2 (all k hk)
      refine ⟨l, _, hl, length, by simp [RawEntry.clamped_iff, raw], fun k e he => ?_⟩
      obtain ⟨named, accepted⟩ := RawEntry.accepted_of_check (held k e he)
      rw [accepted]
      exact ⟨rfl, rfl, named, rfl, rfl, rfl, rfl⟩
  · intro s page target source start timeout x src free ht hs launch inUse untimed
    have launchable (unused : ¬ inUse) : (s.table x).state.launchable ≠ false :=
      fun h => unused (TableState.launchable_iff.1 h)
    refine ⟨fun busy => request_answer free ?_, fun unused unset => request_answer free ?_,
      fun unused timed => ⟨fun f hf => request_answer free ?_, fun l clamped hl => ?_⟩⟩
    · exact State.takeLaunchSweep_busy ht hs (TableState.launchable_iff.2 busy)
    · exact State.takeLaunchSweep_untimed ht hs (launchable unused) unset
    · exact State.takeLaunchSweep_invalid ht hs (launchable unused) timed hf
    · have arms := State.takeLaunchSweep_arms (page := page) (start := start) (timeout := timeout)
        ht hs (launchable unused) timed hl
      refine ⟨_, (request_eq free _).trans (congrArg _ (congrArg _ arms)), ?_, rfl⟩
      exact (Answers.of_counts (Counts.modTable s x _) page _ _).publish

end Sys2Proof.Machine
end

section
/-! PROOFS. A relation between two states that holds of every change which concerns no sweep, and of every
abandonment, holds of all that an event settles (R50, R71 to R79, R100, R120, R155, R178, R181): `Sweepless`
names what such a relation must bear, and each operation of settling follows from it. -/

namespace Sys2Proof.Machine

/-- A relation that bears every change but those of tables, holds and progress records. -/
structure Sweepless (R : State → State → Prop) : Prop where
  refl : ∀ s, R s s
  after : ∀ {s t u}, R t u → R s t → R s u
  station : ∀ {s : State} {st : StationId} {f : Station → Station},
    (f (s.station st)).hold = (s.station st).hold →
      (f (s.station st)).progress = (s.station st).progress → R s (s.modStation st f)
  rest : ∀ {s t : State}, t.stations = s.stations → t.tables = s.tables → R s t

/-- The start of a book leaves the station's progress record. -/
theorem Station.progress_starting (l : Letter) (now : Nat) (x : Station) :
    (x.starting l now).progress = x.progress := by
  have book (x : Station) (l : Letter) (f : Book → Book) : (x.modBook l f).progress = x.progress := by
    cases l <;> rfl
  have idle : x.idleRunning.progress = x.progress := by
    unfold Station.idleRunning
    split
    · rfl
    · exact book ..
  exact (book ..).trans idle

namespace Sweepless

variable {R : State → State → Prop} (b : Sweepless R) {k : Settle}

theorem ite {c : Prop} [Decidable c] {s t u : State} (h : R s t) (h' : R s u) :
    R s (if c then t else u) := by
  split
  · exact h
  · exact h'

include b

theorem eachOf {α : Type} {f : α → State → State} (l : List α) (h : ∀ a s, R s (f a s)) (s : State) :
    R s (eachOf l f s) := by
  induction l generalizing s with
  | nil => exact b.refl s
  | cons a l ih => exact b.after (ih _) (h a s)

theorem quiet {s : State} {st : StationId} {f : Station → Station}
    (q : StationQuiet (s.station st) (f (s.station st))) : R s (s.modStation st f) :=
  b.station q.hold q.progress

theorem bump (x : Tally) (s : State) : R s (s.bump x) := b.rest rfl rfl

theorem modZone (z : ZoneId) (f : Zone → Zone) (s : State) : R s (s.modZone z f) := b.rest rfl rfl

theorem zoneEvent (z : ZoneId) (left : ZoneState) (s : State) : R s (s.zoneEvent z left) :=
  b.rest rfl rfl

/-- The mark of the zone whose entry is under way. -/
theorem entering (z : Option ZoneId) {s t : State} (h : R s t) : R s { t with entering := z } :=
  b.after (b.rest (s := t) (t := { t with entering := z }) rfl rfl) h

theorem modHeater (st : StationId) (area : Area) (f : Heater → Heater) (s : State) :
    R s (s.modHeater st area f) :=
  b.station (by cases area <;> rfl) (by cases area <;> rfl)

theorem modBook (st : StationId) (l : Letter) (f : Book → Book) (s : State) :
    R s (s.modBook st l f) :=
  b.station (by cases l <;> rfl) (by cases l <;> rfl)

theorem startBook (st : StationId) (l : Letter) (s : State) : R s (s.startBook st l) := by
  have only := (s.station st).starting_only l s.time.time
  rw [State.startBook_eq]
  exact b.after (b.bump ..) (b.station only.hold (Station.progress_starting ..))

theorem modAxis (st : StationId) (ax : AxisId) (f : Axis → Axis) (s : State) :
    R s (s.modAxis st ax f) := b.quiet (.modAxis _ _ _)

section

variable (hk : ∀ s, R s (k s))
include hk

/-! ### Claims, sources, shed orders and heater zones (R50, R78, R181) -/

theorem settle_leave (w : Work) (s : State) : R s (k (s.leave w)) :=
  b.after (hk _) (b.rest rfl rfl)

theorem formClaim (st : StationId) (s : State) : R s (s.formClaim k st) := by
  have formed : R s (s.modStation st Station.reform) := b.station rfl rfl
  unfold State.formClaim
  exact ite formed (b.after (b.settle_leave hk _ _) formed)

theorem changeAxes {st : StationId} {f : Station → Station} {s : State}
    (q : StationQuiet (s.station st) (f (s.station st))) : R s (s.changeAxes k st f) := by
  have changed := b.after (b.formClaim hk st _) (b.quiet q)
  unfold State.changeAxes
  exact ite (b.after (b.settle_leave hk _ _) changed) changed

theorem decideSource (st : StationId) (s : State) : R s (s.decideSource k st) := by
  unfold State.decideSource
  exact ite (b.refl s) (b.changeAxes hk (.answerSource _ _ _ _))

theorem judgeShed (st : StationId) (s : State) : R s (s.judgeShed k st) := by
  unfold State.judgeShed
  exact ite (b.refl s) (ite (b.after (b.decideSource hk st _) (b.station rfl rfl))
    (b.after (b.decideSource hk st _) (b.station rfl rfl)))

theorem inputChanged (st : StationId) (s : State) : R s (s.inputChanged k st) :=
  b.after (b.judgeShed hk st _) (b.decideSource hk st s)

theorem engage (st : StationId) (l : Letter) (s : State) : R s (s.engage k st l).1 := by
  unfold State.engage
  split
  · exact b.after (b.inputChanged hk st _) (b.startBook st l s)
  · exact b.refl s
  · exact b.refl s
  · exact b.refl s
  · split
    · exact b.refl s
    · exact b.after (b.inputChanged hk st _) (b.after (b.startBook ..) (b.modBook ..))

theorem changeHeater (st : StationId) (area : Area) (f : Heater → Heater) (s : State) :
    R s (s.changeHeater k st area f) := by
  unfold State.changeHeater
  dsimp only
  generalize hu : (s.modHeater st area f).modStation st _ = u
  have changed : R s u := hu ▸ b.after (b.station rfl rfl) (b.modHeater st area f s)
  have claims (c d : Bool) (cls : Option HeatClass) : R u
      (if c then k (u.leave (.heatWithdraw st area))
        else match cls with
          | some cls => if d then k (u.leave (.heat st area cls.watts)) else u
          | none => u) := by
    refine ite (b.settle_leave hk _ u) ?_
    split
    · exact ite (b.settle_leave hk _ u) (b.refl u)
    · exact b.refl u
  exact ite (b.after (b.judgeShed hk st _) (b.after (claims ..) changed))
    (b.after (claims ..) changed)

theorem heatGrant (st : StationId) (area : Area) (watts : Nat) (s : State) :
    R s (s.heatGrant k st area watts) := by
  have change := b.changeHeater hk st area
  have leave := b.settle_leave hk
  unfold State.heatGrant
  split
  · exact ite (b.refl s) (change ..)
  · exact ite (b.refl s) (change ..)
  · exact ite (change ..) (b.refl s)
  · exact ite (change ..) (b.refl s)
  all_goals exact ite (b.refl s) (leave ..)

/-! ### Wind zones (R151 to R155) -/

omit hk in
theorem expose (st : StationId) (r : ExposeReason) (s : State) : R s (s.expose st r) :=
  ite (b.rest rfl rfl) (b.refl s)

omit hk in
theorem exposeBlocked (st : StationId) (s : State) : R s (s.exposeBlocked st) :=
  ite (b.expose ..) (ite (b.expose ..) (b.refl s))

theorem judgeMembers (z : ZoneId) (s : State) : R s (s.judgeMembers k z) :=
  b.eachOf _ (b.judgeShed hk) s

theorem stowedTest (z : ZoneId) (s : State) : R s (s.stowedTest k z) :=
  ite (b.after (b.judgeMembers hk z _) (b.rest rfl rfl)) (b.refl s)

variable (abandons : ∀ st r s, R s (s.abandon k st r))
include abandons

theorem stowMember (st : StationId) (s : State) : R s (s.stowMember k st) := by
  unfold State.stowMember
  exact b.after (b.exposeBlocked ..) (b.after (b.formClaim hk ..) (b.after (b.decideSource hk ..)
    (b.after (b.station rfl rfl) (abandons ..))))

theorem enterStowing (z : ZoneId) (s : State) : R s (s.enterStowing k z) := by
  unfold State.enterStowing
  dsimp only
  exact b.after (b.stowedTest hk ..) (b.entering _ (b.after (b.judgeMembers hk ..)
    (b.after (b.zoneEvent ..) (b.after (b.eachOf _ (b.stowMember hk abandons) _)
      (b.after (b.modZone ..) (b.entering (some z) (b.refl s)))))))

theorem testZone (z : ZoneId) (s : State) : R s (s.testZone k z) :=
  ite (b.enterStowing hk abandons z s) (b.stowedTest hk z s)

theorem axesChanged (st : StationId) (s : State) : R s (s.axesChanged k st) := by
  unfold State.axesChanged
  exact b.after (b.testZone hk abandons ..) (ite (b.rest rfl rfl) (b.refl s))

theorem joinExposed (st : StationId) (r : ExposeReason) (s : State) :
    R s (s.joinExposed k st r) := by
  unfold State.joinExposed
  exact ite (b.after (b.testZone hk abandons ..) (b.expose ..)) (b.refl s)

/-! ### Faults and grants (R71, R74, R79) -/

theorem faultAxis (st : StationId) (ax : AxisId) (r : AxisFault) (s : State) :
    R s (s.faultAxis k st ax r) := by
  unfold State.faultAxis State.afterFault
  exact b.after (b.joinExposed hk abandons ..) (b.after (abandons ..) (b.after (b.bump ..)
    (b.after (b.formClaim hk ..) (b.modAxis ..))))

theorem releaseAxis (st : StationId) (ax : AxisId) (s : State) :
    R s (s.releaseAxis k st ax) := by
  unfold State.releaseAxis
  dsimp only
  split
  · exact ite (b.modAxis ..) (b.faultAxis hk abandons ..)
  · exact b.refl s

theorem judgeAwaiting (st : StationId) (s : State) : R s (s.judgeAwaiting k st) := by
  have release := b.releaseAxis hk abandons st
  unfold State.judgeAwaiting
  exact ite (b.after (b.formClaim hk ..) (b.after (release ..) (release ..))) (b.refl s)

theorem driveGrant (st : StationId) (watts : Nat) (s : State) : R s (s.driveGrant k st watts) := by
  have answers (rises : Bool) (s : State) : R s (s.modStation st (Station.answerLevel rises)) :=
    b.station rfl rfl
  unfold State.driveGrant
  dsimp only
  have granted : R s (s.modStation st (Station.takeGrant watts)) := b.station rfl rfl
  refine b.after ?_ granted
  generalize s.modStation st (Station.takeGrant watts) = u
  refine ite ?_ (ite (ite ?_ ?_) (b.refl u))
  · exact b.after (b.formClaim hk ..) (b.after (b.judgeAwaiting hk abandons ..) (answers ..))
  · refine b.after (b.axesChanged hk abandons ..) (b.changeAxes hk
      (.trans (y := { u.station st with az := (u.station st).az.revoke, el := (u.station st).el.revoke })
        ⟨rfl, rfl, rfl, rfl, rfl⟩ (.examineBoth _)))
  · exact b.after (b.formClaim hk ..) (answers ..)

theorem report (c : Claimant) (s : State) : R s (s.report k c) := by
  cases c with
  | station => exact b.driveGrant hk abandons ..
  | heater => exact b.heatGrant hk ..

end

/-! ### Settling (R100) -/

theorem powerChange (w : Work) (s : State) : R s (s.powerChange w).1 :=
  b.after (b.eachOf (f := fun x s => s.bump x) _ (fun _ _ => b.rest rfl rfl) _) (b.rest rfl rfl)

variable (abandons : ∀ st r s, R s (s.abandon Settle.later st r))
include abandons

theorem deliver (w : Work) (s : State) : R s (State.deliver w s) := by
  have later (s : State) : R s (Settle.later s) := b.refl s
  cases w with
  | awaiting st => exact b.judgeAwaiting later abandons st s
  | _ => exact b.after (b.eachOf _ (b.report later abandons) _) (b.powerChange _ s)

/-- What bears every abandonment bears settling. -/
theorem settle (s : State) : R s (settle s) := by
  have drain (n : Nat) (s : State) : R s (State.drain n s) := by
    induction n generalizing s with
    | zero => exact b.refl s
    | succ n ih =>
      unfold State.drain
      split
      · exact b.refl s
      · exact b.after (ih _) (b.after (b.deliver abandons ..) (b.rest rfl rfl))
  exact drain _ s

end Sweepless

end Sys2Proof.Machine
end

section
/-! PROOFS. The end of a table stands (R109, R111, R116, R122): while a table is not in use, no settling, no
issue, start or end of the other table gives a station a hold of it or a settle timer of its run. -/

namespace Sys2Proof.Machine

/-- No hold of the table is on the station (R116). -/
def Station.unheld (x : TableId) (z : Station) : Prop := ∀ h, z.hold = some h → h.table ≠ x

/-- No settle timer of the table's run is on the record (R117). -/
def Progress.untimed (x : TableId) (p : Progress) : Prop := p.table = some x → p.timer = none

/-- Through a change a station comes under no hold and no settle timer of the table. -/
structure Station.StaysFree (x : TableId) (z w : Station) : Prop where
  hold : z.unheld x → w.unheld x
  timer : z.progress.untimed x → w.progress.untimed x

theorem Station.StaysFree.refl (x : TableId) (z : Station) : StaysFree x z z := ⟨id, id⟩

/-- A table that is not in use comes into no use, and no station comes under a hold or a settle timer of it. -/
structure EndStands (x : TableId) (s t : State) : Prop where
  stands : (s.table x).state.cancellable = false → (t.table x).state.cancellable = false ∧
    ∀ st, (s.station st).StaysFree x (t.station st)

variable {k : Settle}

/-- The record of a table that ends, its run not yet released (R121, R122). -/
def SweepTable.close (to_ : TableState) (t : SweepTable) : SweepTable :=
  { t with state := to_, strobe := none, startDue := false }

/-- The record of a table with its end record (R121, R122). -/
def SweepTable.endAs (kind : EndKind) (now : Nat) (t : SweepTable) : SweepTable :=
  { t with ended := some (kind, now) }

/-- The state with a table released at its end (R121, R122). -/
def State.closing (k : Settle) (x : TableId) (to_ : TableState) (s : State) : State :=
  (s.modTable x (SweepTable.close to_)).releaseTable k x

/-- The end of a table: its release, its end record, its count (R121, R122, R124). -/
theorem State.closeTable_closing (x : TableId) (to_ : TableState) (kind : EndKind) (s : State) :
    s.closeTable k x to_ kind = ((s.closing k x to_).modTable x
      (SweepTable.endAs kind (s.closing k x to_).now)).bump .sweepEnds := rfl

namespace EndStands

variable {x y : TableId}

theorem refl (s : State) : EndStands x s s := ⟨fun e => ⟨e, fun _ => .refl x _⟩⟩

theorem after {s t u : State} (k : EndStands x t u) (h : EndStands x s t) : EndStands x s u := by
  refine ⟨fun e => ?_⟩
  obtain ⟨et, ht⟩ := h.stands e
  obtain ⟨eu, hu⟩ := k.stands et
  exact ⟨eu, fun st => ⟨fun d => (hu st).hold ((ht st).hold d), fun d => (hu st).timer ((ht st).timer d)⟩⟩

/-- That the table is not in use is at hand. -/
theorem given {s t : State} (h : (s.table x).state.cancellable = false → EndStands x s t) :
    EndStands x s t := ⟨fun e => (h e).stands e⟩

theorem ite {c : Prop} [Decidable c] {s t u : State} (h : EndStands x s t) (k : EndStands x s u) :
    EndStands x s (if c then t else u) := by
  split
  · exact h
  · exact k

theorem modStation {s : State} {st : StationId} {f : Station → Station}
    (h : (s.station st).StaysFree x (f (s.station st))) : EndStands x s (s.modStation st f) := by
  refine ⟨fun e => ⟨e, fun z => ?_⟩⟩
  rw [State.station_modStation]
  split
  · next e => exact e ▸ h
  · exact .refl x _

theorem sweepless (x : TableId) : Sweepless (EndStands x) where
  refl := refl
  after := after
  station := fun {s st f} hold progress => modStation
    ⟨fun d => by rwa [Station.unheld, hold], fun d => by rwa [progress]⟩
  rest := fun hs ht => ⟨fun e => ⟨by rwa [State.table_congr ht],
    fun st => State.station_congr hs st ▸ .refl x _⟩⟩

/-- A change of a record that starts no settle timer of the table's run. -/
theorem modProgress {s : State} {st : StationId} {f : Progress → Progress}
    (h : (s.station st).progress.untimed x → (f (s.station st).progress).untimed x) :
    EndStands x s (s.modProgress st f) := modStation ⟨id, h⟩

/-- A change of the other table, or of this one where it comes into no use. -/
theorem modTable {s : State} {f : SweepTable → SweepTable}
    (h : y = x → (f (s.table x)).state.cancellable = false) : EndStands x s (s.modTable y f) := by
  refine ⟨fun e => ⟨?_, fun _ => .refl x _⟩⟩
  rw [State.table_modTable]
  split
  · next e' => exact e' ▸ h e'
  · exact e

/-- A change of a table that leaves its state. -/
theorem modSame {s : State} {f : SweepTable → SweepTable} (h : (f (s.table y)).state = (s.table y).state) :
    EndStands x s (s.modTable y f) := by
  refine .given fun e => modTable fun same => ?_
  rw [← same, h, same]
  exact e

/-- A change of the other table. -/
theorem modOther {s : State} {f : SweepTable → SweepTable} (h : y ≠ x) :
    EndStands x s (s.modTable y f) := modTable fun e => absurd e h

theorem eachOf {α : Type} {f : α → State → State} (l : List α) (h : ∀ a s, EndStands x s (f a s))
    (s : State) : EndStands x s (eachOf l f s) := (sweepless x).eachOf l h s

section

variable (hk : ∀ s, EndStands x s (k s))
include hk

/-! ### Holds (R116) -/

theorem setHold {st : StationId} {h : Option SweepHold} (hx : ∀ g, h = some g → g.table ≠ x)
    (s : State) : EndStands x s (s.setHold k st h) := by
  unfold State.setHold
  exact after ((sweepless x).inputChanged hk ..) (modStation ⟨fun _ => hx, id⟩)

theorem dropHold (st : StationId) (s : State) : EndStands x s (s.setHold k st none) :=
  setHold hk (by rintro g ⟨⟩) s

theorem clearHold (st : StationId) (s : State) : EndStands x s (s.clearHold k st) := by
  unfold State.clearHold
  exact ite (refl s) (dropHold hk st s)

/-! ### The issue of entries and the start of the other table (R111 to R117) -/

section Other

variable (hy : y ≠ x)
include hy

theorem issueTo (n : Nat) (e : SweepEntry) (st : StationId) (s : State) :
    EndStands x s (s.issueTo k y n e st) := by
  have named (state : RecordState) (r : Option SweepReason) (timer : Timer) :
      (e.record y n state r timer).untimed x := fun h => absurd (Option.some.inj h) hy
  have skipped (r : SweepReason) : EndStands x s (s.skippedBy y n e st r) :=
    after (modOther hy) (modStation ⟨id, fun _ => named _ _ _⟩)
  have issued (state : RecordState) : EndStands x s (s.issuedBy y n e st state) :=
    after (modOther hy) (modStation ⟨id, fun _ => named _ _ _⟩)
  have held (az el : Int) : ∀ g : SweepHold,
      some { table := y, az := az, el := el } = some g → g.table ≠ x := by
    rintro g ⟨⟩
    exact hy
  have engage := (sweepless x).engage hk st
  cases hr : s.skipReason st with
  | some r => rw [State.issueTo_skips hr]; exact skipped r
  | none =>
    rw [State.issueTo_acts hr]
    unfold State.act
    split
    · exact after (setHold hk (held _ _) _) (issued _)
    · exact after (setHold hk (held _ _) _) (issued _)
    · exact after (clearHold hk ..) (issued _)
    · exact ite (after (engage ..) (issued _)) (skipped _)
    · exact ite (after (engage ..) (issued _)) (skipped _)

theorem issueFrom (l : List SweepEntry) (n : Nat) (s : State) :
    EndStands x s (s.issueFrom k y l n) := by
  induction l generalizing n s with
  | nil => exact modOther hy
  | cons e l ih =>
    rw [State.issueFrom]
    exact ite (after (ih ..) (after (modOther hy) (eachOf _ (issueTo hk hy n e) s))) (refl s)

theorem judgeIssue (s : State) : EndStands x s (s.judgeIssue k y) := by
  unfold State.judgeIssue
  exact ite (issueFrom hk hy ..) (refl s)

theorem beginTable (late : Bool) (s : State) : EndStands x s (s.beginTable k y late) := by
  unfold State.beginTable
  exact after (judgeIssue hk hy _)
    (after (eachOf _ (fun _ _ => modProgress fun _ _ => rfl) _) (modOther hy))

end Other

/-! ### The end of a table (R111, R120, R121) -/

theorem releaseTable (y : TableId) (s : State) : EndStands x s (s.releaseTable k y) := by
  have stops (p : Progress) : p.untimed x → (p.stop y).untimed x := by
    unfold Progress.stop
    split
    · exact fun _ _ => rfl
    · exact id
  rw [State.releaseTable_eq]
  exact after (eachOf _ (fun st s => modProgress (stops _)) _)
    (eachOf _ (fun st s => ite (dropHold hk st s) (refl s)) s)

theorem closeTable (y : TableId) {to_ : TableState} (ended : to_.cancellable = false) (kind : EndKind)
    (s : State) : EndStands x s (s.closeTable k y to_ kind) := by
  have closes : EndStands x s (s.closing k y to_) := after (releaseTable hk ..) (modTable fun _ => ended)
  rw [State.closeTable_closing]
  generalize s.closing k y to_ = u at *
  exact after ((sweepless x).bump ..) (after (modSame rfl) closes)

theorem judgeEnd (fuel : Nat) (y : TableId) (s : State) : EndStands x s (s.judgeEnd k fuel y) := by
  induction fuel generalizing y s with
  | zero => exact refl s
  | succ fuel ih =>
    have close := closeTable hk y (to_ := .done) rfl .done s
    rw [State.judgeEnd]
    refine given fun e => ite ?_ (refl s)
    obtain ⟨eu, -⟩ := close.stands e
    dsimp only
    split
    · next o =>
      have other : TableId.other y ≠ x := by
        rintro rfl
        rw [o.1] at eu
        cases eu
      exact after (ih ..) (after (beginTable hk other true _) close)
    · exact close

theorem startTable (hy : y ≠ x) (late : Bool) (s : State) :
    EndStands x s (s.startTable k y late) :=
  after (judgeEnd hk 2 y _) (beginTable hk hy late s)

theorem abandon (st : StationId) (r : SweepReason) (s : State) :
    EndStands x s (s.abandon k st r) := by
  unfold State.abandon
  dsimp only
  refine given fun e => ?_
  split
  · exact refl s
  · next y _ =>
    split
    · next live =>
      have other : y ≠ x := by
        rintro rfl
        rw [TableState.not_runs e, Bool.and_false] at live
        cases live
      exact after (judgeEnd hk ..) (after (clearHold hk ..) (after (modOther other)
        (modProgress fun _ _ => rfl)))
    · exact refl s

end

/-- Settling brings no table that is not in use into use. -/
theorem settle (s : State) : EndStands x s (settle s) :=
  (sweepless x).settle (abandon fun s => refl s) s

end EndStands

/-! ### What the end of a table leaves on the stations (R121, R122) -/

section Close

variable {x : TableId} {s : State}

theorem Station.unheld_of_any {z : Station} (h : z.hold.any (fun g => g.table == x) ≠ true) :
    z.unheld x := by
  intro g e same
  rw [e] at h
  simp [same] at h

/-- The release of a table that is not in use leaves none of its holds. -/
theorem State.unheld_releaseHolds (e : (s.table x).state.cancellable = false) (st : StationId) :
    ((s.releaseHolds settle x).station st).unheld x := by
  have one (s : State) (a : StationId) (e : (s.table x).state.cancellable = false) :
      ((s.releaseHold settle x a).station a).unheld x := by
    unfold State.releaseHold
    split
    · have settled := (EndStands.sweepless x).inputChanged EndStands.settle a
        (s.modStation a (fun z => { z with hold := none }))
      refine ((settled.stands e).2 a).hold ?_
      rw [State.station_modStation, if_pos rfl]
      rintro g ⟨⟩
    · next h => exact Station.unheld_of_any h
  have go (l : List StationId) (s : State) (e : (s.table x).state.cancellable = false)
      (h : st ∈ l ∨ (s.station st).unheld x) :
      ((eachOf l (State.releaseHold settle x) s).station st).unheld x := by
    induction l generalizing s with
    | nil => exact h.resolve_left List.not_mem_nil
    | cons a l ih =>
      have release : EndStands x s (s.releaseHold settle x a) :=
        .ite (.dropHold .settle a s) (.refl s)
      obtain ⟨e', free⟩ := release.stands e
      refine ih _ e' ?_
      rw [List.mem_cons] at h
      rcases h with (rfl | h) | h
      · exact .inr (one s st e)
      · exact .inl h
      · exact .inr ((free st).hold h)
  rw [State.releaseHolds_eq]
  exact go _ s e (.inl (List.mem_finRange st))

theorem Progress.untimed_stop (x : TableId) (p : Progress) : (p.stop x).untimed x := by
  intro h
  unfold Progress.stop at *
  split
  · rfl
  · next n =>
    rw [if_neg n] at h
    exact absurd h n

/-- A table that has ended holds no station, and no settle timer of its run goes on. -/
theorem State.closeTable_frees {to_ : TableState} (ended : to_.cancellable = false) (kind : EndKind)
    (s : State) (st : StationId) : ((s.closeTable settle x to_ kind).table x).state.cancellable = false ∧
      ((s.closeTable settle x to_ kind).station st).unheld x ∧
      ((s.closeTable settle x to_ kind).station st).progress.untimed x := by
  have closed : ((s.modTable x (SweepTable.close to_)).table x).state.cancellable = false := by
    rw [State.table_modTable, if_pos rfl]
    exact ended
  have holds := State.unheld_releaseHolds closed st
  have releases : EndStands x (s.modTable x (SweepTable.close to_)) (s.closing settle x to_) :=
    .releaseTable .settle x _
  obtain ⟨e, -⟩ := releases.stands closed
  have free : ((s.closing settle x to_).station st).unheld x ∧
      ((s.closing settle x to_).station st).progress.untimed x := by
    unfold State.closing
    rw [State.releaseTable_eq, State.station_stopTimers]
    generalize State.station _ st = z at holds ⊢
    exact ⟨holds, Progress.untimed_stop x _⟩
  rw [State.closeTable_closing]
  generalize s.closing settle x to_ = u at *
  rw [State.table_bump, State.table_modTable, if_pos rfl, State.station_bump, State.station_modTable]
  exact ⟨e, free⟩

/-- After a cancellation no station is held by the table and no settle timer of its run goes on, whatever a
late start of the other table brings (R111, R122). -/
theorem State.cancelTable_frees (late : Bool) (s : State) (st : StationId) :
    ((s.cancelTable settle x late).station st).unheld x ∧
      ((s.cancelTable settle x late).station st).progress.untimed x := by
  obtain ⟨e, hold, timer⟩ := State.closeTable_frees (x := x) (to_ := .cancelled) rfl .cancelled s st
  unfold State.cancelTable
  dsimp only
  split
  · have start := EndStands.startTable EndStands.settle (TableId.ne_other x).symm true
      (s.closeTable settle x .cancelled .cancelled)
    obtain ⟨-, free⟩ := start.stands e
    exact ⟨(free st).hold hold, (free st).timer timer⟩
  · exact ⟨hold, timer⟩

end Close

end Sys2Proof.Machine
end

section
/-! PROOFS. The end of a table by CANCEL_SWEEP, by its last settle and with the late start of the other (R111,
R119, R121, R122), as equations and through what settling keeps. -/

namespace Sys2Proof.Machine

variable {k : Settle}

/-! ### The end of a table, with the late start of the other (R111, R121, R122) -/

section Ends

variable {s : State} {x : TableId}

/-- The settle timers of a table's run stopped, said of the timers alone. -/
theorem State.stopTimers_timers (x : TableId) (s : State) : s.stopTimers x =
    eachOf (List.finRange 16) (fun st s => s.modStation st (fun z => { z with progress := { z.progress with
      timer := if z.progress.table = some x then none else z.progress.timer } })) s := by
  unfold State.stopTimers
  refine congrFun (congrArg (eachOf allStations) (funext fun st => funext fun s => ?_)) s
  refine State.modStation_ext ?_
  unfold Progress.stop
  split <;> rfl

/-- The table is start due, to start late once the other has ended (R111). -/
abbrev State.startsLate (s : State) (x : TableId) : Prop :=
  (s.table x).state = .armed ∧ (s.table x).startDue = true

theorem State.cancelTable_late (ran : (s.table x).state = .running ∨ (s.table x).state = .settling)
    (late : (s.closeTable k x .cancelled .cancelled).startsLate (TableId.other x)) :
    s.cancelTable k x true =
      (s.closeTable k x .cancelled .cancelled).startTable k (TableId.other x) true :=
  if_pos ⟨rfl, TableState.runs_iff.2 ran, late⟩

theorem State.cancelTable_not_late (h : ¬ (((s.table x).state = .running ∨ (s.table x).state = .settling) ∧
    (s.closeTable k x .cancelled .cancelled).startsLate (TableId.other x))) :
    s.cancelTable k x true = s.closeTable k x .cancelled .cancelled :=
  if_neg fun ⟨_, ran, late⟩ => h ⟨TableState.runs_iff.1 ran, late⟩

/-- Every record of the table's run is through, or not named (R121). -/
abbrev State.passed (s : State) (x : TableId) : Prop :=
  ∀ st : StationId, (s.station st).progress.table = some x →
    (s.station st).progress.state = .notNamed ∨ (s.station st).progress.state = .skipped ∨
    (s.station st).progress.state = .abandoned ∨ (s.station st).progress.state = .settled ∨
    (s.station st).progress.state = .moving ∧ (s.station st).progress.settle = false

theorem State.allThrough_iff : s.allThrough x = true ↔ s.passed x := by
  unfold State.allThrough State.passed allStations
  rw [List.all_eq_true]
  refine forall_congr' fun st => ?_
  simp only [List.mem_finRange, true_imp_iff, Bool.or_eq_true, bne_iff_ne, beq_iff_eq,
    Progress.through_iff]
  tauto

/-- The table ends (R121). -/
abbrev State.ends (s : State) (x : TableId) : Prop := (s.table x).state = .settling ∧ s.passed x

theorem State.judgeEnd_not (h : ¬ s.ends x) (n : Nat) : s.judgeEnd k (n + 1) x = s := by
  rw [State.judgeEnd]
  exact if_neg fun e => h ⟨e.1, State.allThrough_iff.1 e.2⟩

theorem State.judgeEnd_ends (h : s.ends x) (n : Nat) : s.judgeEnd k (n + 1) x =
    if (s.closeTable k x .done .done).startsLate (TableId.other x) then
      ((s.closeTable k x .done .done).beginTable k (TableId.other x) true).judgeEnd k n (TableId.other x)
    else s.closeTable k x .done .done := by
  rw [State.judgeEnd]
  exact if_pos ⟨h.1, State.allThrough_iff.2 h.2⟩

end Ends

/-! ### What the end of a table keeps -/

section Kept

variable {s : State} {x : TableId} {to_ : TableState}

theorem TableKept.of_unused {free : Prop} {t u : SweepTable} (h : TableKept free t u) (f : ¬ free)
    (e : t.state.cancellable = false) (g : SweepTable → SweepTable) : TableKept free (g t) (g u) := by
  rw [h.unused f e]
  exact .refl _ _

/-- From its record at the end on, the end of a table does what settling may do. -/
theorem Kept.ended (e : to_.cancellable = false) (kind : EndKind) :
    Kept (fun _ => False) False (s.modTable x (fun y => { y with
      state := to_, strobe := none, startDue := false, ended := some (kind, s.time.time) }))
      (s.closeTable Machine.settle x to_ kind) := by
  have released : Kept (fun _ => False) False (s.modTable x (SweepTable.close to_))
      (s.closing Machine.settle x to_) := .releaseTable (fun s => (Kept.settle s).weaken) x _
  have closed : ((s.modTable x (SweepTable.close to_)).table x).state.cancellable = false := by
    rw [State.table_modTable, if_pos rfl]
    exact e
  have now : (s.closing Machine.settle x to_).now = s.time.time := congrArg TimeUnit.time released.time
  have recorded := released.modTable_congr x (f := SweepTable.endAs kind s.time.time) fun h =>
    h.of_unused id closed _
  rw [State.modTable_twice] at recorded
  rw [State.closeTable_closing, now]
  exact recorded.trans (.bump rfl (fun z e => by cases e) fun q => q.elim)

/-- The late start of a table does what settling may do. -/
theorem Kept.lateStart (late : s.startsLate x) (n : Nat) : Kept (fun _ => False) False s
    ((s.beginTable Machine.settle x true).judgeEnd Machine.settle n x) := by
  have start : Kept (fun y => y = x) False s (s.beginTable Machine.settle x true) :=
    .beginTable (E := fun y => y = x) (fun s => (Kept.settle s).weaken) rfl true late.1
  exact (start.close (by rw [late.1]; rfl) (by rw [late.1]; decide)).trans
    (Kept.judgeEnd Kept.settle n x _).weaken

/-- The end of a table latches its class (R12). -/
theorem State.latched_closeTable (kind : EndKind) :
    (s.closeTable k x to_ kind).exchange.summary.getLsbD 7 = true := by
  rw [State.closeTable_closing, State.bump_exchange, BitVec.getLsbD_or]
  exact Bool.or_true _

/-- A table ended, with a late start or none. -/
structure State.EndsAs (to_ : TableState) (kind : EndKind) (x : TableId) (s t : State) : Prop where
  kept : Kept (fun _ => False) False (s.modTable x (fun y => { y with
    state := to_, strobe := none, startDue := false, ended := some (kind, s.time.time) })) t
  latched : t.exchange.summary.getLsbD 7 = true

theorem State.EndsAs.closed (e : to_.cancellable = false) (kind : EndKind) :
    EndsAs to_ kind x s (s.closeTable Machine.settle x to_ kind) :=
  ⟨.ended e kind, State.latched_closeTable kind⟩

theorem State.EndsAs.settled {kind : EndKind} {t u : State} (h : EndsAs to_ kind x s t)
    (k : Kept (fun _ => False) False t u) : EndsAs to_ kind x s u :=
  ⟨h.kept.trans k, k.latched h.latched⟩

theorem State.endsAs_cancelTable (x : TableId) (s : State) :
    EndsAs .cancelled .cancelled x s (s.cancelTable Machine.settle x true) := by
  have closed := State.EndsAs.closed (s := s) (x := x) (to_ := .cancelled) rfl .cancelled
  unfold State.cancelTable
  dsimp only
  split
  · next h =>
    obtain ⟨-, -, late⟩ := h
    exact closed.settled (.lateStart late 2)
  · exact closed

theorem State.endsAs_judgeEnd (h : s.ends x) (n : Nat) :
    EndsAs .done .done x s (s.judgeEnd Machine.settle (n + 1) x) := by
  have closed := State.EndsAs.closed (s := s) (x := x) (to_ := .done) rfl .done
  rw [State.judgeEnd_ends h]
  split
  · next late => exact closed.settled (.lateStart late n)
  · exact closed

end Kept

/-! ### SETTLE_TIMEOUT (R119, R121) -/

section Timeout

variable {s : State} {x : TableId} {st : StationId}

/-- A settle timer that has run out beside a record of the table's run that waits or moves (R119). -/
abbrev State.settleDue (s : State) (st : StationId) (x : TableId) : Prop :=
  (s.station st).progress.table = some x ∧ (s.station st).progress.timer = some 0 ∧
    ((s.station st).progress.state = .waiting ∨ (s.station st).progress.state = .moving) ∧
    ((s.table x).state = .running ∨ (s.table x).state = .settling)

/-- The record passed as SETTLED with the mark, and counted in the table (R119). -/
def State.overdue (st : StationId) (x : TableId) (s : State) : State :=
  (s.modStation st (fun y => { y with progress := { y.progress with
    state := .settled, timer := none, mark := true } })).modTable x
      (fun y => { y with timeouts := y.timeouts + 1 })

theorem exec_settleTimeout_due (h : s.settleDue st x) : exec (.settleTimeout st) s =
    .next (s.publish ((s.overdue st x).judgeEnd settle 2 x)) := by
  obtain ⟨table, timer, record, runs⟩ := h
  change execSettleTimeout st s = _
  unfold execSettleTimeout
  rw [event_eq]
  dsimp only
  rw [table]
  exact congrArg _ (congrArg _ (if_pos ⟨timer, record, TableState.runs_iff.2 runs⟩))

theorem exec_settleTimeout_not (h : ∀ x, ¬ s.settleDue st x) : exec (.settleTimeout st) s = .next s := by
  change execSettleTimeout st s = _
  unfold execSettleTimeout
  rw [event_eq]
  dsimp only
  split
  · exact congrArg _ (State.publish_of_blocks rfl)
  · next t table =>
    rw [if_neg fun ⟨timer, record, runs⟩ => h t ⟨table, timer, record, TableState.runs_iff.1 runs⟩]
    exact congrArg _ (State.publish_of_blocks rfl)

theorem State.table_overdue_state : ((s.overdue st x).table x).state = (s.table x).state := by
  unfold State.overdue
  rw [State.table_modTable, if_pos rfl]
  rfl

/-- The record passed raises no tally. -/
theorem Counts.overdue : Counts [] s (s.overdue st x) := .of_eq rfl rfl rfl

end Timeout

end Sys2Proof.Machine
end

section
/-! PROOFS. O36: the abandonment of a station (R120), the judgement of a record at an expiry (R118, R119), and
the ends of a sweep (R119, R121, R122). -/

namespace Sys2Proof.Machine

variable {k : Settle} {s : State} {x : TableId} {st : StationId} {r : SweepReason}

/-! ### Abandonment (R120) -/

theorem State.clearHold_eq (k : Settle) (st : StationId) (s : State) : s.clearHold k st =
    if (s.station st).hold = none then s
    else (s.modStation st (fun z => { z with hold := none })).inputChanged k st :=
  if_congr Option.isNone_iff_eq_none rfl rfl

theorem RecordState.live_iff {p : RecordState} :
    p.live = true ↔ p = .waiting ∨ p = .moving ∨ p = .settled := by
  cases p <;> simp [RecordState.live]

/-- A station's record put in place of the one it has. -/
def State.putProgress (st : StationId) (q : Progress) (s : State) : State :=
  s.modStation st (fun z => { z with progress := q })

theorem State.modProgress_put (f : Progress → Progress) :
    s.modProgress st f = s.putProgress st (f (s.station st).progress) := State.modStation_ext rfl

/-- The record put in place as it is. -/
theorem State.putProgress_same : s.putProgress st (s.station st).progress = s :=
  State.modStation_same rfl

/-- The record abandoned, its count and its hold cleared, its table not yet judged (R120). -/
def State.dropRecord (k : Settle) (x : TableId) (st : StationId) (r : SweepReason) (s : State) : State :=
  ((s.putProgress st { (s.station st).progress with
    state := .abandoned, reason := some r, timer := none }).modTable x
      (fun t => { t with abandons := t.abandons + 1 })).clearHold k st

theorem State.dropRecord_eq : s.dropRecord k x st r = State.clearHold k st
    ((s.modProgress st (fun p => { p with state := .abandoned, reason := some r, timer := none })).modTable x
      (fun t => { t with abandons := t.abandons + 1 })) := by
  rw [State.modProgress_put]
  rfl

/-- A live record of a table that runs (R120). -/
abbrev State.liveIn (s : State) (st : StationId) (x : TableId) : Prop :=
  (s.station st).progress.table = some x ∧ ((s.station st).progress.state = .waiting ∨
    (s.station st).progress.state = .moving ∨ (s.station st).progress.state = .settled) ∧
    ((s.table x).state = .running ∨ (s.table x).state = .settling)

theorem State.abandon_live (h : s.liveIn st x) :
    s.abandon k st r = (s.dropRecord k x st r).judgeEnd k 2 x := by
  obtain ⟨table, live, runs⟩ := h
  rw [State.dropRecord_eq]
  unfold State.abandon
  dsimp only
  rw [table]
  exact if_pos (by rw [RecordState.live_iff.2 live, TableState.runs_iff.2 runs]; rfl)

theorem State.abandon_free (h : (s.station st).progress.table = none) : s.abandon k st r = s := by
  unfold State.abandon
  dsimp only
  rw [h]

theorem State.abandon_dead (h : (s.station st).progress.table = some x) (n : ¬ s.liveIn st x) :
    s.abandon k st r = s := by
  unfold State.abandon
  dsimp only
  rw [h]
  refine if_neg fun c => n ⟨h, ?_⟩
  rw [Bool.and_eq_true, RecordState.live_iff, TableState.runs_iff] at c
  exact c

/-! ### The judgement of a record (R118, R119) -/

/-- An axis past its brake (R118). -/
abbrev Axis.past (a : Axis) : Prop :=
  a.state ≠ .braked ∧ a.state ≠ .awaitingPower ∧ a.state ≠ .releasing

theorem AxisState.begun_iff (a : Axis) : a.state.begun = true ↔ a.past := by
  unfold Axis.past
  cases a.state <;> simp [AxisState.begun]

theorem Station.begun_iff (z : Station) : z.begun = true ↔
    z.claim.grantedLevel ≠ .none ∧ z.az.past ∧ z.el.past := by
  unfold Station.begun
  rw [Bool.and_eq_true, Bool.and_eq_true, AxisState.begun_iff, AxisState.begun_iff, bne_iff_ne,
    and_assoc]

theorem Station.onSource_iff (z : Station) : z.onSource = true ↔
    ∀ ax, (z.axis ax).computed = true ∧ (z.axis ax).onSource = some true := by
  have both (p : AxisId → Prop) : (∀ ax, p ax) ↔ p .az ∧ p .el :=
    ⟨fun h => ⟨h _, h _⟩, fun h ax => by cases ax; exacts [h.1, h.2]⟩
  unfold Station.onSource
  rw [both]
  simp only [Bool.and_eq_true, beq_iff_eq, Station.axis]
  tauto

/-- A WAITING record whose station the table gives no source (R119). -/
abbrev Station.untargeted (z : Station) : Prop :=
  z.progress.state = .waiting ∧ z.target.source = .none ∧ z.target.row = 7

/-- The state of a record once its station has begun (R119). -/
def Station.recordState (z : Station) : RecordState :=
  if z.progress.state = .waiting ∧ z.begun = true then .moving else z.progress.state

theorem State.judgeRecord_other (h : (s.station st).progress.table ≠ some x) :
    s.judgeRecord k x st = s := if_pos h

section Own

variable (h : (s.station st).progress.table = some x)
include h

theorem State.judgeRecord_untargeted (u : (s.station st).untargeted) :
    s.judgeRecord k x st = s.dropRecord k x st .noTarget := by
  rw [State.dropRecord_eq]
  exact (if_neg (not_not.2 h)).trans (if_pos u)

variable (u : ¬ (s.station st).untargeted)
include u

theorem State.judgeRecord_targeted : s.judgeRecord k x st =
    if (s.station st).recordState = .moving ∧ (s.station st).progress.settle = true ∧
        (s.station st).onSource = true then
      s.putProgress st { (s.station st).progress with state := .settled, timer := none }
    else s.putProgress st { (s.station st).progress with state := (s.station st).recordState } := by
  rw [← State.modProgress_put (fun p => { p with state := .settled, timer := none }),
    ← State.modProgress_put (fun p => { p with state := (s.station st).recordState })]
  exact (if_neg (not_not.2 h)).trans (if_neg u)

/-- The station moves, or has begun to (R119). -/
abbrev Station.movesOn (z : Station) : Prop :=
  z.progress.state = .moving ∨ z.progress.state = .waiting ∧
    z.claim.grantedLevel ≠ .none ∧ z.az.past ∧ z.el.past

omit h u in
theorem Station.recordState_moving (z : Station) : z.recordState = .moving ↔ z.movesOn := by
  unfold Station.recordState Station.movesOn
  rw [← Station.begun_iff]
  split
  · next h => simp [h]
  · next h => simp [h]

omit h u in
theorem Station.recordState_still (z : Station) (h : ¬ z.movesOn) :
    z.recordState = z.progress.state :=
  if_neg fun ⟨waiting, begun⟩ => h (.inr ⟨waiting, (Station.begun_iff z).1 begun⟩)

theorem State.judgeRecord_settles (m : (s.station st).movesOn)
    (settle : (s.station st).progress.settle = true) (o : ∀ ax, ((s.station st).axis ax).computed = true ∧
      ((s.station st).axis ax).onSource = some true) : s.judgeRecord k x st =
        s.putProgress st { (s.station st).progress with state := .settled, timer := none } :=
  (State.judgeRecord_targeted h u).trans (if_pos
    ⟨(Station.recordState_moving _).2 m, settle, (Station.onSource_iff _).2 o⟩)

theorem State.judgeRecord_moves (m : (s.station st).movesOn)
    (n : ¬ ((s.station st).progress.settle = true ∧ ∀ ax, ((s.station st).axis ax).computed = true ∧
      ((s.station st).axis ax).onSource = some true)) : s.judgeRecord k x st =
        s.putProgress st { (s.station st).progress with state := .moving } := by
  rw [State.judgeRecord_targeted h u, (Station.recordState_moving _).2 m]
  exact if_neg fun ⟨_, settle, o⟩ => n ⟨settle, (Station.onSource_iff _).1 o⟩

theorem State.judgeRecord_still (m : ¬ (s.station st).movesOn) : s.judgeRecord k x st = s := by
  rw [State.judgeRecord_targeted h u, if_neg fun c => m ((Station.recordState_moving _).1 c.1),
    Station.recordState_still _ m]
  exact State.putProgress_same

end Own

/-- JS at an expiry, for a table that runs (R114, R119, R121). -/
theorem State.judgeTable_runs (h : (s.table x).state = .running ∨ (s.table x).state = .settling) :
    s.judgeTable k x =
      ((eachOf allStations (State.judgeRecord k x) s).judgeIssue k x).judgeEnd k 2 x :=
  if_pos (TableState.runs_iff.2 h)

/-! ### The ends of a sweep -/

theorem State.takeCancelSweep_eq {page : PageId} {target : BitVec 16} (ht : target.toNat = x.val) :
    s.takeCancelSweep k page target =
      if (s.table x).state.cancellable = true then (s.cancelTable k x true).answer page .done []
      else s.answer page .notNow [] := by
  unfold State.takeCancelSweep
  rw [State.onTable_eq ht]

/-- Settles O36: CANCEL_SWEEP by the end of its table and what stands after it, the settle timeout by the
judgement that follows, and the ends, the abandonment and the judgement of a record by their equations. -/
theorem sweepsEndByCancelAndBySettling : Obligations.SweepsEndByCancelAndBySettling := by
  refine ⟨fun s page target x free ht => ?_, fun s st => ?_, fun k s x => ?_, fun k s st x => ?_⟩
  · intro inUse
    refine ⟨fun unused => request_answer free ?_, fun used => ⟨_, ?_, rfl, ?_, ?_, fun st => ?_⟩⟩
    · rw [State.takeCancelSweep_eq ht, if_neg fun c => unused (TableState.cancellable_iff.1 c)]
    · refine (request_eq free _).trans ?_
      rw [State.takeCancelSweep_eq ht, if_pos (TableState.cancellable_iff.2 used)]
    · exact (State.endsAs_cancelTable x s).kept
    · exact (State.endsAs_cancelTable x s).latched
    · exact State.cancelTable_frees true s st
  · intro p due
    refine ⟨exec_settleTimeout_not, fun x h => ?_⟩
    intro own through
    have judged : exec (.settleTimeout st) s =
        .next (s.publish (own.judgeEnd settle 2 x)) := exec_settleTimeout_due h
    have state : (own.table x).state = (s.table x).state := State.table_overdue_state
    refine ⟨fun stays => ?_, fun settling all => ⟨_, judged, rfl, ?_, ?_⟩⟩
    · have no : ¬ own.ends x := by
        rintro ⟨settling, all⟩
        rcases stays with running | n
        · rw [state, running] at settling
          cases settling
        · exact n all
      rw [State.judgeEnd_not no] at judged
      exact ⟨_, judged, Counts.overdue.publish, rfl⟩
    · exact (State.endsAs_judgeEnd ⟨state.trans settling, all⟩ 1).kept
    · exact (State.endsAs_judgeEnd ⟨state.trans settling, all⟩ 1).latched
  · intro y all closes late ran through ends
    have closed (to_ : TableState) (kind : EndKind) : closes to_ kind (s.closeTable k x to_ kind) := by
      refine ⟨(s.modTable x (SweepTable.close to_)).releaseHolds k x, s.closing k x to_, rfl,
        State.stopTimers_timers x _, ?_⟩
      rw [State.closeTable_closing]
      generalize s.closing k x to_ = w
      rfl
    refine ⟨⟨_, closed .cancelled .cancelled, fun r l => State.cancelTable_late r l,
      fun n => State.cancelTable_not_late n, State.cancelTable_alone x s⟩, fun n =>
      ⟨fun h => State.judgeEnd_not h n, fun h => ⟨_, closed .done .done, fun l => ?_, fun l => ?_⟩⟩⟩
    · exact (State.judgeEnd_ends h n).trans (if_pos l)
    · exact (State.judgeEnd_ends h n).trans (if_neg l)
  · intro z p own cleared dropped live past begun onSource untargeted moves
    have drops (r : SweepReason) : dropped r = s.dropRecord k x st r := by
      unfold State.dropRecord
      rw [State.clearHold_eq]
      rfl
    refine ⟨fun r => ⟨fun h => ?_, State.abandon_free, State.abandon_dead⟩,
      State.judgeRecord_other, fun h => ⟨fun u => ?_, ?_, ?_, ?_⟩, fun h => ?_⟩
    · rw [drops]
      exact State.abandon_live h
    · rw [drops]
      exact State.judgeRecord_untargeted h u
    · rintro ⟨u, m⟩ settle o
      exact State.judgeRecord_settles h u m settle o
    · rintro ⟨u, m⟩ n
      exact State.judgeRecord_moves h u m n
    · intro u m
      exact State.judgeRecord_still h u fun c => m ⟨u, c⟩
    · exact State.judgeTable_runs h

end Sys2Proof.Machine
end

section
/-! PROOFS. One stage of WS: its flags (R135), what it makes of a sample (R130 to R134), and its work at a pass
end (R131, R136, R137). -/

namespace Sys2Proof.Machine

variable {g : Stage}

/-! ### The three flags (R135) -/

/-- A flag sets where it was clear, and clears where it was set. -/
theorem Flag.judge_iff (old : Bool) (sets clears : Prop) [Decidable sets] [Decidable clears] :
    (old = false → (Flag.judge old (decide sets) (decide clears) = true ↔ sets)) ∧
    (old = true → (Flag.judge old (decide sets) (decide clears) = false ↔ clears)) := by
  cases old <;> simp [Flag.judge]

theorem Stage.judgeHigh_none (h : g.cfg.high = none) (f : Int) : g.judgeHigh f = false := by
  rw [Stage.judgeHigh, h]

theorem Stage.judgeHigh_iff {v : Int} (h : g.cfg.high = some v) (f : Int) :
    (g.high = false → (g.judgeHigh f = true ↔ v ≤ f)) ∧
    (g.high = true → (g.judgeHigh f = false ↔ f < v - g.cfg.hysteresis)) := by
  rw [Stage.judgeHigh, h]
  exact Flag.judge_iff ..

theorem Stage.judgeLow_none (h : g.cfg.low = none) (f : Int) : g.judgeLow f = false := by
  rw [Stage.judgeLow, h]

theorem Stage.judgeLow_iff {v : Int} (h : g.cfg.low = some v) (f : Int) :
    (g.low = false → (g.judgeLow f = true ↔ f ≤ v)) ∧
    (g.low = true → (g.judgeLow f = false ↔ v + g.cfg.hysteresis < f)) := by
  rw [Stage.judgeLow, h]
  exact Flag.judge_iff ..

theorem Stage.judgeGust_none (h : g.cfg.gust = none) (x b : Int) : g.judgeGust x b = false := by
  rw [Stage.judgeGust, h]

theorem Stage.judgeGust_iff {v : Int} (h : g.cfg.gust = some v) (x b : Int) :
    (g.gust = false → (g.judgeGust x b = true ↔ v ≤ x - b)) ∧
    (g.gust = true → (g.judgeGust x b = false ↔ x - b < v - g.cfg.hysteresis)) := by
  rw [Stage.judgeGust, h]
  exact Flag.judge_iff ..

section Values

variable {f x b : Int} (hf : g.f = some f) (hx : g.x = some x) (hb : g.b = some b)

include hx hb in
theorem Stage.rejudgeGust_eq : g.rejudgeGust = { g with gust := g.judgeGust x b } := by
  rw [Stage.rejudgeGust, hx, hb]

include hf hx hb in
theorem Stage.judgeFlags_eq : g.judgeFlags =
    { g with high := g.judgeHigh f, low := g.judgeLow f, gust := g.judgeGust x b } := by
  rw [Stage.judgeFlags, hf, hx, hb]

end Values

/-! ### The samples of a stage (R132 to R134) -/

theorem Stage.sample_unseeded (h : g.state = .unseeded) (x : Int) : g.sample x = g.seed x := by
  rw [Stage.sample, h]

theorem Stage.sample_live {f : Int} (h : g.state = .live) (hf : g.f = some f) (x : Int) : g.sample x =
    Stage.judgeFlags { g with x := some x, f := some (f + (x - f) / (2 ^ g.cfg.kf : Int)) } := by
  simp [Stage.sample, h, hf, filterStep]

theorem Stage.sample_first (h : g.state = .fault) (n : g.reseed = some 0) (x : Int) :
    g.sample x = { g with reseed := some 1, x := some x } := by
  simp [Stage.sample, h, n]

theorem Stage.sample_second (h : g.state = .fault) (n : g.reseed = some 1) (x : Int) :
    g.sample x = g.seed x := by
  simp [Stage.sample, h, n]

/-! ### The pass-end work of a stage (R131, R136, R137) -/

/-- A stage whose baseline is frozen (R136). -/
theorem Stage.frozen_iff (g : Stage) : g.frozen = true ↔ g.high = true ∨ g.gust = true := by
  rw [Stage.frozen, Bool.or_eq_true]

theorem Stage.not_frozen_iff (g : Stage) : g.frozen = false ↔ g.high = false ∧ g.gust = false := by
  rw [Stage.frozen, Bool.or_eq_false_iff]

theorem Stage.step_eq {f b : Int} (hf : g.f = some f) (hb : g.b = some b) : g.step =
    { g with b := some (b + (f - b) / (2 ^ g.cfg.ks : Int)), skip := 0, freeze := 0 } := by
  simp [Stage.step, hf, hb, filterStep]

/-- A baseline that is not frozen (R136). -/
theorem Stage.baseline_thawed (n : g.frozen = false) : g.baseline =
    (if g.cfg.skip ≤ g.skip + 1 then g.step else { g with skip := g.skip + 1, freeze := 0 }, false) := by
  rw [Stage.baseline, if_neg (by rw [n]; exact Bool.false_ne_true)]
  split <;> rfl

/-- A frozen baseline, up to its forced recalibration (R136, R137). -/
theorem Stage.baseline_frozen (y : g.frozen = true) : g.baseline =
    if g.cfg.freezeLimit ≠ 0 ∧ g.cfg.freezeLimit ≤ min 4095 (g.freeze + 1) then (g.recalibrate, true)
    else ({ g with freeze := min 4095 (g.freeze + 1) }, false) := by
  rw [Stage.baseline, if_pos y]
  rfl

theorem Stage.passEnd_fault (h : g.state = .fault) : g.passEnd =
    ({ g with reseed := if g.answered then g.reseed else some 0 }, none) := by
  unfold Stage.passEnd
  split
  · next a => rw [if_pos a]
  · next a => rw [a, if_neg Bool.false_ne_true]
  all_goals simp_all

theorem Stage.passEnd_missed (h : g.state ≠ .fault) (a : g.answered = false) : g.passEnd =
    if g.missed < 2 then ({ g with missed := g.missed + 1 }, none)
    else (g.toFault .misses, some .misses) := by
  have third : g.missed + 1 < 3 ↔ g.missed < 2 := by omega
  unfold Stage.passEnd
  split
  case h_4 | h_5 => simp only [third]
  all_goals simp_all

theorem Stage.passEnd_unseeded (h : g.state = .unseeded) (a : g.answered = true) :
    g.passEnd = (g, none) := by
  rw [Stage.passEnd, h, a]

section Live

variable (h : g.state = .live) (a : g.answered = true)
include h a

theorem Stage.passEnd_live :
    g.passEnd = (g.baseline.1, if g.baseline.2 then some .recalibration else none) := by
  unfold Stage.passEnd
  split
  case h_6 => rfl
  all_goals simp_all

theorem Stage.passEnd_thawed (n : g.frozen = false) : g.passEnd =
    (if g.cfg.skip ≤ g.skip + 1 then g.step else { g with skip := g.skip + 1, freeze := 0 }, none) := by
  rw [Stage.passEnd_live h a, Stage.baseline_thawed n]
  rfl

theorem Stage.passEnd_frozen (y : g.frozen = true) : g.passEnd =
    if g.cfg.freezeLimit ≠ 0 ∧ g.cfg.freezeLimit ≤ min 4095 (g.freeze + 1) then
      (g.recalibrate, some .recalibration)
    else ({ g with freeze := min 4095 (g.freeze + 1) }, none) := by
  rw [Stage.passEnd_live h a, Stage.baseline_frozen y]
  split <;> rfl

end Live

end Sys2Proof.Machine
end

section
/-! PROOFS. O38, O39 and O41: a change of one stage in the list in force, a sample reply (R129 to R134), the
four rows of the pass-end work (R131, R136, R137, R142), and the two requests of WS (R138, R139). -/

namespace Sys2Proof.Machine

variable {s : State} {n : Nat} {g : Stage}

/-! ### One stage of the list changed -/

/-- A stage put in place of the one that the list has. -/
def State.putStage (n : Nat) (g : Stage) (s : State) : State :=
  s.modSensing (fun w => { w with stages := w.stages.set n g })

theorem State.modStage_put (h : s.sensing.stages[n]? = some g) (f : Stage → Stage) :
    s.modStage n f = s.putStage n (f g) := by
  have put : s.sensing.stages.modify n f = s.sensing.stages.set n (f g) := by
    obtain ⟨lt, rfl⟩ := List.getElem?_eq_some_iff.1 h
    exact List.modify_eq_set_getElem? f n _ |>.trans (by simp [lt])
  exact congrArg (fun l => { s with sensing := { s.sensing with stages := l } }) put

theorem State.stage_putStage (h : s.sensing.stages[n]? = some g) (g' : Stage) :
    (s.putStage n g').sensing.stages[n]? = some g' :=
  List.getElem?_set_self (List.getElem?_eq_some_iff.1 h).1

theorem State.putStage_twice (g g' : Stage) : (s.putStage n g).putStage n g' = s.putStage n g' := by
  simp [State.putStage, State.modSensing]

/-- A changed stage raises no tally. -/
theorem Counts.putStage (n : Nat) (g : Stage) (s : State) : Counts [] s (s.putStage n g) :=
  .of_eq rfl rfl rfl

/-- A sensing event counts its own tally (R132, R137). -/
theorem Counts.sensingEvent (kind : SensingKind) (n : Nat) (g : Stage) (s : State) :
    Counts [kind.tally] s ((s.putStage n g).sensingEvent kind n) :=
  (Counts.bump _ _).of_before rfl rfl rfl

/-- A command that answers the publication of a state. -/
theorem Counts.published {i : Instr} {u : State} {l : List Tally} (c : Counts l s u)
    (e : exec i s = .next (s.publish u)) : ∃ t, exec i s = .next t ∧ Counts l s t ∧ t.blocks = u.blocks :=
  ⟨_, e, c.publish, rfl⟩

/-! ### SAMPLE_REPLY (R129 to R134) -/

/-- A good reply: its length and check word, its pass, and a stage not yet answered (R129). -/
abbrev State.hears (s : State) (frame : Frame) (g : Stage) : Prop :=
  frame.length = 6 ∧ frame = Frame.seal (frame.take 4) ∧ frame.getD 0 0 = s.sensing.pass ∧
    s.sensing.stages[(frame.getD 1 0).toNat]? = some g ∧ g.answered = false

theorem State.goodReply_iff (s : State) (frame : Frame) :
    s.goodReply frame = true ↔ ∃ g, s.hears frame g := by
  unfold State.goodReply Frame.correct Frame.at State.stage State.hears Frame.sampleLength
  simp only [Bool.and_eq_true, beq_iff_eq]
  cases s.sensing.stages[(frame.getD 1 0).toNat]? <;> simp [and_assoc]

theorem exec_sampleReply_bad {frame : Frame} (h : ∀ g, ¬ s.hears frame g) :
    exec (.sampleReply frame) s = .next s := by
  have bad : ¬ s.goodReply frame = true := fun e => by
    obtain ⟨g, hg⟩ := (s.goodReply_iff frame).1 e
    exact h g hg
  change event s _ = _
  rw [event_eq, if_neg bad, State.publish_of_blocks rfl]

theorem exec_sampleReply_good {frame : Frame} (h : s.hears frame g) : exec (.sampleReply frame) s =
    .next (s.publish (s.takeValue (frame.getD 1 0).toNat (Frame.sampleValue frame))) := by
  change event s _ = _
  rw [event_eq, if_pos ((s.goodReply_iff frame).2 ⟨g, h⟩)]
  rfl

section Value

variable (h : s.sensing.stages[n]? = some g) {x : Int}
include h

theorem State.takeValue_eq : s.takeValue n x =
    if x = Frame.faultCode then
      if g.state = .fault then s.putStage n { g.heard with reseed := some 0 }
      else (s.putStage n (g.heard.toFault .faultCode)).sensingEvent .faultCode n
    else s.putStage n (g.heard.sample x) := by
  have heard := State.stage_putStage h g.heard
  have change (f : Stage → Stage) :
      (s.putStage n g.heard).modStage n f = s.putStage n (f g.heard) := by
    rw [State.modStage_put heard, State.putStage_twice]
  unfold State.takeValue
  dsimp only
  rw [State.modStage_put h, State.stage, heard]
  simp only [change]
  rfl

theorem State.takeValue_sample (hx : x ≠ -32768) :
    s.takeValue n x = s.putStage n (g.heard.sample x) :=
  (State.takeValue_eq h).trans (if_neg hx)

theorem State.takeValue_fault (hx : x = -32768) (f : g.state = .fault) :
    s.takeValue n x = s.putStage n { g.heard with reseed := some 0 } :=
  (State.takeValue_eq h).trans ((if_pos hx).trans (if_pos f))

theorem State.takeValue_faults (hx : x = -32768) (f : g.state ≠ .fault) :
    s.takeValue n x = (s.putStage n (g.heard.toFault .faultCode)).sensingEvent .faultCode n :=
  (State.takeValue_eq h).trans ((if_pos hx).trans (if_neg f))

end Value

/-- Settles O38: the flags by their thresholds, and a good reply by the state of the stage that takes it. -/
theorem goodRepliesFeedTheirStage : Obligations.GoodRepliesFeedTheirStage := by
  refine ⟨fun g f x b hf hx hb => ?_, fun s frame => ?_⟩
  · intro j h
    have flags : j = _ := Stage.judgeFlags_eq hf hx hb
    rw [flags]
    exact ⟨rfl, Stage.rejudgeGust_eq hx hb, fun e => Stage.judgeHigh_none e f,
      fun e => Stage.judgeLow_none e f, fun e => Stage.judgeGust_none e x b,
      fun v e => Stage.judgeHigh_iff e f, fun v e => Stage.judgeLow_iff e f,
      fun v e => Stage.judgeGust_iff e x b⟩
  · intro n x good
    refine ⟨exec_sampleReply_bad, fun g hg => ?_⟩
    intro put heard seeded
    have taken := exec_sampleReply_good hg
    obtain ⟨-, -, -, stage, -⟩ := hg
    have puts {h : Stage} (e : s.takeValue n x = s.putStage n h) : put h :=
      (Counts.putStage n h s).published (e ▸ taken)
    have samples {h : Stage} (hx : x ≠ -32768) (e : g.heard.sample x = h) : put h :=
      puts ((State.takeValue_sample stage hx).trans (congrArg (s.putStage n) e))
    refine ⟨fun hx u => samples hx (Stage.sample_unseeded (g := g.heard) u x),
      fun f hx l hf => samples hx (Stage.sample_live (g := g.heard) l hf x),
      fun hx d r => samples hx (Stage.sample_first (g := g.heard) d r x),
      fun hx d r => samples hx (Stage.sample_second (g := g.heard) d r x),
      fun hx d => puts (State.takeValue_fault stage hx d), fun hx d => ?_⟩
    exact (Counts.sensingEvent ..).published (State.takeValue_faults stage hx d ▸ taken)

/-! ### The rows of the pass-end work (R142) -/

/-- What is done where the list has a stage of a number and that stage meets a condition. -/
def State.whereStage (n : Nat) (p : Stage → Prop) [DecidablePred p] (act : State → State) (s : State) :
    State :=
  match s.stage n with
  | none => s
  | some g => if p g then act s else s

section Row

variable {p : Stage → Prop} [DecidablePred p] {act : State → State} {i : Instr}
  (e : exec i s = event s (State.whereStage n p act))
include e

theorem exec_whereStage_not (h : ∀ g, ¬ (s.sensing.stages[n]? = some g ∧ p g)) :
    exec i s = .next s := by
  have stays : State.whereStage n p act s = s := by
    unfold State.whereStage
    split
    · rfl
    · next g stage => exact if_neg fun c => h g ⟨stage, c⟩
  rw [e, event_eq, stays, State.publish_of_blocks rfl]

theorem exec_whereStage (h : s.sensing.stages[n]? = some g ∧ p g) :
    exec i s = .next (s.publish (act s)) := by
  obtain ⟨stage, c⟩ := h
  have acts : State.whereStage n p act s = act s := by
    unfold State.whereStage
    rw [State.stage, stage]
    exact if_pos c
  rw [e, event_eq, acts]

end Row

/-- STAGE_MISSES (R131). -/
theorem exec_stageMisses (i : StageId) (s : State) : exec (.stageMisses i) s = event s
    (State.whereStage i.val (fun g => g.state ≠ .fault ∧ g.answered = false ∧ 2 ≤ g.missed)
      (fun s => (s.modStage i.val (fun g => g.toFault .misses)).sensingEvent .misses i.val)) := rfl

/-- BASELINE_STEP (R136). -/
theorem exec_baselineStep (i : StageId) (s : State) : exec (.baselineStep i) s = event s
    (State.whereStage i.val (fun g => g.state = .live ∧ g.answered = true ∧ g.frozen = false ∧
      g.cfg.skip ≤ g.skip + 1) (State.modStage · i.val Stage.step)) := rfl

/-- FORCED_RECALIBRATION (R137). -/
theorem exec_forcedRecalibration (i : StageId) (s : State) : exec (.forcedRecalibration i) s = event s
    (State.whereStage i.val (fun g => g.state = .live ∧ g.answered = true ∧ g.frozen = true ∧
      g.cfg.freezeLimit ≠ 0 ∧ g.cfg.freezeLimit ≤ g.freeze + 1)
      (fun s => (s.modStage i.val Stage.recalibrate).sensingEvent .recalibration i.val)) := rfl

/-- A quiet pass (R142). -/
theorem State.quietPass_iff (s : State) : s.quietPass = true ↔
    (∀ g ∈ s.sensing.stages, g.high = false ∧ g.gust = false) ∧
      ∀ z, (s.zone z).state = .calm ∨ (s.zone z).state = .unwatched := by
  simp [State.quietPass, Stage.not_frozen_iff, allZones]

/-- The condition under which QUIET_RATE_ENTRY acts (R142). -/
abbrev State.turnsQuiet (s : State) : Prop :=
  s.sensing.rate = .full ∧ Config.quietLimit ≤ s.sensing.quietCount + 1 ∧ s.quietPass = true

theorem exec_quietRateEntry (h : s.turnsQuiet) : exec .quietRateEntry s = .next (s.publish
    (s.modSensing (fun w => { w with quietCount := Config.quietLimit, rate := .quiet }))) := by
  refine (event_eq ..).trans ?_
  rw [if_pos h]

theorem exec_quietRateEntry_not (h : ¬ s.turnsQuiet) : exec .quietRateEntry s = .next s := by
  refine (event_eq ..).trans ?_
  rw [if_neg h, State.publish_of_blocks rfl]

theorem State.turnsQuiet_iff (s : State) : s.turnsQuiet ↔ s.sensing.rate = .full ∧
    239 ≤ s.sensing.quietCount ∧ (∀ g ∈ s.sensing.stages, g.high = false ∧ g.gust = false) ∧
      ∀ z, (s.zone z).state = .calm ∨ (s.zone z).state = .unwatched := by
  rw [State.turnsQuiet, State.quietPass_iff, Config.quietLimit, Nat.succ_le_succ_iff]

/-- Settles O39: the work of a stage by its state, and the four rows by their conditions. -/
theorem passEndWorksEachStage : Obligations.PassEndWorksEachStage := by
  refine ⟨fun g => ?_, fun s => ?_⟩
  · intro frozen count
    refine ⟨Stage.passEnd_fault, fun h a m => (Stage.passEnd_missed h a).trans (if_pos m),
      fun h a m => (Stage.passEnd_missed h a).trans (if_neg (by omega)), Stage.passEnd_unseeded,
      fun h a n m => ?_, fun f b h a n m hf hb => ?_, fun h a y => ⟨fun m => ?_, fun m m' => ?_⟩⟩
    · rw [Stage.passEnd_thawed h a (by simpa [frozen, ← Stage.frozen_iff] using n), if_neg (by omega)]
    · rw [Stage.passEnd_thawed h a (by simpa [frozen, ← Stage.frozen_iff] using n), if_pos m,
        Stage.step_eq hf hb]
    · rw [Stage.passEnd_frozen h a (g.frozen_iff.2 y), if_neg (by omega)]
    · rw [Stage.passEnd_frozen h a (g.frozen_iff.2 y), if_pos ⟨m, m'⟩]
      rfl
  · intro quiet
    refine ⟨fun h => ?_, fun h => exec_quietRateEntry_not (mt s.turnsQuiet_iff.1 h), fun i => ?_⟩
    · exact Counts.published (.of_eq rfl rfl rfl) (exec_quietRateEntry (s.turnsQuiet_iff.2 h))
    intro misses answered steps forced put
    refine ⟨exec_whereStage_not (exec_stageMisses i s), fun g h => ?_, fun h => ?_,
      fun g f b h hf hb => ?_, fun h => ?_, fun g h => ?_⟩
    · have done := exec_whereStage (exec_stageMisses i s) h
      rw [State.modStage_put h.1] at done
      exact (Counts.sensingEvent ..).published done
    · refine exec_whereStage_not (exec_baselineStep i s) fun g ⟨stage, l, a, n, m⟩ => h g ?_
      obtain ⟨high, gust⟩ := g.not_frozen_iff.1 n
      exact ⟨⟨stage, l, a⟩, high, gust, m⟩
    · obtain ⟨⟨stage, l, a⟩, high, gust, m⟩ := h
      have done := exec_whereStage (exec_baselineStep i s)
        ⟨stage, l, a, g.not_frozen_iff.2 ⟨high, gust⟩, m⟩
      rw [State.modStage_put stage, Stage.step_eq hf hb] at done
      exact (Counts.putStage ..).published done
    · refine exec_whereStage_not (exec_forcedRecalibration i s) fun g ⟨stage, l, a, y, m⟩ => h g ?_
      exact ⟨⟨stage, l, a⟩, g.frozen_iff.1 y, m⟩
    · obtain ⟨⟨stage, l, a⟩, y, m⟩ := h
      have done := exec_whereStage (exec_forcedRecalibration i s)
        ⟨stage, l, a, g.frozen_iff.2 y, m⟩
      rw [State.modStage_put stage] at done
      exact (Counts.sensingEvent ..).published done

/-! ### The two requests (R138, R139) -/

theorem clampNat_upTo (n x : Nat) : clampNat 0 n x = min n x := by
  rw [clampNat_eq n.zero_le, Nat.zero_max]

theorem clampNat_upTo_bne (n x : Nat) : (clampNat 0 n x != x) = decide (n < x) := by
  rw [clampNat_upTo, Bool.eq_iff_iff, bne_iff_ne, decide_eq_true_iff]
  omega

/-- Settles O41: the two requests by their takes. -/
theorem sensingRequestsPendOrRecalibrate : Obligations.SensingRequestsPendOrRecalibrate := by
  intro s page free
  refine ⟨fun count => ⟨_, request_eq free _, ?_, rfl, rfl, fun a ha => ?_⟩,
    ⟨_, request_eq free _, ?_, rfl⟩⟩
  · rw [State.blocks_publish, State.takeConfigureSensing, State.blocks_modExchange, clampNat_upTo_bne,
      clampNat_upTo]
  · exact State.read_publish (Layout.not_isStatus ha)
  · exact (Answers.of_counts (s := s) (t := s.recalibrateAll) (.of_eq rfl rfl rfl) page .done
      (Bytes.ofNat 1 s.liveCount)).publish

end Sys2Proof.Machine
end

section
/-! PROOFS. What WP and HC do at a pass end (R147 to R149, R168, R181): the judgements of every wind zone and of
every heater zone, and what all that follows from them leaves. -/

namespace Sys2Proof.Machine

/-! ### A change made for each member of a list, each with a record of its own -/

theorem eachOf_invariant {α : Type} {f : α → State → State} {I : State → Prop}
    (keeps : ∀ a s, I s → I (f a s)) (l : List α) {s : State} (h : I s) : I (eachOf l f s) := by
  induction l generalizing s with
  | nil => exact h
  | cons a l ih => exact ih (keeps a s h)

section Own

variable {α β : Type} {f : α → State → State} {I : State → Prop} {view : α → State → β}
  {F : α → β → β} (keeps : ∀ a s, I s → I (f a s))
  (other : ∀ a b s, I s → b ≠ a → view b (f a s) = view b s)
include keeps other

theorem eachOf_other {l : List α} {s : State} (h : I s) {b : α} (n : b ∉ l) :
    view b (eachOf l f s) = view b s := by
  induction l generalizing s with
  | nil => rfl
  | cons a l ih =>
    obtain ⟨ne, n⟩ := not_or.1 (mt List.mem_cons.2 n)
    exact (ih (keeps a s h) n).trans (other a b s h ne)

/-- Each member's record is changed by its own turn alone. -/
theorem eachOf_own (own : ∀ a s, I s → view a (f a s) = F a (view a s)) {l : List α} (nodup : l.Nodup)
    {s : State} (h : I s) {b : α} (m : b ∈ l) : view b (eachOf l f s) = F b (view b s) := by
  induction l generalizing s with
  | nil => cases m
  | cons a l ih =>
    obtain ⟨n, nodup⟩ := List.nodup_cons.1 nodup
    obtain rfl | m := List.mem_cons.1 m
    · exact (eachOf_other keeps other (keeps b s h) n).trans (own b s h)
    · have ne : b ≠ a := fun e => n (e ▸ m)
      exact (ih nodup (keeps a s h) m).trans (congrArg (F b) (other a b s h ne))

end Own

/-! ### What the zones and heaters of a pass end leave -/

/-- A zone without its state, the timers and the records that follow its state. -/
def Zone.weather (x : Zone) : Zone :=
  { x with state := .unwatched, holdTimer := none, deadline := none, members := [], exposed := [],
           last := none }

theorem ZoneSame.weather {x y : Zone} (h : ZoneSame x y) : y.weather = x.weather := by
  obtain ⟨cfg, speed, gust, gustStow, blind, blindTimer, order, causes⟩ := h
  simp only [Zone.weather, cfg, speed, gust, gustStow, blind, blindTimer, order, causes]

/-- The mode of a heater zone, its auto demand and its SENSOR_MISSING flag (R165, R168). -/
def Heater.demand (h : Heater) : HeatMode × Bool × Bool := (h.mode, h.auto, h.sensorMissing)

theorem HeaterKept.demand {h g : Heater} (k : HeaterKept h g) : g.demand = h.demand := by
  rw [Heater.demand, k.mode, k.auto, k.sensorMissing, Heater.demand]

/-- The frame of the work of WP and HC at a pass end. -/
structure PassFrame (s t : State) : Prop where
  sheltered : Sheltered s t
  link : ∀ x, (t.station x).link = (s.station x).link
  tally : ∀ x : Tally, x.settles = false → t.tally x = s.tally x

/-- What follows from the judgements of a pass end: its frame, and the judgements as they were made. -/
structure PassStands (s t : State) : Prop extends PassFrame s t where
  zone : ∀ z, (t.zone z).weather = (s.zone z).weather
  demand : ∀ x a, ((t.station x).heater a).demand = ((s.station x).heater a).demand

theorem PassFrame.refl (s : State) : PassFrame s s := ⟨.refl s, fun _ => rfl, fun _ _ => rfl⟩

theorem PassFrame.trans {s t u : State} (h : PassFrame s t) (k : PassFrame t u) : PassFrame s u :=
  ⟨h.sheltered.trans k.sheltered, fun x => (k.link x).trans (h.link x),
    fun x e => (k.tally x e).trans (h.tally x e)⟩

theorem PassFrame.modZone (z : ZoneId) (f : Zone → Zone) (s : State) : PassFrame s (s.modZone z f) :=
  ⟨⟨rfl, rfl, rfl, rfl, ⟨0, by simp⟩, fun _ => ⟨rfl, rfl, rfl, rfl, rfl⟩, fun _ _ => rfl⟩,
    fun _ => rfl, fun _ _ => rfl⟩

theorem PassFrame.modHeater (st : StationId) (area : Area) (f : Heater → Heater) (s : State) :
    PassFrame s (s.modHeater st area f) := by
  refine ⟨.modStation fun x => ?_, fun x => ?_, fun _ _ => rfl⟩
  · cases area <;> exact ⟨rfl, rfl, rfl, rfl, rfl⟩
  · rw [State.modHeater, State.station_modStation]
    split
    · subst_vars; cases area <;> rfl
    · rfl

namespace PassStands

theorem refl (s : State) : PassStands s s := ⟨.refl s, fun _ => rfl, fun _ _ => rfl⟩

theorem trans {s t u : State} (h : PassStands s t) (k : PassStands t u) : PassStands s u :=
  ⟨h.toPassFrame.trans k.toPassFrame, fun z => (k.zone z).trans (h.zone z),
    fun x a => (k.demand x a).trans (h.demand x a)⟩

theorem ite {c : Prop} [Decidable c] {s t u : State} (h : PassStands s t) (k : PassStands s u) :
    PassStands s (if c then t else u) := by
  split
  · exact h
  · exact k

theorem of_kept {E : TableId → Prop} {Q : Prop} {s t : State} (h : Kept E Q s t) : PassStands s t :=
  ⟨⟨.of_apart h.apart fun x => (h.station x).tags, fun x => (h.station x).link, h.tally⟩,
    fun z => (ZoneSame.of_kept (h.zone z)).weather, fun x a => ((h.station x).heater a).demand⟩

theorem modZone {z : ZoneId} {f : Zone → Zone} {s : State}
    (h : (f (s.zone z)).weather = (s.zone z).weather) : PassStands s (s.modZone z f) := by
  refine ⟨.modZone z f s, fun y => ?_, fun _ _ => rfl⟩
  rw [State.zone_modZone]
  split
  · subst_vars; exact h
  · rfl

theorem zoneEvent (z : ZoneId) (left : ZoneState) (s : State) : PassStands s (s.zoneEvent z left) := by
  have counted (u : State) : PassStands u (u.bump (.zoneChanges z)) :=
    ⟨⟨.bump _ u, fun _ => rfl, fun x e =>
        (State.tally_bump ..).trans (if_neg (by rintro rfl; cases e))⟩, fun _ => rfl, fun _ _ => rfl⟩
  exact .trans (.modZone rfl) (counted _)

/-! ### WP (R149, R150, R156) -/

theorem moveZone {z : ZoneId} {to_ : ZoneState} {f : Zone → Zone} {s : State}
    (h : (f ((s.zone z).into to_)).weather = (s.zone z).weather) :
    PassStands s (s.moveZone settle z to_ f) :=
  .trans (.trans (.modZone h) (.zoneEvent ..))
    (of_kept (Kept.moveZone (E := fun _ => False) (Q := True) Kept.settle z to_ f s))

theorem enterStowing (z : ZoneId) (s : State) : PassStands s (s.enterStowing settle z) :=
  .trans (.modZone (f := Zone.toStowing) rfl) (of_kept (Kept.enterStowing Kept.settle z s))

theorem moveByWeather (z : ZoneId) (s : State) : PassStands s (s.moveByWeather settle z) :=
  .ite (.moveZone rfl) (.ite (.moveZone rfl) (.refl s))

theorem holdAgain (z : ZoneId) (s : State) : PassStands s (s.modZone z Zone.holdAgain) := by
  refine .modZone ?_
  unfold Zone.holdAgain
  split
  · rfl
  · split <;> rfl

/-- The evaluation of a zone, once its causes are recorded. -/
theorem evaluate (z : ZoneId) (s : State) :
    PassStands (s.withCauses z) (s.evaluate settle true z) := by
  unfold State.evaluate State.withCauses
  generalize s.modZone z _ = u
  dsimp only
  split
  case h_5 | h_8 | h_9 => exact .refl u
  case h_6 | h_7 => exact .moveByWeather z u
  case h_10 | h_11 => exact .moveZone rfl
  case h_12 => exact .holdAgain z u
  all_goals exact .enterStowing z u

/-! ### HC (R168 to R170, R173) -/

theorem changeHeater {st : StationId} {area : Area} {f : Heater → Heater}
    (hf : ∀ h, (f h).demand = h.demand) (s : State) :
    PassStands s (s.changeHeater settle st area f) := by
  have c := s.changeHeater_changed st area f
  refine ⟨⟨.of_apart c.apart c.tags, fun x => ?_, c.tally⟩, fun z => ?_, fun x a => ?_⟩
  · obtain ⟨-, link, -⟩ := c.apart.station x
    exact link
  · obtain ⟨cfg, order, causes, speed, gust, gustStow, blind, blindTimer, -⟩ := c.apart.zone z
    exact ZoneSame.weather ⟨cfg, speed, gust, gustStow, blind, blindTimer, order, causes⟩
  · by_cases e : x = st ∧ a = area
    · obtain ⟨rfl, rfl⟩ := e
      exact c.own.demand.trans (hf _)
    · exact (c.other x a (by tauto)).demand

theorem judgeHeat (st : StationId) (area : Area) (s : State) :
    PassStands s (s.judgeHeat settle st area) :=
  .trans (.ite (.changeHeater (fun _ => by rfl) s) (.refl s))
    (.ite (.changeHeater (fun _ => by rfl) _) (.refl _))

/-- A change of what a heat call follows from, once it is recorded. -/
theorem changeCall (st : StationId) (area : Area) (f : Heater → Heater) (s : State) :
    PassStands (s.modHeater st area f) (s.changeCall settle st area f) := by
  have ended (h : Heater) : h.endCall.demand = h.demand := by
    unfold Heater.endCall
    split <;> rfl
  unfold State.changeCall
  exact .ite (.refl _) (.ite (.judgeHeat ..) (.changeHeater ended _))

end PassStands

/-! ### The wind zones at a pass end -/

/-- The zone as its judgements and the record of its causes leave it (R147 to R149). -/
def Zone.judged (live : List Stage) (siteStow : Bool) (x : Zone) : Zone :=
  { x.judgeWeather live with causes := (x.judgeWeather live).causesNow siteStow }

theorem State.usableStage_congr {s t : State} (h : t.sensing.stages = s.sensing.stages) (n : Nat)
    (kind : StageKind) : t.usableStage n kind = s.usableStage n kind := by
  rw [State.usableStage, State.usableStage, State.stage, State.stage, h]

section Wind

variable {s t : State}

/-- What has become of the state while every zone's judgements are under way. -/
abbrev State.demandsStand (s t : State) : Prop :=
  PassFrame s t ∧ ∀ x a, ((t.station x).heater a).demand = ((s.station x).heater a).demand

theorem State.demandsStand_judgeWeather (z : ZoneId) (h : s.demandsStand t) :
    s.demandsStand (t.judgeWeather z) :=
  ⟨h.1.trans (.modZone ..), h.2⟩

theorem State.demandsStand_evaluate (z : ZoneId) (h : s.demandsStand t) :
    s.demandsStand (t.evaluate settle true z) :=
  ⟨h.1.trans ((PassFrame.modZone ..).trans (PassStands.evaluate z t).toPassFrame),
    fun x a => ((PassStands.evaluate z t).demand x a).trans (h.2 x a)⟩

theorem State.demandsStand_windPassEnd (s : State) : s.demandsStand (s.windPassEnd settle) :=
  eachOf_invariant (fun z _ => State.demandsStand_evaluate z) _
    (eachOf_invariant (fun z _ => State.demandsStand_judgeWeather z) _ ⟨.refl s, fun _ _ => rfl⟩)

theorem State.zone_withCauses (z y : ZoneId) (s : State) : ((s.withCauses z).zone y).weather =
    if y = z then { (s.zone y).weather with causes := (s.zone y).weather.causesNow s.lines.siteStow }
    else (s.zone y).weather := by
  unfold State.withCauses
  rw [State.zone_modZone]
  split
  · subst_vars
    rw [if_pos rfl]
    rfl
  · rw [if_neg (Ne.symm ‹_›)]

/-- Every zone is judged on the stages as they stand and has its causes recorded (R147 to R149). -/
theorem State.zone_windPassEnd (s : State) (z : ZoneId) : ((s.windPassEnd settle).zone z).weather =
    ((s.zone z).judged (s.liveWind z) s.lines.siteStow).weather := by
  have judged : (eachOf allZones State.judgeWeather s).zone z =
      (s.zone z).judgeWeather ((s.zone z).cfg.stages.filterMap (s.usableStage · .windSpeed)) := by
    refine eachOf_own (f := State.judgeWeather) (I := fun t => t.sensing = s.sensing)
      (view := fun z t => t.zone z)
      (F := fun z x => x.judgeWeather (x.cfg.stages.filterMap (s.usableStage · .windSpeed)))
      (fun _ _ => id) (fun a b t _ ne => ?_) (fun a t h => ?_) (List.nodup_finRange 4) rfl
      (List.mem_finRange z)
    · rw [State.judgeWeather, State.zone_modZone, if_neg ne.symm]
    · rw [State.judgeWeather, State.zone_modZone, if_pos rfl, State.liveWind]
      simp only [State.usableStage_congr (congrArg Sensing.stages h)]
  have begun : s.demandsStand (eachOf allZones State.judgeWeather s) :=
    eachOf_invariant (fun z _ => State.demandsStand_judgeWeather z) _ ⟨.refl s, fun _ _ => rfl⟩
  have evaluated := eachOf_own (l := allZones) (I := s.demandsStand)
    (view := fun z t => (t.zone z).weather)
    (F := fun _ x => { x with causes := x.causesNow s.lines.siteStow })
    (fun z _ => State.demandsStand_evaluate z)
    (fun a b t _ ne => ((PassStands.evaluate a t).zone b).trans
      ((State.zone_withCauses a b t).trans (if_neg ne)))
    (fun a t h => ((PassStands.evaluate a t).zone a).trans
      ((State.zone_withCauses a a t).trans ((if_pos rfl).trans (by rw [h.1.sheltered.lines]))))
    (List.nodup_finRange 4) begun (List.mem_finRange z)
  refine evaluated.trans ?_
  rw [judged]
  rfl

end Wind

/-! ### The heater zones at a pass end -/

/-- The auto demand of an AUTO zone whose station is not retired, as it is judged (R168). -/
def Heater.judged (retired : Bool) (d : Bool × Bool) (v : HeatMode × Bool × Bool) :
    HeatMode × Bool × Bool :=
  if v.1 = .auto ∧ retired = false then (v.1, d) else v

theorem Heater.judged_auto {h : Heater} {retired : Bool} (c : h.mode = .auto ∧ retired = false)
    (d : Bool × Bool) : Heater.judged retired d h.demand = (h.mode, d) := if_pos c

theorem Heater.judged_other {h : Heater} {retired : Bool} (c : ¬ (h.mode = .auto ∧ retired = false))
    (d : Bool × Bool) : Heater.judged retired d h.demand = h.demand := if_neg c

theorem State.autoDemand_congr {s t : State} (h : t.sensing.stages = s.sensing.stages) {st : StationId}
    (hc : (t.station st).cfg = (s.station st).cfg) (area : Area) :
    t.autoDemand st area = s.autoDemand st area := by
  have ref (r : Option Nat) (kind : StageKind) : t.refStage r kind = s.refStage r kind := by
    unfold State.refStage
    split
    · rfl
    · exact State.usableStage_congr h ..
  unfold State.autoDemand State.refMissing
  simp only [ref, hc]

theorem Station.heater_other {x : Station} {area a : Area} (f : Heater → Heater) (h : a ≠ area) :
    (x.modHeater area f).heater a = x.heater a :=
  (Station.heater_modHeater ..).trans (if_neg h.symm)

section Heat

variable {s t : State}

/-- What has become of the state while every heater zone's judgement is under way. -/
abbrev State.weatherStands (s t : State) : Prop :=
  PassFrame s t ∧ ∀ z, (t.zone z).weather = (s.zone z).weather

theorem PassStands.judgeAuto_on {st : StationId} {area : Area}
    (h : ((s.station st).heater area).mode = .auto ∧ (s.station st).retired = false) :
    PassStands (s.modHeater st area (fun h => h.setAuto (s.autoDemand st area).1 (s.autoDemand st area).2))
      (s.judgeAuto settle st area) := by
  rw [State.judgeAuto, if_pos h]
  exact .changeCall ..

theorem State.weatherStands_judgeAuto (st : StationId) (area : Area) (h : s.weatherStands t) :
    s.weatherStands (t.judgeAuto settle st area) := by
  by_cases c : ((t.station st).heater area).mode = .auto ∧ (t.station st).retired = false
  · have judged := PassStands.judgeAuto_on c
    exact ⟨h.1.trans ((PassFrame.modHeater ..).trans judged.toPassFrame),
      fun z => (judged.zone z).trans (h.2 z)⟩
  · rwa [State.judgeAuto, if_neg c]

theorem PassStands.judgeShed (st : StationId) (s : State) : PassStands s (s.judgeShed settle st) :=
  of_kept (E := fun _ => False) (Q := True) (.judgeShed Kept.settle st s)

theorem State.weatherStands_heatPassEnd (st : StationId) (h : s.weatherStands t) :
    s.weatherStands (t.heatPassEnd settle st) := by
  have two := State.weatherStands_judgeAuto st .feed (State.weatherStands_judgeAuto st .reflector h)
  have shed := PassStands.judgeShed st ((t.judgeAuto settle st .reflector).judgeAuto settle st .feed)
  exact ⟨two.1.trans shed.toPassFrame, fun z => (shed.zone z).trans (two.2 z)⟩

theorem State.demand_judgeAuto_other (s : State) {st x : StationId} {area a : Area}
    (n : x ≠ st ∨ a ≠ area) : (((s.judgeAuto settle st area).station x).heater a).demand =
      ((s.station x).heater a).demand := by
  by_cases c : ((s.station st).heater area).mode = .auto ∧ (s.station st).retired = false
  · refine ((PassStands.judgeAuto_on c).demand x a).trans ?_
    rw [State.modHeater, State.station_modStation]
    split
    · subst_vars
      rw [Station.heater_other _ (n.resolve_left (not_not.2 rfl))]
    · rfl
  · rw [State.judgeAuto, if_neg c]

theorem State.demand_judgeAuto (h : s.weatherStands t) (st : StationId) (area : Area) :
    (((t.judgeAuto settle st area).station st).heater area).demand =
      Heater.judged (s.station st).retired (s.autoDemand st area)
        ((t.station st).heater area).demand := by
  obtain ⟨cfg, -, -, -, retired⟩ := h.1.sheltered.station st
  rw [← retired, ← State.autoDemand_congr (congrArg Sensing.stages h.1.sheltered.sensing) cfg]
  by_cases c : ((t.station st).heater area).mode = .auto ∧ (t.station st).retired = false
  · refine ((PassStands.judgeAuto_on c).demand st area).trans ?_
    rw [Heater.judged_auto c, State.modHeater, State.station_modStation, if_pos rfl,
      Station.heater_modHeater, if_pos rfl]
    rfl
  · rw [State.judgeAuto, if_neg c, Heater.judged_other c]

theorem State.demand_heatPassEnd (h : s.weatherStands t) (st : StationId) (area : Area) :
    (((t.heatPassEnd settle st).station st).heater area).demand =
      Heater.judged (s.station st).retired (s.autoDemand st area)
        ((t.station st).heater area).demand := by
  refine ((PassStands.judgeShed ..).demand st area).trans ?_
  have one := State.weatherStands_judgeAuto st .reflector h
  cases area
  case reflector =>
    exact (State.demand_judgeAuto_other _ (.inr (by decide))).trans (State.demand_judgeAuto h st .reflector)
  case feed =>
    exact (State.demand_judgeAuto one st .feed).trans
      (congrArg _ (State.demand_judgeAuto_other _ (.inr (by decide))))

theorem State.demand_heatPassEnd_other (t : State) {st x : StationId} (n : x ≠ st) (area : Area) :
    (((t.heatPassEnd settle st).station x).heater area).demand =
      ((t.station x).heater area).demand :=
  ((PassStands.judgeShed ..).demand x area).trans ((State.demand_judgeAuto_other _ (.inl n)).trans
    (State.demand_judgeAuto_other _ (.inl n)))

/-- Every AUTO zone of a station that is not retired has its auto demand judged (R168). -/
theorem State.demand_heatPassEnds (s : State) (st : StationId) (area : Area) :
    (((eachOf allStations (State.heatPassEnd settle) s).station st).heater area).demand =
      Heater.judged (s.station st).retired (s.autoDemand st area)
        ((s.station st).heater area).demand :=
  congrFun (eachOf_own (I := s.weatherStands) (l := allStations)
    (view := fun st t area => ((t.station st).heater area).demand)
    (F := fun st v area => Heater.judged (s.station st).retired (s.autoDemand st area) (v area))
    (fun st _ => State.weatherStands_heatPassEnd st)
    (fun _ _ t _ n => funext (t.demand_heatPassEnd_other n))
    (fun st _ h => funext (State.demand_heatPassEnd h st)) (List.nodup_finRange 16)
    ⟨.refl s, fun _ => rfl⟩ (List.mem_finRange st)) area

theorem State.weatherStands_heatPassEnds (s : State) :
    s.weatherStands (eachOf allStations (State.heatPassEnd settle) s) :=
  eachOf_invariant (fun st _ => State.weatherStands_heatPassEnd st) _ ⟨.refl s, fun _ => rfl⟩

end Heat

/-! ### Both -/

/-- The work of WP and then of HC at a pass end (R143, R168). -/
def State.judgedAll (s : State) : State :=
  eachOf allStations (State.heatPassEnd settle) (s.windPassEnd settle)

theorem State.judgedAll_frame (s : State) : PassFrame s s.judgedAll :=
  s.demandsStand_windPassEnd.1.trans (State.weatherStands_heatPassEnds _).1

theorem State.judgedAll_zone (s : State) (z : ZoneId) : (s.judgedAll.zone z).weather =
    ((s.zone z).judged (s.liveWind z) s.lines.siteStow).weather :=
  ((State.weatherStands_heatPassEnds _).2 z).trans (s.zone_windPassEnd z)

theorem State.judgedAll_demand (s : State) (st : StationId) (area : Area) :
    ((s.judgedAll.station st).heater area).demand = Heater.judged (s.station st).retired
      (s.autoDemand st area) ((s.station st).heater area).demand := by
  obtain ⟨frame, stands⟩ := s.demandsStand_windPassEnd
  obtain ⟨cfg, -, -, -, retired⟩ := frame.sheltered.station st
  rw [State.judgedAll, State.demand_heatPassEnds, stands, retired,
    State.autoDemand_congr (congrArg Sensing.stages frame.sheltered.sensing) cfg]

end Sys2Proof.Machine
end

section
/-! PROOFS. The work of a pass end (R127, R131, R142), the stage list in exchange memory (R140, R141) and the
start of a pass (R128). -/

namespace Sys2Proof.Machine

/-! ### The work of every stage, with its tallies (R131, R136, R137) -/

theorem passStages_stages (now n : Nat) (l : List Stage) :
    (passStages now n l).1 = l.map (fun g => g.passEnd.1) := by
  induction l generalizing n with
  | nil => rfl
  | cons g l ih => rw [passStages, List.map_cons, ih]

/-- The events of a pass end are those that its stages raise. -/
theorem passStages_count (kind : SensingKind) (now n : Nat) (l : List Stage) :
    (passStages now n l).2.countP (fun e => e.kind == kind) =
      (l.filter (fun g => g.passEnd.2 == some kind)).length := by
  rw [← List.countP_eq_length_filter]
  induction l generalizing n with
  | nil => rfl
  | cons g l ih =>
    rw [passStages, List.countP_cons, ← ih (n + 1)]
    cases g.passEnd.2 with
    | none => rfl
    | some k => exact List.countP_cons

theorem Counts.bumps (l : List SensingEvent) (s : State) : Counts (l.map (fun e => e.kind.tally)) s
    (l.foldl (fun s e => s.bump e.kind.tally) s) := by
  induction l generalizing s with
  | nil => exact .refl s
  | cons e l ih => exact (Counts.bump s e.kind.tally).trans (ih _)

theorem State.blocks_bumps (l : List SensingEvent) (s : State) :
    (l.foldl (fun s e => s.bump e.kind.tally) s).blocks = s.blocks := by
  induction l generalizing s with
  | nil => rfl
  | cons e l ih => exact ih _

theorem SensingKind.count_tally (l : List SensingEvent) :
    (l.map (fun e => e.kind.tally)).count .stageFaults =
      l.countP (fun e => e.kind == .misses) + l.countP (fun e => e.kind == .faultCode) ∧
    (l.map (fun e => e.kind.tally)).count .recalibrations =
      l.countP (fun e => e.kind == .recalibration) := by
  induction l with
  | nil => exact ⟨rfl, rfl⟩
  | cons e l ih =>
    obtain ⟨faults, recalibrations⟩ := ih
    rw [List.map_cons, List.count_cons, List.count_cons, faults, recalibrations]
    simp only [List.countP_cons]
    cases e.kind <;> simp [SensingKind.tally] <;> omega

/-- How many stages raise an event at a pass end. -/
def State.raised (s : State) (kind : SensingKind) : Nat :=
  (s.sensing.stages.filter (fun g => g.passEnd.2 == some kind)).length

/-- The events of a pass end. -/
def State.passEvents (s : State) : List SensingEvent := (passStages s.now 0 s.sensing.stages).2

/-- The stages as their pass-end work leaves them, with the last sensing event. -/
def State.stagesWorked (s : State) : State :=
  s.modSensing (fun w => { w with
    stages := w.stages.map (fun g => g.passEnd.1),
    last := match s.passEvents.getLast? with
      | none => w.last
      | some e => some e })

theorem State.passWork_eq (s : State) : s.passWork = s.passEvents.foldl
    (fun s e => s.bump e.kind.tally)
      (s.stagesWorked.modSensing (Sensing.nextRate · s.stagesWorked.quietPass)) := by
  have stages := passStages_stages s.now 0 s.sensing.stages
  have worked : s.modSensing (fun w => { w with
      stages := (passStages s.now 0 s.sensing.stages).1,
      last := match (passStages s.now 0 s.sensing.stages).2.getLast? with
        | none => w.last
        | some e => some e }) = s.stagesWorked := by
    rw [stages]
    rfl
  unfold State.passWork
  dsimp only
  rw [← worked]
  rfl

theorem State.passWork_counts (s : State) :
    Counts (s.passEvents.map (fun e => e.kind.tally)) s s.passWork := by
  rw [State.passWork_eq]
  exact (Counts.bumps ..).of_before rfl rfl rfl

theorem State.passWork_blocks (s : State) : s.passWork.blocks =
    { s.blocks with sensing := s.stagesWorked.sensing.nextRate s.stagesWorked.quietPass } := by
  rw [State.passWork_eq, State.blocks_bumps]
  rfl

theorem State.passWork_sensing (s : State) :
    s.passWork.sensing = s.stagesWorked.sensing.nextRate s.stagesWorked.quietPass :=
  congrArg Blocks.sensing s.passWork_blocks

theorem State.passWork_stages (s : State) :
    s.passWork.sensing.stages = s.sensing.stages.map (fun g => g.passEnd.1) := by
  rw [State.passWork_sensing]
  rfl

theorem State.passWork_station (s : State) (st : StationId) : s.passWork.station st = s.station st :=
  State.station_congr (congrArg Blocks.stations s.passWork_blocks) st

theorem State.passWork_zone (s : State) (z : ZoneId) : s.passWork.zone z = s.zone z :=
  State.zone_congr (congrArg Blocks.zones s.passWork_blocks) z

theorem State.passWork_tallies (s : State) :
    s.passWork.tally .stageFaults = s.tally .stageFaults +
      (BitVec.ofNat 16 (s.raised .misses) + BitVec.ofNat 16 (s.raised .faultCode)) ∧
    s.passWork.tally .recalibrations =
      s.tally .recalibrations + BitVec.ofNat 16 (s.raised .recalibration) := by
  obtain ⟨faults, recalibrations⟩ := SensingKind.count_tally s.passEvents
  rw [s.passWork_counts.tally, s.passWork_counts.tally, faults, recalibrations, BitVec.ofNat_add]
  unfold State.passEvents State.raised
  simp only [passStages_count, and_self]

theorem State.stagesWorked_quiet (s : State) : s.stagesWorked.quietPass = true ↔
    (∀ g ∈ s.sensing.stages.map (fun g => g.passEnd.1), g.high = false ∧ g.gust = false) ∧
      ∀ z, (s.zone z).state = .calm ∨ (s.zone z).state = .unwatched :=
  State.quietPass_iff s.stagesWorked

/-! ### The rate (R142) -/

theorem Sensing.nextRate_quiet (w : Sensing) {quiet : Bool} (h : quiet = true) :
    (w.nextRate quiet).quietCount = min 240 (w.quietCount + 1) ∧
      ((w.nextRate quiet).rate = .quiet ↔ w.rate = .quiet ∨ 239 ≤ w.quietCount) := by
  subst h
  refine ⟨rfl, ?_⟩
  have full : min 240 (w.quietCount + 1) = 240 ↔ 239 ≤ w.quietCount := by omega
  cases rate : w.rate <;> simp [Sensing.nextRate, rate, Config.quietLimit, full]

theorem Sensing.nextRate_full (w : Sensing) {quiet : Bool} (h : ¬ quiet = true) :
    (w.nextRate quiet).quietCount = 0 ∧ (w.nextRate quiet).rate = .full := by
  rw [Bool.not_eq_true] at h
  subst h
  refine ⟨rfl, ?_⟩
  cases rate : w.rate <;> simp [Sensing.nextRate, rate, Config.quietLimit]

/-! ### The stage list in exchange memory (R140) -/

section Records

variable (m : Mem) (i : Nat)

/-- A byte of stage record i (R197). -/
abbrev Memory.stageByte (k : Nat) : Nat := Memory.nat m (Layout.stage i + k) 1

/-- A two-byte number of stage record i. -/
abbrev Memory.stageWord (k : Nat) : Nat := Memory.nat m (Layout.stage i + k) 2

/-- A record whose kind is no code (R197). -/
abbrev Memory.stageUnnamed : Prop := Memory.stageByte m i 1 = 0 ∨ 5 < Memory.stageByte m i 1

/-- The failures of a record: KIND before CHANNEL (R140; notes/assumptions/51.md). -/
abbrev Memory.stageFails (r : ListReason) : Prop :=
  Memory.stageUnnamed m i ∧ r = .kind ∨
    ¬ Memory.stageUnnamed m i ∧ 15 < Memory.stageByte m i 0 ∧ r = .channel

/-- A record with a number past the end of its range (R140). -/
abbrev Memory.stagePast : Prop :=
  4 < Memory.stageByte m i 2 ∨ Memory.stageByte m i 3 < 2 ∨ 8 < Memory.stageByte m i 3 ∨
    Memory.stageByte m i 4 < 1 ∨ 16 < Memory.stageByte m i 4 ∨ 4095 < Memory.stageWord m i 6 ∨
    4095 < Memory.stageWord m i 8

/-- The configuration of a record of a kind, its numbers brought to the nearer end of their ranges. -/
def Memory.stageConfig (kind : StageKind) : StageConfig :=
  let level (bit k : Nat) :=
    if (Memory.stageByte m i 5).testBit bit then some (Memory.int m (Layout.stage i + k) 2) else none
  { channel := Memory.stageByte m i 0, kind := kind, kf := min 4 (Memory.stageByte m i 2),
    ks := max 2 (min 8 (Memory.stageByte m i 3)), skip := max 1 (min 16 (Memory.stageByte m i 4)),
    freezeLimit := min 4095 (Memory.stageWord m i 6), hysteresis := min 4095 (Memory.stageWord m i 8),
    high := level 0 10, low := level 1 12, gust := level 2 14 }

theorem Code.stageKind_none {x : Nat} : Code.stageKind x = none ↔ x = 0 ∨ 5 < x := by
  unfold Code.stageKind
  split
  all_goals simp
  grind

/-- A record is refused for its one failure, or taken with its numbers clamped. -/
theorem Memory.stageRecord_cases :
    (∃ r, Memory.stageRecord m i = .error r ∧ ∀ q, Memory.stageFails m i q ↔ q = r) ∨
    ∃ c d, Memory.stageRecord m i = .ok (c, d) ∧ (∀ q, ¬ Memory.stageFails m i q) ∧
      (d = true ↔ Memory.stagePast m i) ∧
      Code.stageKind (Memory.stageByte m i 1) = some c.kind ∧ c = Memory.stageConfig m i c.kind := by
  unfold Memory.stageRecord
  dsimp only
  cases kind : Code.stageKind (Memory.stageByte m i 1) with
  | none =>
    have unnamed : Memory.stageUnnamed m i := Code.stageKind_none.1 kind
    exact .inl ⟨.kind, rfl, fun q => by simp only [Memory.stageFails, unnamed]; tauto⟩
  | some k =>
    have named : ¬ Memory.stageUnnamed m i := fun n => by
      rw [Code.stageKind_none.2 n] at kind
      cases kind
    by_cases channel : 15 < Memory.stageByte m i 0
    · refine .inl ⟨.channel, if_pos channel, fun q => ?_⟩
      simp only [Memory.stageFails, named, channel]
      tauto
    · refine .inr ⟨_, _, if_neg channel, fun q => ?_, ?_, rfl, ?_⟩
      · simp only [Memory.stageFails, named, channel]
        tauto
      · simp only [Bool.or_eq_true, ← Bool.not_eq_false (_ != _), clampNat_bne (by decide : 0 ≤ 4),
          clampNat_bne (by decide : 2 ≤ 8), clampNat_bne (by decide : 1 ≤ 16),
          clampNat_bne (by decide : 0 ≤ 4095), Memory.stagePast, Memory.stageByte, Memory.stageWord]
        omega
      · simp only [clampNat_upTo, clampNat_eq (by decide : 2 ≤ 8), clampNat_eq (by decide : 1 ≤ 16)]
        rfl

end Records

section StageList

variable {m : Mem}

theorem Memory.stageList_fails {i n : Nat} {r : ListReason} (h : Memory.stageRecord m i = .error r) :
    Memory.stageList m (n + 1) i = .error (i, r) := by
  rw [Memory.stageList, h]

theorem Memory.stageList_passes {i n : Nat} {c : StageConfig × Bool}
    (h : Memory.stageRecord m i = .ok c) :
    (∀ f, Memory.stageList m n (i + 1) = .error f → Memory.stageList m (n + 1) i = .error f) ∧
    ∀ l, Memory.stageList m n (i + 1) = .ok l →
      Memory.stageList m (n + 1) i = .ok (c.1 :: l.1, c.2 || l.2) := by
  refine ⟨fun f hf => ?_, fun l hl => ?_⟩
  · rw [Memory.stageList, h, hf]
  · rw [Memory.stageList, h, hl]

/-- A list is refused at its first record that fails (R140). -/
theorem Memory.stageList_error_iff {n i j : Nat} {r : ListReason} :
    Memory.stageList m n i = .error (j, r) ↔ (i ≤ j ∧ j < i + n) ∧ Memory.stageFails m j r ∧
      ∀ k, i ≤ k → k < j → ∀ q, ¬ Memory.stageFails m k q := by
  induction n generalizing i with
  | zero =>
    refine iff_of_false nofun fun h => ?_
    omega
  | succ n ih =>
    obtain ⟨q, hq, fails⟩ | ⟨c, d, hc, passes, -⟩ := Memory.stageRecord_cases m i
    · rw [Memory.stageList_fails hq, Except.error.injEq, Prod.mk.injEq]
      constructor
      · rintro ⟨rfl, rfl⟩
        exact ⟨by omega, (fails q).2 rfl, fun k _ _ => by omega⟩
      · rintro ⟨⟨hi, -⟩, hj, before⟩
        obtain rfl | lt := Nat.eq_or_lt_of_le hi
        · exact ⟨rfl, ((fails r).1 hj).symm⟩
        · exact absurd ((fails q).2 rfl) (before i le_rfl lt q)
    · have rest : Memory.stageList m (n + 1) i = .error (j, r) ↔
          Memory.stageList m n (i + 1) = .error (j, r) := by
        obtain ⟨errs, oks⟩ := Memory.stageList_passes (n := n) hc
        cases hl : Memory.stageList m n (i + 1) with
        | error f => rw [errs f hl]
        | ok l =>
          rw [oks l hl]
          exact iff_of_false nofun nofun
      rw [rest, ih]
      constructor
      · rintro ⟨bounds, hj, before⟩
        refine ⟨by omega, hj, fun k hk lt => ?_⟩
        obtain rfl | gt := Nat.eq_or_lt_of_le hk
        · exact passes
        · exact before k gt lt
      · rintro ⟨bounds, hj, before⟩
        have ne : i ≠ j := by
          rintro rfl
          exact passes r hj
        exact ⟨by omega, hj, fun k hk lt => before k (by omega) lt⟩

/-- A list whose records all pass is taken record by record (R140). -/
theorem Memory.stageList_ok {n i : Nat}
    (h : ∀ k, i ≤ k → k < i + n → ∀ q, ¬ Memory.stageFails m k q) :
    ∃ l d, Memory.stageList m n i = .ok (l, d) ∧ l.length = n ∧
      (d = true ↔ ∃ k, i ≤ k ∧ k < i + n ∧ Memory.stagePast m k) ∧
      ∀ (k : Nat) (c : StageConfig), l[k]? = some c →
        Code.stageKind (Memory.stageByte m (i + k) 1) = some c.kind ∧
          c = Memory.stageConfig m (i + k) c.kind := by
  induction n generalizing i with
  | zero => exact ⟨[], false, rfl, rfl, iff_of_false nofun fun ⟨k, h1, h2, _⟩ => by omega, by simp⟩
  | succ n ih =>
    obtain ⟨q, -, fails⟩ | ⟨c, d, hc, -, past, held⟩ := Memory.stageRecord_cases m i
    · exact absurd ((fails q).2 rfl) (h i le_rfl (by omega) q)
    obtain ⟨l, d', hl, length, past', held'⟩ :=
      ih (i := i + 1) fun k hk lt => h k (by omega) (by omega)
    refine ⟨c :: l, d || d', (Memory.stageList_passes hc).2 _ hl, by rw [List.length_cons, length],
      ?_, fun k e he => ?_⟩
    · rw [Bool.or_eq_true, past, past']
      constructor
      · rintro (p | ⟨k, h1, h2, p⟩)
        · exact ⟨i, le_rfl, by omega, p⟩
        · exact ⟨k, by omega, by omega, p⟩
      · rintro ⟨k, h1, h2, p⟩
        obtain rfl | gt := Nat.eq_or_lt_of_le h1
        · exact .inl p
        · exact .inr ⟨k, gt, by omega, p⟩
    · cases k with
      | zero =>
        cases he
        exact held
      | succ k =>
        rw [show i + (k + 1) = i + 1 + k by omega]
        exact held' k e he

/-- The records of the stage list area are the host's own: what the part writes leaves them (R1). -/
theorem Memory.stageRecord_congr {m m' : Mem} {i : Nat} (hi : i < 16)
    (h : ∀ a, ¬ Layout.isOwn a → Memory.read m' a = Memory.read m a) :
    Memory.stageRecord m' i = Memory.stageRecord m i := by
  have nat (k n : Nat) (hk : k + n ≤ 32) :
      Memory.nat m' (Layout.stage i + k) n = Memory.nat m (Layout.stage i + k) n :=
    congrArg Bytes.toNat (Memory.bytes_congr fun b _ _ => h b (by
      simp only [Layout.isOwn, Layout.stage] at *
      omega))
  have first := nat 0 1 (by omega)
  rw [Nat.add_zero] at first
  simp only [Memory.stageRecord, Memory.threshold, Memory.int, first, nat 1 1, nat 2 1, nat 3 1,
    nat 4 1, nat 5 1, nat 6 2, nat 8 2, nat 10 2, nat 12 2, nat 14 2, Nat.reduceAdd, Nat.reduceLeDiff]

theorem Memory.stageList_congr {m m' : Mem}
    (h : ∀ a, ¬ Layout.isOwn a → Memory.read m' a = Memory.read m a) {n i : Nat} (le : i + n ≤ 16) :
    Memory.stageList m' n i = Memory.stageList m n i := by
  induction n generalizing i with
  | zero => rfl
  | succ n ih =>
    rw [Memory.stageList, Memory.stageList, Memory.stageRecord_congr (by omega) h, ih (by omega)]

end StageList

/-! ### A list loaded (R141) -/

theorem loadStages_get (l : List StageConfig) (olds : List Stage) (i : Nat) :
    (loadStages l olds)[i]? = l[i]?.map (fun c => Stage.load c olds[i]?) := by
  induction l generalizing olds i with
  | nil => rfl
  | cons c l ih =>
    cases i with
    | zero => simp [loadStages, List.head?_eq_getElem?]
    | succ i => simp [loadStages, ih]

section Load

variable {c : StageConfig} {old : Option Stage} {o : Stage}

/-- A stage that a loaded list carries: of the same number, channel and kind (R141). -/
abbrev Stage.carries (c : StageConfig) (old : Option Stage) (o : Stage) : Prop :=
  old = some o ∧ o.cfg.channel = c.channel ∧ o.cfg.kind = c.kind

theorem Stage.load_fresh (h : ∀ o, ¬ Stage.carries c old o) : Stage.load c old = .fresh c := by
  unfold Stage.load
  split
  · rfl
  · next o => exact if_neg fun e => h o ⟨rfl, e⟩

theorem Stage.load_live (h : Stage.carries c old o) (l : o.state = .live) :
    Stage.load c old = Stage.judgeFlags { o with cfg := c, skip := 0 } := by
  obtain ⟨rfl, same⟩ := h
  refine (if_pos same).trans ?_
  unfold Stage.carry
  dsimp only
  rw [l]

theorem Stage.load_still (h : Stage.carries c old o) (l : o.state ≠ .live) :
    Stage.load c old = { o with cfg := c, skip := 0 } := by
  obtain ⟨rfl, same⟩ := h
  refine (if_pos same).trans ?_
  unfold Stage.carry
  dsimp only
  split
  · next e => exact absurd e l
  all_goals rfl

theorem Stage.judgeFlags_cfg (g : Stage) : g.judgeFlags.cfg = g.cfg := by
  unfold Stage.judgeFlags
  split <;> rfl

theorem Stage.load_cfg (c : StageConfig) (old : Option Stage) : (Stage.load c old).cfg = c := by
  by_cases h : ∃ o, Stage.carries c old o
  · obtain ⟨o, h⟩ := h
    by_cases l : o.state = .live
    · rw [Stage.load_live h l, Stage.judgeFlags_cfg]
    · rw [Stage.load_still h l]
  · rw [Stage.load_fresh (not_exists.1 h)]
    rfl

end Load

theorem loadStages_cfg (l : List StageConfig) (olds : List Stage) :
    (loadStages l olds).map Stage.cfg = l := by
  induction l generalizing olds with
  | nil => rfl
  | cons c l ih => rw [loadStages, List.map_cons, ih, Stage.load_cfg]

/-! ### Step 5 of a pass boundary (R127, R140) -/

section LoadList

variable {s : State} {n : Nat} {clamped : Bool} {page : PageId}

/-- The list in force and the pending count changed. -/
def State.setList (p : Option (Nat × Bool)) (l : List Stage) (s : State) : State :=
  s.modSensing (fun w => { w with pendingCount := p, stages := l })

theorem State.loadList_none (h : s.sensing.pendingCount = none) : s.loadList = s := by
  rw [State.loadList, h]

variable (h : s.sensing.pendingCount = some (n, clamped))
  (hr : s.exchange.inFlight = some { page := page, request := .configureSensing })
include h hr

theorem State.loadList_error {f : Nat × ListReason} (e : Memory.stageList s.mem n 0 = .error f) :
    s.loadList = (s.setList none s.sensing.stages).answer page .badValue
      [BitVec.ofNat 8 f.1, if f.2 = .kind then 1 else 2] := by
  have code : Bytes.ofNat 1 f.1 ++ Bytes.ofNat 1 (Code.ofListReason f.2) =
      [BitVec.ofNat 8 f.1, if f.2 = .kind then 1 else 2] := by
    cases f.2 <;> rfl
  unfold State.loadList
  rw [h, hr]
  dsimp only
  rw [State.modSensing_mem, e]
  dsimp only
  rw [code]
  rfl

theorem State.loadList_ok {l : List StageConfig} {d : Bool}
    (e : Memory.stageList s.mem n 0 = .ok (l, d)) :
    s.loadList = (s.setList none (loadStages l s.sensing.stages)).answer page
      (Result.ofClamped (d || clamped)) [BitVec.ofNat 8 l.length] := by
  unfold State.loadList
  rw [h, hr]
  dsimp only
  rw [State.modSensing_mem, e]
  rfl

end LoadList

/-- All that the loading of a list can change: WS's list and pending count, the request in flight, its page and
the answers counted. -/
theorem State.loadList_cases (s : State) : s.loadList = s ∨
    ∃ l page r d, s.loadList = (s.setList none l).answer page r d := by
  unfold State.loadList
  split
  · dsimp only
    split
    · exact .inr ⟨_, _, _, _, rfl⟩
    · exact .inr ⟨_, _, _, _, rfl⟩
  · exact .inl rfl

theorem State.loadList_frame (s : State) :
    (∃ p l, s.loadList.blocks = (s.setList p l).blocks) ∧
      s.loadList.exchange.queue = s.exchange.queue ∧
      ∀ x, x ≠ .answers → s.loadList.tally x = s.tally x := by
  obtain e | ⟨l, page, r, d, e⟩ := s.loadList_cases <;> rw [e]
  · exact ⟨⟨s.sensing.pendingCount, s.sensing.stages, rfl⟩, rfl, fun _ _ => rfl⟩
  · exact ⟨⟨none, l, rfl⟩, rfl, fun x n => (State.tally_answer ..).trans (if_neg n.symm)⟩

/-! ### The next pass (R128) -/

theorem Sensing.requestsOf_length (pass : BitVec 8) (n : Nat) (l : List Stage) :
    (Sensing.requestsOf pass n l).length = l.length := by
  induction l generalizing n with
  | nil => rfl
  | cons g l ih => rw [Sensing.requestsOf, List.length_cons, List.length_cons, ih]

theorem Sensing.requestsOf_get (pass : BitVec 8) (n : Nat) (l : List Stage) (i : Nat) :
    (Sensing.requestsOf pass n l)[i]? = l[i]?.map (fun g => Frame.sampleRequest pass (n + i) g.cfg) := by
  induction l generalizing n i with
  | nil => rfl
  | cons g l ih =>
    cases i with
    | zero => rfl
    | succ i => simp [Sensing.requestsOf, ih, Nat.add_comm, Nat.add_left_comm]

/-- A stage as a pass that starts finds it: not answered (R128). -/
def Stage.unanswered (g : Stage) : Stage := { g with answered := false }

theorem Sensing.startPass_stages (w : Sensing) : w.startPass.stages = w.stages.map Stage.unanswered := rfl

theorem Stage.map_unanswered_cfg (l : List Stage) :
    (l.map Stage.unanswered).map Stage.cfg = l.map Stage.cfg := List.map_map

theorem Stage.unanswered_get {l : List Stage} {i : Nat} {g : Stage}
    (h : (l.map Stage.unanswered)[i]? = some g) : ∃ o, l[i]? = some o ∧ o.unanswered = g :=
  Option.map_eq_some_iff.1 ((List.getElem?_map ..).symm.trans h)

theorem Sensing.startPass_facts (w : Sensing) :
    (∀ g ∈ w.startPass.stages, g.answered = false) ∧
    w.startPass.requests.length = w.startPass.stages.length ∧
    (∀ (i : Nat) (g : Stage), w.startPass.stages[i]? = some g →
      w.startPass.requests[i]? = some (Frame.sampleRequest w.startPass.pass i g.cfg)) ∧
    w.startPass.timer = (if w.startPass.rate = .full then 250 else 2000) := by
  refine ⟨fun g hg => ?_, ?_, fun i g h => ?_, ?_⟩
  · obtain ⟨o, -, rfl⟩ := List.mem_map.1 hg
    rfl
  · exact (Sensing.requestsOf_length ..).trans (List.length_map _).symm
  · obtain ⟨o, ho, rfl⟩ := Stage.unanswered_get h
    refine (Sensing.requestsOf_get ..).trans ?_
    rw [ho, Nat.zero_add]
    rfl
  · unfold Sensing.startPass
    cases w.rate <;> rfl

end Sys2Proof.Machine
end

section
/-! PROOFS. O40: a pass boundary as one event (R127), from the work of its stages to the start of the next
pass. -/

namespace Sys2Proof.Machine

/-! ### The command -/

theorem exec_passBoundary {s : State} (h : s.sensing.timer = 0) :
    exec .passBoundary s = .next (s.publish (s.passBoundary settle)) := by
  refine (event_eq ..).trans ?_
  rw [if_pos h]

theorem exec_passBoundary_not {s : State} (h : s.sensing.timer ≠ 0) :
    exec .passBoundary s = .next s := by
  refine (event_eq ..).trans ?_
  rw [if_neg h, State.publish_of_blocks rfl]

/-! ### The state before the list is loaded -/

/-- The state once stages, zones and heater zones are judged: steps 1 to 4 of a pass boundary (R127). -/
def State.passJudged (s : State) : State := s.passWork.judgedAll

section Judged

variable (s : State)

theorem State.passJudged_sensing :
    s.passJudged.sensing = s.stagesWorked.sensing.nextRate s.stagesWorked.quietPass :=
  s.passWork.judgedAll_frame.sheltered.sensing.trans s.passWork_sensing

theorem State.passJudged_stages :
    s.passJudged.sensing.stages = s.sensing.stages.map (fun g => g.passEnd.1) := by
  rw [State.passJudged_sensing]
  rfl

theorem State.passJudged_time : s.passJudged.time = s.time :=
  s.passWork.judgedAll_frame.sheltered.time.trans (congrArg Blocks.time s.passWork_blocks)

theorem State.passJudged_lines : s.passJudged.lines = s.lines :=
  s.passWork.judgedAll_frame.sheltered.lines.trans (congrArg Blocks.lines s.passWork_blocks)

theorem State.passJudged_pending : s.passJudged.sensing.pendingCount = s.sensing.pendingCount := by
  rw [State.passJudged_sensing]
  rfl

theorem State.passJudged_exchange : s.passJudged.exchange.queue = s.exchange.queue ∧
    s.passJudged.exchange.inFlight = s.exchange.inFlight := by
  obtain ⟨b, later⟩ := s.passWork.judgedAll_frame.sheltered.exchange
  rw [State.passJudged, later, s.passWork_counts.exchange]
  exact ⟨rfl, rfl⟩

theorem State.passJudged_read {a : Nat} (h : ¬ Layout.isOwn a) :
    Memory.read s.passJudged.mem a = Memory.read s.mem a :=
  (s.passWork.judgedAll_frame.sheltered.bytes a h).trans (s.passWork_counts.bytes a h)

theorem State.passJudged_station (st : StationId) :
    (s.passJudged.station st).cfg = (s.station st).cfg ∧
    (s.passJudged.station st).tags = (s.station st).tags ∧
    (s.passJudged.station st).link = (s.station st).link := by
  have frame := s.passWork.judgedAll_frame
  obtain ⟨cfg, tags, -⟩ := frame.sheltered.station st
  have link := frame.link st
  rw [State.passWork_station] at cfg tags link
  exact ⟨cfg, tags, link⟩

theorem State.passJudged_tallies : s.passJudged.tally .stageFaults = s.tally .stageFaults +
      (BitVec.ofNat 16 (s.raised .misses) + BitVec.ofNat 16 (s.raised .faultCode)) ∧
    s.passJudged.tally .recalibrations =
      s.tally .recalibrations + BitVec.ofNat 16 (s.raised .recalibration) := by
  have frame := s.passWork.judgedAll_frame
  obtain ⟨faults, recalibrations⟩ := s.passWork_tallies
  exact ⟨(frame.tally _ rfl).trans faults, (frame.tally _ rfl).trans recalibrations⟩

/-- The state whose stages alone are as their pass-end work leaves them. -/
abbrev State.stagesHeard : State :=
  s.modSensing (fun w => { w with stages := w.stages.map (fun g => g.passEnd.1) })

/-- Every zone is judged on the stages as their work left them (R143, R147 to R149). -/
theorem State.passJudged_zone (z : ZoneId) : (s.passJudged.zone z).weather =
    ((s.zone z).judged ((s.zone z).cfg.stages.filterMap (fun n => s.stagesHeard.usableStage n .windSpeed))
      s.lines.siteStow).weather := by
  have lines : s.passWork.lines = s.lines := congrArg Blocks.lines s.passWork_blocks
  rw [State.passJudged, State.judgedAll_zone, State.liveWind, State.passWork_zone, lines]
  simp only [State.usableStage_congr (s := s.stagesHeard) s.passWork_stages]

/-- Every AUTO zone is judged on the stages as their work left them (R168). -/
theorem State.passJudged_demand (st : StationId) (area : Area) :
    ((s.passJudged.station st).heater area).demand = Heater.judged (s.station st).retired
      (s.stagesHeard.autoDemand st area) ((s.station st).heater area).demand := by
  rw [State.passJudged, State.judgedAll_demand, State.passWork_station,
    State.autoDemand_congr (s := s.stagesHeard) s.passWork_stages
      (congrArg Station.cfg (s.passWork_station st))]

end Judged

/-! ### The list and the next pass (R127, R128) -/

/-- A pending list loaded and the next pass started: steps 5 and 6 of a pass boundary (R127). -/
def State.nextPass (s : State) : State := s.loadList.modSensing Sensing.startPass

theorem State.passBoundary_eq (s : State) : s.passBoundary settle = s.passJudged.nextPass := rfl

theorem State.passBoundary_whole (s : State) : s.passBoundary settle =
    (eachOf allStations (State.heatPassEnd settle) (eachOf allZones (State.evaluate settle true)
      (eachOf allZones State.judgeWeather s.passWork))).loadList.modSensing Sensing.startPass := rfl

section Next

variable (s : State)

/-- The blocks once the next pass has started, but for WS's list. -/
theorem State.nextPass_blocks : ∃ p l, s.nextPass.blocks =
    ((s.setList p l).modSensing Sensing.startPass).blocks := by
  obtain ⟨⟨p, l, e⟩, -⟩ := s.loadList_frame
  exact ⟨p, l, congrArg (fun b : Blocks => { b with sensing := b.sensing.startPass }) e⟩

theorem State.nextPass_station (st : StationId) : s.nextPass.station st = s.station st := by
  obtain ⟨p, l, e⟩ := s.nextPass_blocks
  exact State.station_congr (congrArg Blocks.stations e) st

theorem State.nextPass_zone (z : ZoneId) : s.nextPass.zone z = s.zone z := by
  obtain ⟨p, l, e⟩ := s.nextPass_blocks
  exact State.zone_congr (congrArg Blocks.zones e) z

theorem State.nextPass_time : s.nextPass.time = s.time := by
  obtain ⟨p, l, e⟩ := s.nextPass_blocks
  exact congrArg Blocks.time e

theorem State.nextPass_lines : s.nextPass.lines = s.lines := by
  obtain ⟨p, l, e⟩ := s.nextPass_blocks
  exact congrArg Blocks.lines e

theorem State.nextPass_queue : s.nextPass.exchange.queue = s.exchange.queue := by
  obtain ⟨-, queue, -⟩ := s.loadList_frame
  exact queue

theorem State.nextPass_tally (x : Tally) (h : x ≠ .answers) : s.nextPass.tally x = s.tally x := by
  obtain ⟨-, -, tally⟩ := s.loadList_frame
  exact tally x h

/-- Pass number, quiet pass count and rate stand through the loading of a list. -/
theorem State.nextPass_sensing : ∃ w : Sensing, s.nextPass.sensing = w.startPass ∧
    w.pass = s.sensing.pass ∧ w.quietCount = s.sensing.quietCount ∧ w.rate = s.sensing.rate := by
  obtain ⟨p, l, e⟩ := s.nextPass_blocks
  exact ⟨(s.setList p l).sensing, congrArg Blocks.sensing e, rfl, rfl, rfl⟩

variable {s}

theorem State.nextPass_unlisted (h : s.sensing.pendingCount = none) :
    s.nextPass.sensing = s.sensing.startPass ∧ s.nextPass.exchange = s.exchange ∧
      s.nextPass.mem = s.mem := by
  rw [State.nextPass, State.loadList_none h]
  exact ⟨rfl, rfl, rfl⟩

/-- A boundary that answers: WS's list as it is left, and the answer on the page (R8, R140). -/
theorem State.nextPass_answers {l : List Stage} {page : PageId} {r : Result} {d : List Byte}
    (e : s.loadList = (s.setList none l).answer page r d) :
    s.nextPass.sensing = Sensing.startPass { s.sensing with pendingCount := none, stages := l } ∧
      Answers page r d [] s s.nextPass := by
  have answered : Answers page r d [] s ((s.setList none l).answer page r d) :=
    .of_counts (s := s) (t := s.setList none l) (.of_eq rfl rfl rfl) page r d
  rw [State.nextPass, e]
  exact ⟨rfl, { answered with }⟩

end Next

/-! ### The list at the boundary (R140, R141) -/

section Listed

variable {s : State} {n : Nat} {clamped : Bool} {page : PageId}

/-- A CONFIGURE_SENSING request in flight, with its count (R139). -/
abbrev State.pends (s : State) (n : Nat) (clamped : Bool) (page : PageId) : Prop :=
  s.sensing.pendingCount = some (n, clamped) ∧ n ≤ 16 ∧
    s.exchange.inFlight = some { page := page, request := .configureSensing }

variable (h : s.pends n clamped page)
include h

/-- The list that a boundary reads is the host's, as it stood before. -/
theorem State.passJudged_list :
    s.passJudged.sensing.pendingCount = some (n, clamped) ∧
    s.passJudged.exchange.inFlight = some { page := page, request := .configureSensing } ∧
    Memory.stageList s.passJudged.mem n 0 = Memory.stageList s.mem n 0 := by
  obtain ⟨pending, le, inFlight⟩ := h
  exact ⟨s.passJudged_pending.trans pending, s.passJudged_exchange.2.trans inFlight,
    Memory.stageList_congr (fun _ => s.passJudged_read) (by omega)⟩

/-- A refused list: the list in force stands, and the failing record is answered (R140). -/
theorem State.passBoundary_refused {f : Nat × ListReason} (e : Memory.stageList s.mem n 0 = .error f) :
    (s.passBoundary settle).sensing = Sensing.startPass { s.passJudged.sensing with
      pendingCount := none, stages := s.passJudged.sensing.stages } ∧
    Answers page .badValue [BitVec.ofNat 8 f.1, if f.2 = .kind then 1 else 2] [] s.passJudged
      (s.passBoundary settle) := by
  obtain ⟨pending, inFlight, list⟩ := s.passJudged_list h
  rw [State.passBoundary_eq]
  exact State.nextPass_answers (State.loadList_error pending inFlight (list.trans e))

/-- A loaded list, with its length in the answer (R140, R141). -/
theorem State.passBoundary_loaded {l : List StageConfig} {d : Bool}
    (e : Memory.stageList s.mem n 0 = .ok (l, d)) :
    (s.passBoundary settle).sensing = Sensing.startPass { s.passJudged.sensing with
      pendingCount := none, stages := loadStages l s.passJudged.sensing.stages } ∧
    Answers page (Result.ofClamped (d || clamped)) [BitVec.ofNat 8 l.length] [] s.passJudged
      (s.passBoundary settle) := by
  obtain ⟨pending, inFlight, list⟩ := s.passJudged_list h
  rw [State.passBoundary_eq]
  exact State.nextPass_answers (State.loadList_ok pending inFlight (list.trans e))

end Listed

/-- A stage of a loaded list as the next pass finds it (R141). -/
theorem loadStages_unanswered {l : List StageConfig} {olds : List Stage} {i : Nat} {g : Stage}
    (h : ((loadStages l olds).map Stage.unanswered)[i]? = some g) :
    (∀ o, Stage.carries g.cfg olds[i]? o →
      (o.state = .live →
        g = { Stage.judgeFlags { o with cfg := g.cfg, skip := 0 } with answered := false }) ∧
      (o.state ≠ .live → g = { o with cfg := g.cfg, skip := 0, answered := false })) ∧
    ((∀ o, ¬ Stage.carries g.cfg olds[i]? o) → g = Stage.fresh g.cfg) := by
  obtain ⟨o, ho, started⟩ := Stage.unanswered_get h
  obtain ⟨c, -, rfl⟩ := Option.map_eq_some_iff.1 ((loadStages_get ..).symm.trans ho)
  have cfg : g.cfg = c := by rw [← started]; exact Stage.load_cfg ..
  rw [cfg]
  refine ⟨fun o carried => ⟨fun live => ?_, fun still => ?_⟩, fun new => ?_⟩
  · rw [← started, Stage.load_live carried live, Stage.unanswered]
  · rw [← started, Stage.load_still carried still, Stage.unanswered]
  · rw [← started, Stage.load_fresh new]
    rfl

theorem Code.ofResult_clamped (b : Bool) : Code.ofResult (Result.ofClamped b) = if b then 1 else 0 := by
  cases b <;> rfl

/-! ### HC at a pass end (R168, R169) -/

theorem State.modHeater_ext {s : State} {st : StationId} {area : Area} {f g : Heater → Heater}
    (h : f ((s.station st).heater area) = g ((s.station st).heater area)) :
    s.modHeater st area f = s.modHeater st area g :=
  State.modStation_ext (by
    cases area
    case reflector => exact congrArg (fun x => { s.station st with reflector := x }) h
    case feed => exact congrArg (fun x => { s.station st with feed := x }) h)

theorem State.changeCall_ext {k : Settle} {s : State} {st : StationId} {area : Area}
    {f g : Heater → Heater} (h : f ((s.station st).heater area) = g ((s.station st).heater area)) :
    s.changeCall k st area f = s.changeCall k st area g := by
  unfold State.changeCall
  rw [State.modHeater_ext h]

/-- The end of an auto demand in ON starts the melt-off timer unless it runs; a rise stops it (R169). -/
theorem Heater.setAuto_eq (h : Heater) (demand missing : Bool) : h.setAuto demand missing = { h with
    auto := demand, sensorMissing := missing,
    meltOff := if demand = true then none
      else if h.auto = true ∧ h.state = .on ∧ h.meltOff = none then some 600000 else h.meltOff } := by
  unfold Heater.setAuto
  cases demand
  · cases h.meltOff <;> simp [Config.meltOffTime]
  · rfl

theorem Zone.causesNow_eq (x : Zone) (siteStow : Bool) : x.causesNow siteStow =
    { speed := x.speed.any (fun v => decide ((x.cfg.stow : Int) ≤ v)), gustStow := x.gustStow,
      blind := x.blind, site := siteStow, order := x.order } := by
  unfold Zone.causesNow
  cases x.speed <;> rfl

theorem ZoneSame.of_weather {x y : Zone} (e : y.weather = x.weather) : ZoneSame x y :=
  ⟨(congrArg Zone.cfg e :), (congrArg Zone.speed e :), (congrArg Zone.gust e :),
    (congrArg Zone.gustStow e :), (congrArg Zone.blind e :), (congrArg Zone.blindTimer e :),
    (congrArg Zone.order e :), (congrArg Zone.causes e :)⟩

/-! ### A whole boundary -/

section Boundary

variable (s : State)

/-- The pass number, the requests and the timer of the next pass (R127, R128). -/
theorem State.passBoundary_pass :
    let v := (s.passBoundary settle).sensing
    v.pass = s.sensing.pass + 1 ∧ (∀ g ∈ v.stages, g.answered = false) ∧
    v.requests.length = v.stages.length ∧
    (∀ (i : Nat) (g : Stage), v.stages[i]? = some g →
      v.requests[i]? = some (Frame.sampleRequest v.pass i g.cfg)) ∧
    v.timer = (if v.rate = .full then 250 else 2000) := by
  rw [State.passBoundary_eq]
  obtain ⟨w, started, pass, -⟩ := s.passJudged.nextPass_sensing
  obtain ⟨cleared, requests, sent, timer⟩ := w.startPass_facts
  rw [State.passJudged_sensing] at pass
  rw [started]
  exact ⟨congrArg (· + 1) pass, cleared, requests, sent, timer⟩

/-- The quiet pass count and the rate of the next pass (R142). -/
theorem State.passBoundary_rate :
    (s.passBoundary settle).sensing.quietCount =
      (s.stagesWorked.sensing.nextRate s.stagesWorked.quietPass).quietCount ∧
    (s.passBoundary settle).sensing.rate =
      (s.stagesWorked.sensing.nextRate s.stagesWorked.quietPass).rate := by
  rw [State.passBoundary_eq]
  obtain ⟨w, started, -, count, rate⟩ := s.passJudged.nextPass_sensing
  rw [State.passJudged_sensing] at count rate
  rw [started]
  exact ⟨count, rate⟩

/-- What no step of a boundary touches, and what its event publishes leaves. -/
theorem State.passBoundary_frame : let t := s.publish (s.passBoundary settle)
    t.time = s.time ∧ t.lines = s.lines ∧ t.exchange.queue = s.exchange.queue ∧
    ∀ st, (t.station st).cfg = (s.station st).cfg ∧ (t.station st).tags = (s.station st).tags ∧
      (t.station st).link = (s.station st).link := by
  intro t
  simp only [t, State.publish_time, State.publish_lines, State.publish_exchange,
    State.station_publish, State.passBoundary_eq, State.nextPass_station]
  exact ⟨(State.nextPass_time _).trans s.passJudged_time,
    (State.nextPass_lines _).trans s.passJudged_lines,
    (State.nextPass_queue _).trans s.passJudged_exchange.1, s.passJudged_station⟩

theorem State.passBoundary_tallies : let t := s.publish (s.passBoundary settle)
    t.tally .stageFaults = s.tally .stageFaults +
      (BitVec.ofNat 16 (s.raised .misses) + BitVec.ofNat 16 (s.raised .faultCode)) ∧
    t.tally .recalibrations = s.tally .recalibrations + BitVec.ofNat 16 (s.raised .recalibration) := by
  intro t
  obtain ⟨faults, recalibrations⟩ := s.passJudged_tallies
  simp only [t, State.tally_publish, State.passBoundary_eq]
  exact ⟨(State.nextPass_tally _ _ (by decide)).trans faults,
    (State.nextPass_tally _ _ (by decide)).trans recalibrations⟩

/-- A boundary with no list pending (R127). -/
theorem State.passBoundary_unlisted (h : s.sensing.pendingCount = none) :
    (s.passBoundary settle).sensing = s.passJudged.sensing.startPass ∧
    (s.passBoundary settle).exchange.inFlight = s.exchange.inFlight ∧
    ∀ a, ¬ Layout.isOwn a → Memory.read (s.passBoundary settle).mem a = Memory.read s.mem a := by
  obtain ⟨sensing, exchange, mem⟩ := State.nextPass_unlisted (s.passJudged_pending.trans h)
  rw [State.passBoundary_eq, sensing, exchange, mem]
  exact ⟨rfl, s.passJudged_exchange.2, fun _ => s.passJudged_read⟩

theorem State.passBoundary_zone (z : ZoneId) : ((s.passBoundary settle).zone z).weather =
    ((s.zone z).judged ((s.zone z).cfg.stages.filterMap
      (fun n => s.stagesHeard.usableStage n .windSpeed)) s.lines.siteStow).weather := by
  rw [State.passBoundary_eq, State.nextPass_zone]
  exact s.passJudged_zone z

theorem State.passBoundary_demand (st : StationId) (area : Area) :
    (((s.passBoundary settle).station st).heater area).demand = Heater.judged (s.station st).retired
      (s.stagesHeard.autoDemand st area) ((s.station st).heater area).demand := by
  rw [State.passBoundary_eq, State.nextPass_station]
  exact s.passJudged_demand st area

end Boundary

/-- What a boundary leaves: `p` is the state before the list is loaded, `u` the state that the event then
publishes. -/
structure PassEnded (s p u : State) : Prop where
  stages : p.sensing.stages = s.sensing.stages.map (fun g => g.passEnd.1)
  pending : p.sensing.pendingCount = s.sensing.pendingCount
  read : ∀ a, ¬ Layout.isOwn a → Memory.read p.mem a = Memory.read s.mem a
  unlisted : s.sensing.pendingCount = none → u.sensing = p.sensing.startPass ∧
    u.exchange.inFlight = s.exchange.inFlight ∧
    ∀ a, ¬ Layout.isOwn a → Memory.read u.mem a = Memory.read s.mem a
  refused : ∀ n clamped page f, s.pends n clamped page → Memory.stageList s.mem n 0 = .error f →
    u.sensing = Sensing.startPass { p.sensing with
      pendingCount := none, stages := p.sensing.stages } ∧
    Answers page .badValue [BitVec.ofNat 8 f.1, if f.2 = .kind then 1 else 2] [] p u
  loaded : ∀ n clamped page l d, s.pends n clamped page → Memory.stageList s.mem n 0 = .ok (l, d) →
    u.sensing = Sensing.startPass { p.sensing with
      pendingCount := none, stages := loadStages l p.sensing.stages } ∧
    Answers page (Result.ofClamped (d || clamped)) [BitVec.ofNat 8 l.length] [] p u

theorem State.passBoundary_ended (s : State) : PassEnded s s.passJudged (s.passBoundary settle) where
  stages := s.passJudged_stages
  pending := s.passJudged_pending
  read _ := s.passJudged_read
  unlisted := s.passBoundary_unlisted
  refused _ _ _ _ h e := State.passBoundary_refused h e
  loaded _ _ _ _ _ h e := State.passBoundary_loaded h e

namespace PassEnded

variable {s p u : State} (ended : PassEnded s p u)
include ended

/-- The list in force stands where none is pending (R127, R128). -/
theorem stages_unlisted (h : s.sensing.pendingCount = none) : u.sensing.stages =
    (s.sensing.stages.map (fun g => g.passEnd.1)).map Stage.unanswered := by
  rw [(ended.unlisted h).1, Sensing.startPass_stages, ended.stages]

theorem pending_unlisted (h : s.sensing.pendingCount = none) : u.sensing.pendingCount = none := by
  rw [(ended.unlisted h).1]
  exact ended.pending.trans h

variable {n : Nat} {clamped : Bool} {page : PageId} (h : s.pends n clamped page)
include h

/-- A pending list is answered, whatever its outcome (R140). -/
theorem answers : u.sensing.pendingCount = none ∧ ∃ r d, Answers page r d [] p u := by
  cases e : Memory.stageList s.mem n 0 with
  | error f =>
    obtain ⟨sensing, answers⟩ := ended.refused _ _ _ _ h e
    exact ⟨congrArg Sensing.pendingCount sensing, _, _, answers⟩
  | ok l =>
    obtain ⟨sensing, answers⟩ := ended.loaded _ _ _ l.1 l.2 h e
    exact ⟨congrArg Sensing.pendingCount sensing, _, _, answers⟩

theorem stages_refused {f : Nat × ListReason} (e : Memory.stageList s.mem n 0 = .error f) :
    u.sensing.stages = (s.sensing.stages.map (fun g => g.passEnd.1)).map Stage.unanswered := by
  rw [(ended.refused _ _ _ _ h e).1, Sensing.startPass_stages, ended.stages]

theorem stages_loaded {l : List StageConfig} {d : Bool} (e : Memory.stageList s.mem n 0 = .ok (l, d)) :
    u.sensing.stages =
      (loadStages l (s.sensing.stages.map (fun g => g.passEnd.1))).map Stage.unanswered := by
  rw [(ended.loaded _ _ _ _ _ h e).1, Sensing.startPass_stages, ended.stages]

end PassEnded

/-- Settles O40: the boundary by its steps, the stage list by its records, and HC's judgements at a pass end. -/
theorem passBoundaryEndsAndStartsAPass : Obligations.PassBoundaryEndsAndStartsAPass := by
  refine ⟨fun s => ⟨exec_passBoundary_not, fun timer => ⟨_, exec_passBoundary timer, ?_⟩⟩,
    fun m n _ => ?_, fun k s st => ⟨rfl, fun area => ?_⟩⟩
  · obtain ⟨pass, cleared, requests, sent, timer⟩ := s.passBoundary_pass
    obtain ⟨count, rate⟩ := s.passBoundary_rate
    obtain ⟨faults, recalibrations⟩ := s.passBoundary_tallies
    obtain ⟨time, lines, queue, stations⟩ := s.passBoundary_frame
    have zones := s.passBoundary_zone
    have demands := s.passBoundary_demand
    have whole := s.passBoundary_whole
    have ended := s.passBoundary_ended
    generalize s.passJudged = p at ended
    generalize s.passBoundary settle = u at *
    intro w v worked quiet raised kept
    have quiet_iff : s.stagesWorked.quietPass = true ↔ quiet := s.stagesWorked_quiet
    refine ⟨pass, cleared, requests, sent, fun q => ?_, fun q => ?_, timer, faults, recalibrations,
      fun h => ?_, fun n c page h le hr => ?_, congrArg s.publish whole,
      ⟨fun z => ?_, fun st area => ?_⟩, time, lines, queue, stations⟩
    · obtain ⟨counted, rated⟩ := Sensing.nextRate_quiet s.stagesWorked.sensing (quiet_iff.2 q)
      exact ⟨count.trans counted, rate ▸ rated⟩
    · obtain ⟨counted, rated⟩ := Sensing.nextRate_full s.stagesWorked.sensing (mt quiet_iff.1 q)
      exact ⟨count.trans counted, rate.trans rated⟩
    · obtain ⟨-, inFlight, read⟩ := ended.unlisted h
      exact ⟨ended.stages_unlisted h, ended.pending_unlisted h, inFlight,
        fun a ha => (State.read_publish (Layout.not_isStatus ha)).trans (read a ha)⟩
    · have pends : s.pends n c page := ⟨h, le, hr⟩
      obtain ⟨pending, r, d, answers⟩ := ended.answers pends
      have shown := answers.publish (q := s)
      refine ⟨pending, congrArg Exchange.inFlight shown.exchange, shown.word, fun f e => ?_,
        fun l d e => ?_, fun a ha hp => (shown.bytes a ha hp).trans (ended.read a ha)⟩
      · have shown := (ended.refused _ _ _ _ pends e).2.publish (q := s)
        exact ⟨ended.stages_refused pends e, shown.code, shown.data⟩
      · have shown := (ended.loaded _ _ _ _ _ pends e).2.publish (q := s)
        have stages : v.stages = _ := ended.stages_loaded pends e
        refine ⟨?_, fun i g hg => loadStages_unanswered (stages ▸ hg),
          shown.code.trans (Code.ofResult_clamped _), shown.data⟩
        rw [stages, Stage.map_unanswered_cfg, loadStages_cfg]
    · intro x j
      have e := ZoneSame.of_weather (zones z)
      exact ⟨e.cfg, e.speed, e.gust, e.gustStow, e.blind, e.blindTimer, e.order,
        e.causes.trans (Zone.causesNow_eq j _)⟩
    · intro h g
      have e := demands st area
      refine ⟨fun auto kept => ?_, fun auto => ?_⟩
      · rw [Heater.judged_auto ⟨auto, kept⟩] at e
        exact congrArg Prod.snd e
      · rw [Heater.judged_other fun c => auto c.1] at e
        exact ⟨congrArg (fun d => d.2.1) e, congrArg (fun d => d.2.2) e⟩
  · intro byte word level unnamed fails past
    refine ⟨fun j r => ?_, fun h => ?_⟩
    · have refused := Memory.stageList_error_iff (m := m) (n := n) (i := 0) (j := j) (r := r)
      simp only [Nat.zero_le, true_and, Nat.zero_add, true_imp_iff] at refused
      exact refused
    · obtain ⟨l, d, hl, length, clamped, held⟩ :=
        Memory.stageList_ok (m := m) (n := n) (i := 0) fun k _ lt => h k (by omega)
      simp only [Nat.zero_le, true_and, Nat.zero_add] at clamped held
      exact ⟨l, d, hl, length, clamped, held⟩
  · intro h
    refine ⟨fun n => if_neg fun c => ?_, fun auto kept => ?_⟩
    · rcases n with n | n
      · exact n c.1
      · exact Bool.false_ne_true (c.2.symm.trans n)
    · exact (if_pos ⟨auto, kept⟩).trans (State.changeCall_ext (Heater.setAuto_eq ..))

end Sys2Proof.Machine
end
